-- ==== Sys2Proof/Word.lean ====
section
/-!
DEFINITION. The plainest word types: a register of 64 bits (R75), an instruction word of 32 bits (R45), a byte, a cue
halfword and cue register (R239), and reading a BitVec as a signed number (R75).
-/

namespace Sys2Proof

/-- A G or H register, an address, a system register (R75). -/
abbrev Word := BitVec 64

/-- One instruction word (R45), one 32-bit element. -/
abbrev Word32 := BitVec 32

/-- One byte of memory, scratchpad or register file. -/
abbrev Byte := BitVec 8

/-- The zero word. -/
abbrev Word.zero : Word := 0#64

/-- All ones, the fixed answer of R78, R202, R233. -/
abbrev Word.ones : Word := BitVec.allOnes 64

/-- 0 or 1 as a 64-bit value (R79, R80). -/
def Word.ofBool (b : Bool) : Word := if b then 1#64 else 0#64

end Sys2Proof
end

