-- ==== Sys2Proof/Syntax.lean ====
section
/-!
DEFINITION. The abstract syntax: one constructor of Instr for every row of spec/opcode_table.json. One-word Basdex
instructions carry their fields (R47, R57-R59), two-word instructions carry the fields of R49 in one structure, cue
instructions those of R239. The rows without an encoding are the machine's other steps (spec/95); they carry what
names the step: a thread, team, task, partition, record, core, or what the outside world brings.
-/

namespace Sys2Proof

/-- The two instruction streams of a thread (spec/01, "The thread and its two streams"). -/
inductive Stream where
  | execute
  | access
  deriving DecidableEq, Repr

/-- The scopes of R58 and R293. -/
inductive Scope where
  | thr
  | ens
  | dev
  | sys
  | rcv
  deriving DecidableEq, Repr

/-- A register field of a one-word instruction: a G register in the execute stream, an H register in the access
stream (R48). -/
abbrev Reg := BitVec 5

/-- A cue register c0-c7 (R239). -/
abbrev CReg := BitVec 3

/-- The fields of a two-word instruction besides MAJ and FN5 (R49). -/
structure Wide where
  vd : BitVec 7
  va : BitVec 7
  vb : BitVec 7
  pred : BitVec 4
  ty : BitVec 3
  rnd : BitVec 2
  zm : Bool
  vc : BitVec 7
  /-- IMM15, or MOD with U in bit 14. -/
  imm : BitVec 15
  deriving DecidableEq, Repr

/-- An error that strikes one value inside an engine while a command runs (R271, R272); a sum, weight or row sum changes by
delta * 2^exp. -/
inductive Upset where
  /-- s(col) of a pass. -/
  | sum (pass col : Nat) (delta exp : Int)
  /-- The latched W(k, col) as the passes read it. -/
  | weight (k col : Nat) (delta exp : Int)
  /-- The latched row sum of k. -/
  | rowsum (k : Nat) (delta exp : Int)
  /-- Bits of one result flip: of the add of a pass into a column, or of an element of a vector result (pass 0). -/
  | result (pass col mask : Nat)
  deriving DecidableEq, Repr

/-- What goes wrong in the checked hardware while a command runs: whether the Prompter's comparison differs (R146, R166), and the
values struck. Which do is an input of the step; what they lead to the model computes. -/
structure CheckErr where
  prompter : Bool := false
  upsets : List Upset := []
  deriving DecidableEq, Repr

/-- What uses an array whose error shows at its next use (R358). -/
inductive ArrayUse where
  /-- The next instruction of a stream. -/
  | issue (st : Stream)
  /-- The head command of the vector queue, or of the matrix queue. -/
  | vector
  | matrix
  deriving DecidableEq, Repr

/-- Where a storage error is detected (R358), and whether ECC corrects it. -/
inductive EccWhere where
  /-- A 64 B unit of HBM4 or near store, by physical address. -/
  | mem (pa : Nat) (corrected : Bool)
  /-- A 64 B unit of a thread's scratchpad, by group offset. -/
  | spad (tid off : Nat) (corrected : Bool)
  /-- A row of an accumulator's visible or working bank. -/
  | acc (tid ac row : Nat) (visible corrected : Bool)
  /-- G or H registers, queues, vector or operand files, Wings, spill, at the use that finds the error. -/
  | array (tid : Nat) (use : ArrayUse) (corrected : Bool)
  /-- The Prompter's own state (R360), at the instruction of a stream that finds it. -/
  | prompter (tid : Nat) (st : Stream) (corrected : Bool)
  /-- A fabric flit that is sent again. -/
  | flit
  /-- The image of a team in the context area: it does not load any more (R393). -/
  | image (team : Nat)
  /-- The Prompter's copy of what the next instruction of a stream sends out of the core differs (R359). -/
  | output (tid : Nat) (st : Stream)
  deriving DecidableEq, Repr

/-- A data frame of the ring (R377): the source elements of one rank, passed on by the predecessor, with what
matched records must agree in (R190). -/
structure CollFrame where
  node : Word
  epoch : Word
  kind : Nat
  dt : Nat
  op : Nat
  nmem : Nat
  count : Nat
  /-- Which round of the epoch, and of its kind or pair, the frame belongs to (R190). -/
  round : Nat
  /-- Rank whose source the frame carries. -/
  origin : Nat
  bytes : List Byte
  /-- Elements that come from a poisoned unit (R358). -/
  poison : List Nat
  deriving DecidableEq, Repr

/-- An abort that a collective record sends when it ends (R189, R191, R378): who sent it, and the round that it abandons. -/
structure CollAbort where
  node : Word
  epoch : Word
  kind : Nat
  round : Nat
  deriving DecidableEq, Repr

/-- A frame as it arrived on a port (R328). -/
structure WireFrame where
  port : Nat
  bytes : List Byte
  deriving DecidableEq, Repr

/-- A Clovo message as R329 lays it out, with the port it arrived on. -/
structure Clovo where
  port : Nat
  ver : Byte
  chan : Nat
  flags : Byte
  win : Nat
  retry : Nat
  psn : Word32
  apsn : Word32
  src : Word
  dst : Word
  payload : List Byte
  deriving DecidableEq, Repr

/-- What a REPLICA message carries to a partner (R412): changed segments and the commit record of one recovery
point. -/
structure Replica where
  node : Word
  part : Nat
  seq : Word
  /-- The sender's power-feed identity. -/
  feed : Word
  nseg : Nat
  segments : List (Nat × List Byte)
  commit : List Byte
  table : List Byte
  deriving DecidableEq, Repr

/-- A partner's answer to the recovery point `seq` of a partition: it has kept it, or it refuses the partition (R412). -/
structure PartnerReply where
  part : Nat
  seq : Word
  refused : Bool
  deriving DecidableEq, Repr

/-- What a DATA message of the COLLECTIVE or REPLICA channel carries (R377, R378, R412, R413). The spec gives these payloads no byte
layout: what arrives names its content beside its header, and what leaves has the bytes of Config.peerBytes (log 19). -/
inductive PeerMsg where
  | frame (f : CollFrame)
  | hold (epoch : Word)
  | abort (a : CollAbort)
  | replica (m : Replica)
  | answer (x : PartnerReply)
  | fetch (part : Nat) (seq : Word)
  deriving DecidableEq, Repr

/-- One constructor per row of spec/opcode_table.json. -/
inductive Instr where
  -- One-word Basdex instructions (R47, R57-R59).
  | add (d a b : Reg)
  | sub (d a b : Reg)
  | and (d a b : Reg)
  | or (d a b : Reg)
  | xor (d a b : Reg)
  | andn (d a b : Reg)
  | shl (d a b : Reg)
  | shr (d a b : Reg)
  | sra (d a b : Reg)
  | min (d a b : Reg)
  | max (d a b : Reg)
  | minu (d a b : Reg)
  | maxu (d a b : Reg)
  | clz (d a : Reg)
  | ctz (d a : Reg)
  | popc (d a : Reg)
  | mov (d a : Reg)
  | mul (d a b : Reg)
  | mulh (d a b : Reg)
  | mulhu (d a b : Reg)
  | mulhsu (d a b : Reg)
  | div (d a b : Reg)
  | divu (d a b : Reg)
  | rem (d a b : Reg)
  | remu (d a b : Reg)
  | seq (d a b : Reg)
  | sne (d a b : Reg)
  | slt (d a b : Reg)
  | sltu (d a b : Reg)
  | sle (d a b : Reg)
  | sleu (d a b : Reg)
  | addi (d a : Reg) (i : BitVec 16)
  | andi (d a : Reg) (i : BitVec 16)
  | ori (d a : Reg) (i : BitVec 16)
  | xori (d a : Reg) (i : BitVec 16)
  | shli (d a : Reg) (i : BitVec 6)
  | shri (d a : Reg) (i : BitVec 6)
  | srai (d a : Reg) (i : BitVec 6)
  | slti (d a : Reg) (i : BitVec 16)
  | sltiu (d a : Reg) (i : BitVec 16)
  | seqi (d a : Reg) (i : BitVec 16)
  | movi (d : Reg) (i : BitVec 16)
  | movk (d : Reg) (h : BitVec 2) (i : BitVec 16)
  | beq (a b : Reg) (o : BitVec 16)
  | bne (a b : Reg) (o : BitVec 16)
  | blt (a b : Reg) (o : BitVec 16)
  | bge (a b : Reg) (o : BitVec 16)
  | bqt (o : BitVec 16)
  | bqf (o : BitVec 16)
  | jalr (d a : Reg)
  | mbrd (d : Reg) (k : BitVec 3)
  | mbput (k : BitVec 3) (a b : Reg)
  | rotrd (d : Reg)
  | rotwr (a : Reg)
  | jal (d : Reg) (o : BitVec 21)
  | loop (l : BitVec 2) (s : Bool) (r : Reg) (n : BitVec 10)
  | ldb (d b : Reg) (o : BitVec 12)
  | ldbu (d b : Reg) (o : BitVec 12)
  | ldh (d b : Reg) (o : BitVec 12)
  | ldhu (d b : Reg) (o : BitVec 12)
  | ldw (d b : Reg) (o : BitVec 12)
  | ldwu (d b : Reg) (o : BitVec 12)
  | ldd (d b : Reg) (o : BitVec 12)
  | lqb (q : BitVec 2) (b : Reg) (o : BitVec 12)
  | lqbu (q : BitVec 2) (b : Reg) (o : BitVec 12)
  | lqh (q : BitVec 2) (b : Reg) (o : BitVec 12)
  | lqhu (q : BitVec 2) (b : Reg) (o : BitVec 12)
  | lqw (q : BitVec 2) (b : Reg) (o : BitVec 12)
  | lqwu (q : BitVec 2) (b : Reg) (o : BitVec 12)
  | lqd (q : BitVec 2) (b : Reg) (o : BitVec 12)
  | sab (b : Reg) (o : BitVec 12)
  | sah (b : Reg) (o : BitVec 12)
  | saw (b : Reg) (o : BitVec 12)
  | sad (b : Reg) (o : BitVec 12)
  | qpop (d : Reg) (q : BitVec 2)
  | sdq (a : Reg)
  | xqput (a : Reg)
  | xqget (d : Reg)
  | bqput (a : Reg)
  | tld (d a b : Reg)
  | tst (d a b : Reg)
  | gth (d a b : Reg)
  | sct (d a b : Reg)
  | spld (d : Reg) (o : BitVec 9)
  | spst (d : Reg) (o : BitVec 9)
  | amadd (d a b : Reg) (c : Scope) (z : Bool)
  | ammin (d a b : Reg) (c : Scope) (z : Bool)
  | ammax (d a b : Reg) (c : Scope) (z : Bool)
  | amand (d a b : Reg) (c : Scope) (z : Bool)
  | amor (d a b : Reg) (c : Scope) (z : Bool)
  | amxor (d a b : Reg) (c : Scope) (z : Bool)
  | amswp (d a b : Reg) (c : Scope) (z : Bool)
  | amcas (d a b : Reg) (c : Scope) (z : Bool)
  | rel (c : Scope)
  | acq (c : Scope)
  | fence (c : Scope)
  | push (d a : Reg) (e : BitVec 6)
  | swait (d a b : Reg)
  | ssig (d a b : Reg)
  | srd (d a : Reg)
  | ecreate (d : Reg)
  | ejoin (d a : Reg)
  | eleave (d a : Reg)
  | equery (d a b : Reg)
  | ebar (d a : Reg)
  | uimask (d a : Reg)
  | sysrd (d : Reg) (n : BitVec 12)
  | sysrdSigv (d : Reg)
  | sysrdSigs (d : Reg)
  | sysrdTrapInfo (d : Reg) (n : BitVec 1)
  | syswr (a : Reg) (n : BitVec 12)
  | syswrHeapWindow (a : Reg) (n : BitVec 2)
  | trap (n : BitVec 12)
  | cro (o : BitVec 12)
  | locq (d a : Reg) (n : Bool)
  | brk (n : BitVec 12)
  | rpopen (d : Reg)
  | rpcommit (d a : Reg)
  | rpwait (d a : Reg) (w : Bool)
  -- Two-word Basdex instructions (R49, R60).
  | vadd (f : Wide)
  | vsub (f : Wide)
  | vmul (f : Wide)
  | vfma (f : Wide)
  | vfms (f : Wide)
  | vmin (f : Wide)
  | vmax (f : Wide)
  | vabs (f : Wide)
  | vneg (f : Wide)
  | vaddsat (f : Wide)
  | vsubsat (f : Wide)
  | vceq (f : Wide)
  | vcne (f : Wide)
  | vclt (f : Wide)
  | vcle (f : Wide)
  | vcgt (f : Wide)
  | vcge (f : Wide)
  | pand (f : Wide)
  | por (f : Wide)
  | pxor (f : Wide)
  | pnot (f : Wide)
  | pset (f : Wide)
  | vand (f : Wide)
  | vor (f : Wide)
  | vxor (f : Wide)
  | vandn (f : Wide)
  | vnot (f : Wide)
  | vshl (f : Wide)
  | vshr (f : Wide)
  | vsra (f : Wide)
  | vshli (f : Wide)
  | vshri (f : Wide)
  | vsrai (f : Wide)
  | vrsumr (f : Wide)
  | vrsumc (f : Wide)
  | vrmaxr (f : Wide)
  | vrmaxc (f : Wide)
  | vrminr (f : Wide)
  | vrminc (f : Wide)
  | vbcast (f : Wide)
  | vtrans (f : Wide)
  | vperm (f : Wide)
  | vshuf (f : Wide)
  | vcomp (f : Wide)
  | vexpd (f : Wide)
  | vsel (f : Wide)
  | vmov (f : Wide)
  | vmovi (f : Wide)
  | vld (f : Wide)
  | vst (f : Wide)
  | vldac (f : Wide)
  | pst (f : Wide)
  | pld (f : Wide)
  | shp (f : Wide)
  | shpr (f : Wide)
  | mwld (f : Wide)
  | mwldq (f : Wide)
  | mclr (f : Wide)
  | mswap (f : Wide)
  | mcks (f : Wide)
  | mmac (f : Wide)
  | cvt (f : Wide)
  | cvtsr (f : Wide)
  | rng (f : Wide)
  | tint (f : Wide)
  | tload (f : Wide)
  -- Cue bytecode (R239).
  | cuePfx (i : BitVec 11)
  | cueMov (d a : CReg)
  | cueLi (d : CReg) (i : BitVec 5)
  | cueAdd (d a b : CReg)
  | cueAddi (d a : CReg) (i : BitVec 5)
  | cueSub (d a b : CReg)
  | cueAnd (d a b : CReg)
  | cueOr (d a b : CReg)
  | cueXor (d a b : CReg)
  | cueShl (d a : CReg) (n : BitVec 5)
  | cueShr (d a : CReg) (n : BitVec 5)
  | cueMin (d a b : CReg)
  | cueMax (d a b : CReg)
  | cueSlt (d a b : CReg)
  | cueSeq (d a b : CReg)
  | cueMul (d a b : CReg)
  | cueBeq (d a : CReg) (i : BitVec 5)
  | cueBne (d a : CReg) (i : BitVec 5)
  | cueBlt (d a : CReg) (i : BitVec 5)
  | cueBge (d a : CReg) (i : BitVec 5)
  | cueJmp (i : BitVec 5)
  | cueEach (d : CReg) (s : Bool) (i : BitVec 5)
  | cueNext (d : CReg)
  | cueVget (d a : CReg) (f : BitVec 5)
  | cueCget (d a : CReg) (f : BitVec 5)
  | cueVglob (d : CReg) (f : BitVec 5)
  | cuePick (a : CReg)
  | cuePlace (a : CReg)
  | cueDeny (n : BitVec 5)
  -- Steps without an encoding that the module takes by itself (spec/95).
  | vectorCommand (tid : Nat) (e : CheckErr)
  | matrixCommand (tid : Nat) (e : CheckErr)
  | loadReturn (tid : Nat)
  | storePairing (tid : Nat)
  | tileTransferCompletion (tid : Nat)
  | wingsDrain (tid : Nat)
  | queueProtocolError (tid : Nat)
  | uliDelivery (tid : Nat)
  | trapEntry (tid : Nat)
  | semaphoreNotice (pa : Nat)
  | semaphorePoll (tid : Nat)
  | pageWalk (tid : Nat)
  | pageFaultResolve (tid : Nat)
  | threadEnd (tid : Nat)
  | teamEnd (team : Nat)
  | taskEnd (task : Nat)
  | agreementPoint (tid : Nat)
  | vote (team : Nat)
  | dispatch (part : Nat)
  | preempt (part : Nat)
  | fault (part : Nat)
  | rebalance (part : Nat)
  | stop (team : Nat)
  | stopComplete (team : Nat)
  | teamResume (team : Nat)
  | moveMessage (team : Nat)
  | stagehandSegment (rec : Nat)
  | recordCompletion (rec : Nat)
  | collectiveRecordStart (rec : Nat)
  | illegalInstruction (w0 w1 : Word32)
  -- Steps without an encoding that the outside world, a timer or a physical event brings (spec/95).
  | agreementTimeout (tid : Nat)
  | rebalPeriod (part : Nat)
  | starveTimeout (part : Nat)
  | collectiveFrame (x : Clovo × CollFrame)
  | holdFrame (m : Clovo) (epoch : Word)
  | holdTimer (rec : Nat)
  | collectiveTimeout (rec : Nat)
  | collectiveAbort (x : Clovo × CollAbort)
  | scrub (pa : Nat)
  | eccError (w : EccWhere)
  | clovoData (m : Clovo)
  | clovoAck (m : Clovo)
  | clovoNakOrder (m : Clovo)
  | clovoNakFull (m : Clovo)
  | retryExpiry (conn : Nat)
  | clovoOpen (m : Clovo)
  | clovoOpenack (m : Clovo)
  | clovoClose (m : Clovo)
  | ackTimer (conn : Nat)
  | retransmitTimeout (conn : Nat)
  | connectionLost (conn : Nat)
  | arpRequest (port : Nat) (ip : BitVec 32)
  | neighbourSolicitation (port : Nat) (ip : BitVec 128)
  | unsupportedFrame (f : WireFrame)
  | launch (rec : Nat)
  | troupe (rec : Nat)
  | troupeTwaitExpiry (rec : Nat)
  | wait (rec : Nat)
  | signal (rec : Nat)
  | hostCopy (rec : Nat)
  | cueLoad (rec : Nat)
  | cueSwap (rec : Nat)
  | partCreate (rec : Nat)
  | partDestroy (rec : Nat)
  | rangeAcquire (rec : Nat)
  | rangeRelease (rec : Nat)
  | ckptOpen (rec : Nat)
  | domain (rec : Nat)
  | restore (rec : Nat)
  | partner (rec : Nat)
  | jread (rec : Nat)
  | ckptCommit (rec : Nat)
  | commitEnd (part : Nat) (ok : Bool)
  | stallEnd (part : Nat)
  | replicaSegments (x : Clovo × Replica)
  | partnerAck (m : Clovo) (x : PartnerReply)
  | partFreeze (rec : Nat)
  | partResume (rec : Nat)
  | imageOut (rec : Nat)
  | imageIn (rec : Nat)
  | connSet (rec : Nat)
  | circuitLit (dieA dieB : Nat)
  | readCuestat (rec : Nat)
  | readSchedstat (rec : Nat)
  | dswap (rec : Nat)
  | readAttestation (rec : Nat)
  | qset (rec : Nat)
  | pstate (rec : Nat)
  | cfgwrite (rec : Nat)
  | restartModule (rec : Nat)
  | handler (rec : Nat)
  | attach (rec : Nat)
  | detach (rec : Nat)
  | debugHalt (rec : Nat)
  | debugResume (rec : Nat)
  | debugStep (rec : Nat)
  | stepTimeout (rec : Nat)
  | debugRead (rec : Nat)
  | debugWrite (rec : Nat)
  | trapimg (rec : Nat)
  | wakeWrite (core : Nat)
  | firmwareMailboxMessage (src dst : Nat) (msg : List Byte)
  | greenRoom (core : Nat)
  | coldStart (ok : Bool) (failed : List Nat)
  | warmStart (ok : Bool) (failed : List Nat)
  | dieReset (die : Nat)
  | thermalHot (die : Nat)
  | thermalTrip (die : Nat)
  | inFieldTestDone (core : Nat) (pass : Bool)
  | partnerFetch (m : Clovo) (part : Nat) (seq : Word)
  -- Rows without operands: instructions, the end of a cue decision, and events of the module as a whole.
  | mark
  | uret
  | eret
  | crc
  | sigchk
  | halt
  | yield
  | wfi
  | ps1Entry
  | powerOn
  | powerRemoved
  | thermalClear
  | thermalCooled
  | inFieldTest
  | scoreHalving
  | cueStop
  deriving DecidableEq, Repr

end Sys2Proof
end

