-- ==== Sys2Proof/WellFormed.lean ====
section
/-!
DEFINITION. Which instructions are legal in a stream as far as their own words decide it (R48, R50, R53, R56-R60, R62,
R124, R129, R141, R151, R168, R180, R207, R240). The tests of R62 that need the thread's state (its allocation, its active
loops, its level) are made when the instruction issues.
-/

namespace Sys2Proof

/-- Why an encoding is illegal. -/
inductive Illegal where
  /-- The major is 0x00 or reserved, or the function code is not assigned. -/
  | unassigned
  /-- A field that must be zero is not zero. -/
  | mustBeZero
  /-- A specifier of a two-word instruction is outside its kind. -/
  | specifier
  /-- A register field above 15 in the access stream. -/
  | register
  /-- LEN = 0, or REG of a loop outside its range. -/
  | loopField
  /-- A sub-operation (engine number, PITCH, MODE, shuffle OP, cue field) that is not assigned. -/
  | subOperation
  /-- An unassigned system register, or one that the stream cannot name. -/
  | systemRegister
  /-- The instruction does not issue in this stream. -/
  | wrongStream
  deriving DecidableEq, Repr

/-- Register fields name H0-H15 in the access stream (R48). -/
def registersOk (st : Stream) (rs : List Reg) : Bool := st == .execute || rs.all (fun r => r.toNat < 16)

/-- An instruction that issues in both streams. -/
def both (st : Stream) (rs : List Reg) : Option Illegal := if registersOk st rs then none else some .register

/-- An instruction that issues in one stream. -/
def only (want st : Stream) (rs : List Reg) : Option Illegal :=
  if st == want then both st rs else some .wrongStream

/-- The specifier kinds of R50; vdst is a V-spec that is a destination, which never names Z0-Z3. -/
inductive Spec where
  | v
  | vdst
  | p
  | a
  | g
  | unused
  deriving DecidableEq, Repr

/-- The valid values of each kind (R50). -/
def Spec.ok (k : Spec) (x : BitVec 7) : Bool :=
  match k with
  | .v => x.toNat < 116
  | .vdst => x.toNat < 112
  | .p => x.toNat < 16
  | .a => x.toNat < 6
  | .g => x.toNat < 32
  | .unused => x == 0

/-- Element width in bytes that TYPE names (R51). -/
def typeWidth (ty : BitVec 3) : Nat :=
  match ty with
  | 0#3 | 7#3 => 4
  | 1#3 | 2#3 | 6#3 => 2
  | _ => 1

/-- U, MOD [14] (R49). -/
def Wide.u (f : Wide) : Bool := f.imm.getLsbD 14

/-- MOD [13:0]. -/
def Wide.mod (f : Wide) : BitVec 14 := f.imm.extractLsb' 0 14

/-- What IMM15 or MOD may hold (R53, R129, R133, R136, R138, R141, R151, R168). -/
def anyImm (_ : Wide) : Option Illegal := none
def mod0Imm (f : Wide) : Option Illegal := if f.mod == 0 then none else some .mustBeZero
def mod1Imm (f : Wide) : Option Illegal := if f.mod.toNat < 2 then none else some .mustBeZero
def psetImm (f : Wide) : Option Illegal := if f.imm.toNat / 8192 < 3 then none else some .subOperation
def shiftImm (f : Wide) : Option Illegal := if f.imm.toNat < 32 then none else some .mustBeZero
def bcastImm (f : Wide) : Option Illegal := if f.mod.toNat % 4096 == 0 then none else some .mustBeZero
def shufImm (f : Wide) : Option Illegal :=
  if 4 < f.mod.toNat / 2048 then some .subOperation else if f.mod.getLsbD 10 then some .mustBeZero else none
def pitchImm (f : Wide) : Option Illegal := if f.mod.toNat % typeWidth f.ty == 0 then none else some .subOperation
def cvtImm (f : Wide) : Option Illegal := if f.mod.toNat % 512 == 0 then none else some .mustBeZero
def cvtsrImm (f : Wide) : Option Illegal :=
  if f.mod.toNat % 512 == 0 && f.mod.toNat / 1024 == 0 then none else some .mustBeZero

/-- VA of vbcast is a G-spec when SRC = 11 (R129). -/
def bcastSrc (f : Wide) : Spec := if f.mod.toNat / 4096 == 3 then .g else .v

/-- VB of vshuf is unused when OP = 4 (R129). -/
def shufSrc (f : Wide) : Spec := if f.mod.toNat / 2048 == 4 then .unused else .v

/-- The tests of R62 on a two-word instruction: stream, specifiers, PRED and ZM where they must be zero, IMM15 or MOD. -/
def wide (st : Stream) (f : Wide) (vd va vb vc : Spec) (predZero zmZero : Bool) (imm : Option Illegal) :
    Option Illegal :=
  if st != .execute then some .wrongStream
  else if !(vd.ok f.vd && va.ok f.va && vb.ok f.vb && vc.ok f.vc) then some .specifier
  else if (predZero && f.pred != 0) || (zmZero && f.zm) then some .mustBeZero
  else imm

/-- A and the engine number of push (R59). -/
def pushFields (a : Reg) (e : BitVec 6) : Bool :=
  (a == 8 || a == 16 || a == 24) && (e.toNat ≤ 32 || e.toNat == 40)

/-- The assigned system registers and the streams that may name them (R209). -/
def sysregOk (st : Stream) (n : BitVec 12) : Bool :=
  let k := n.toNat
  (k ≤ 0x009) || (0x020 ≤ k && k ≤ 0x022) || (0x030 ≤ k && k ≤ 0x033) || (0x040 ≤ k && k ≤ 0x044)
    || (0x100 ≤ k && k ≤ 0x11F) || (st == .execute && ((0x010 ≤ k && k ≤ 0x012) || k == 0x050 || k == 0x051))

/-- Registers whose sysrd is a row of its own: TCAUSE, TADDR, SIGV, SIGS. -/
def sysrdOwnRow (n : BitVec 12) : Bool := n == 0x000 || n == 0x001 || n == 0x050 || n == 0x051

/-- Registers whose syswr is a row of its own: HBASE, HLIMIT, HOFF. -/
def syswrOwnRow (n : BitVec 12) : Bool := n == 0x020 || n == 0x021 || n == 0x022

/-- An assigned field code of vget, cget or vglob (R240, R246, R247). -/
def cueField (f : BitVec 5) (last : Nat) : Option Illegal := if f.toNat ≤ last then none else some .subOperation

/-- The tests of R62 and R240 that the words alone decide. -/
def check (st : Stream) : Instr → Option Illegal
  | .add d a b => both st [d, a, b]
  | .sub d a b => both st [d, a, b]
  | .and d a b => both st [d, a, b]
  | .or d a b => both st [d, a, b]
  | .xor d a b => both st [d, a, b]
  | .andn d a b => both st [d, a, b]
  | .shl d a b => both st [d, a, b]
  | .shr d a b => both st [d, a, b]
  | .sra d a b => both st [d, a, b]
  | .min d a b => both st [d, a, b]
  | .max d a b => both st [d, a, b]
  | .minu d a b => both st [d, a, b]
  | .maxu d a b => both st [d, a, b]
  | .clz d a => both st [d, a]
  | .ctz d a => both st [d, a]
  | .popc d a => both st [d, a]
  | .mov d a => both st [d, a]
  | .mul d a b => both st [d, a, b]
  | .mulh d a b => both st [d, a, b]
  | .mulhu d a b => both st [d, a, b]
  | .mulhsu d a b => both st [d, a, b]
  | .div d a b => both st [d, a, b]
  | .divu d a b => both st [d, a, b]
  | .rem d a b => both st [d, a, b]
  | .remu d a b => both st [d, a, b]
  | .seq d a b => both st [d, a, b]
  | .sne d a b => both st [d, a, b]
  | .slt d a b => both st [d, a, b]
  | .sltu d a b => both st [d, a, b]
  | .sle d a b => both st [d, a, b]
  | .sleu d a b => both st [d, a, b]
  | .addi d a _ => both st [d, a]
  | .andi d a _ => both st [d, a]
  | .ori d a _ => both st [d, a]
  | .xori d a _ => both st [d, a]
  | .shli d a _ => both st [d, a]
  | .shri d a _ => both st [d, a]
  | .srai d a _ => both st [d, a]
  | .slti d a _ => both st [d, a]
  | .sltiu d a _ => both st [d, a]
  | .seqi d a _ => both st [d, a]
  | .movi d _ => both st [d]
  | .movk d _ _ => both st [d]
  | .beq a b _ => both st [a, b]
  | .bne a b _ => both st [a, b]
  | .blt a b _ => both st [a, b]
  | .bge a b _ => both st [a, b]
  | .bqt _ => only .execute st []
  | .bqf _ => only .execute st []
  | .jalr d a => both st [d, a]
  | .mbrd d _ => both st [d]
  | .mbput _ a b => only .execute st [a, b]
  | .rotrd d => only .execute st [d]
  | .rotwr a => only .execute st [a]
  | .jal d _ => both st [d]
  | .loop _ s r n => if n == 0 then some .loopField else if s then (if r.toNat < 8 then none else some .loopField) else both st [r]
  | .ldb d b _ => only .access st [d, b]
  | .ldbu d b _ => only .access st [d, b]
  | .ldh d b _ => only .access st [d, b]
  | .ldhu d b _ => only .access st [d, b]
  | .ldw d b _ => only .access st [d, b]
  | .ldwu d b _ => only .access st [d, b]
  | .ldd d b _ => only .access st [d, b]
  | .lqb _ b _ => only .access st [b]
  | .lqbu _ b _ => only .access st [b]
  | .lqh _ b _ => only .access st [b]
  | .lqhu _ b _ => only .access st [b]
  | .lqw _ b _ => only .access st [b]
  | .lqwu _ b _ => only .access st [b]
  | .lqd _ b _ => only .access st [b]
  | .sab b _ => only .access st [b]
  | .sah b _ => only .access st [b]
  | .saw b _ => only .access st [b]
  | .sad b _ => only .access st [b]
  | .mark => both st []
  | .qpop d _ => only .execute st [d]
  | .sdq a => only .execute st [a]
  | .xqput a => only .execute st [a]
  | .xqget d => only .access st [d]
  | .bqput a => only .access st [a]
  | .tld d a b => only .access st [d, a, b]
  | .tst d a b => only .access st [d, a, b]
  | .gth d a b => only .access st [d, a, b]
  | .sct d a b => only .access st [d, a, b]
  | .spld d _ => both st [d]
  | .spst d _ => both st [d]
  | .amadd d a b _ _ => only .access st [d, a, b]
  | .ammin d a b _ _ => only .access st [d, a, b]
  | .ammax d a b _ _ => only .access st [d, a, b]
  | .amand d a b _ _ => only .access st [d, a, b]
  | .amor d a b _ _ => only .access st [d, a, b]
  | .amxor d a b _ _ => only .access st [d, a, b]
  | .amswp d a b _ _ => only .access st [d, a, b]
  | .amcas d a b _ _ => only .access st [d, a, b]
  | .rel _ => both st []
  | .acq _ => both st []
  | .fence _ => both st []
  | .push d a e => if pushFields a e then only .execute st [d, a] else some .subOperation
  | .swait d a b => only .execute st [d, a, b]
  | .ssig d a b => only .execute st [d, a, b]
  | .srd d a => only .execute st [d, a]
  | .ecreate d => only .execute st [d]
  | .ejoin d a => only .execute st [d, a]
  | .eleave d a => only .execute st [d, a]
  | .equery d a b => only .execute st [d, a, b]
  | .ebar d a => only .execute st [d, a]
  | .uret => only .execute st []
  | .uimask d a => only .execute st [d, a]
  | .sysrd d n => if sysregOk st n && !sysrdOwnRow n then both st [d] else some .systemRegister
  | .sysrdSigv d => only .execute st [d]
  | .sysrdSigs d => only .execute st [d]
  | .sysrdTrapInfo d _ => both st [d]
  | .syswr a n => if sysregOk st n && !syswrOwnRow n then both st [a] else some .systemRegister
  | .syswrHeapWindow a n => if n == 3 then some .systemRegister else both st [a]
  | .trap _ => both st []
  | .eret => both st []
  | .cro _ => only .execute st []
  | .crc => only .execute st []
  | .sigchk => only .execute st []
  | .locq d a n => if !n && a != 0 then some .mustBeZero else both st [d, a]
  | .brk _ => both st []
  | .halt => both st []
  | .yield => only .execute st []
  | .wfi => only .execute st []
  | .rpopen d => only .execute st [d]
  | .rpcommit d a => only .execute st [d, a]
  | .rpwait d a _ => only .execute st [d, a]
  | .vadd f => wide st f .vdst .v .v .unused false false (mod0Imm f)
  | .vsub f => wide st f .vdst .v .v .unused false false (mod0Imm f)
  | .vmul f => wide st f .vdst .v .v .unused false false (mod0Imm f)
  | .vfma f => wide st f .vdst .v .v .v false false (mod0Imm f)
  | .vfms f => wide st f .vdst .v .v .v false false (mod0Imm f)
  | .vmin f => wide st f .vdst .v .v .unused false false (mod0Imm f)
  | .vmax f => wide st f .vdst .v .v .unused false false (mod0Imm f)
  | .vabs f => wide st f .vdst .v .unused .unused false false (mod0Imm f)
  | .vneg f => wide st f .vdst .v .unused .unused false false (mod0Imm f)
  | .vaddsat f => wide st f .vdst .v .v .unused false false (mod0Imm f)
  | .vsubsat f => wide st f .vdst .v .v .unused false false (mod0Imm f)
  | .vceq f => wide st f .p .v .v .unused false false (mod0Imm f)
  | .vcne f => wide st f .p .v .v .unused false false (mod0Imm f)
  | .vclt f => wide st f .p .v .v .unused false false (mod0Imm f)
  | .vcle f => wide st f .p .v .v .unused false false (mod0Imm f)
  | .vcgt f => wide st f .p .v .v .unused false false (mod0Imm f)
  | .vcge f => wide st f .p .v .v .unused false false (mod0Imm f)
  | .pand f => wide st f .p .p .p .unused false false (mod0Imm f)
  | .por f => wide st f .p .p .p .unused false false (mod0Imm f)
  | .pxor f => wide st f .p .p .p .unused false false (mod0Imm f)
  | .pnot f => wide st f .p .p .unused .unused false false (mod0Imm f)
  | .pset f => wide st f .p .g .unused .unused true true (psetImm f)
  | .vand f => wide st f .vdst .v .v .unused false false (mod0Imm f)
  | .vor f => wide st f .vdst .v .v .unused false false (mod0Imm f)
  | .vxor f => wide st f .vdst .v .v .unused false false (mod0Imm f)
  | .vandn f => wide st f .vdst .v .v .unused false false (mod0Imm f)
  | .vnot f => wide st f .vdst .v .unused .unused false false (mod0Imm f)
  | .vshl f => wide st f .vdst .v .v .unused false false (mod0Imm f)
  | .vshr f => wide st f .vdst .v .v .unused false false (mod0Imm f)
  | .vsra f => wide st f .vdst .v .v .unused false false (mod0Imm f)
  | .vshli f => wide st f .vdst .v .unused .unused false false (shiftImm f)
  | .vshri f => wide st f .vdst .v .unused .unused false false (shiftImm f)
  | .vsrai f => wide st f .vdst .v .unused .unused false false (shiftImm f)
  | .vrsumr f => wide st f .vdst .v .unused .unused false true (mod0Imm f)
  | .vrsumc f => wide st f .vdst .v .unused .unused false true (mod0Imm f)
  | .vrmaxr f => wide st f .vdst .v .unused .unused false true (mod0Imm f)
  | .vrmaxc f => wide st f .vdst .v .unused .unused false true (mod0Imm f)
  | .vrminr f => wide st f .vdst .v .unused .unused false true (mod0Imm f)
  | .vrminc f => wide st f .vdst .v .unused .unused false true (mod0Imm f)
  | .vbcast f => wide st f .vdst (bcastSrc f) .unused .unused false false (bcastImm f)
  | .vtrans f => wide st f .vdst .v .unused .unused false false (mod0Imm f)
  | .vperm f => wide st f .vdst .v .v .unused false false (mod0Imm f)
  | .vshuf f => wide st f .vdst .v (shufSrc f) .unused false false (shufImm f)
  | .vcomp f => wide st f .vdst .v .unused .g false true (mod0Imm f)
  | .vexpd f => wide st f .vdst .v .unused .unused false false (mod0Imm f)
  | .vsel f => wide st f .vdst .v .v .unused false true (mod0Imm f)
  | .vmov f => wide st f .vdst .v .unused .unused false false (mod0Imm f)
  | .vmovi f => wide st f .vdst .unused .unused .unused false false (anyImm f)
  | .vld f => wide st f .vdst .g .unused .unused false false (pitchImm f)
  | .vst f => wide st f .unused .g .v .unused false true (pitchImm f)
  | .vldac f => wide st f .vdst .a .unused .unused false false (anyImm f)
  | .pst f => wide st f .unused .g .p .unused true true (mod0Imm f)
  | .pld f => wide st f .p .g .unused .unused true true (mod0Imm f)
  | .shp f => wide st f .unused .unused .unused .unused true true (anyImm f)
  | .shpr f => wide st f .g .g .unused .unused true true (mod0Imm f)
  | .mwld f => wide st f .unused .g .unused .unused true true (mod0Imm f)
  | .mwldq f => wide st f .unused .g .unused .unused true true (mod0Imm f)
  | .mclr f => wide st f .a .unused .unused .unused true true (mod0Imm f)
  | .mswap f => wide st f .a .unused .unused .unused true true (mod0Imm f)
  | .mcks f => wide st f .g .unused .unused .unused true true (mod1Imm f)
  | .mmac f => wide st f .a .g .g .unused true true (mod0Imm f)
  | .cvt f => wide st f .vdst .v .unused .unused false false (cvtImm f)
  | .cvtsr f => wide st f .vdst .v .v .unused false false (cvtsrImm f)
  | .rng f => wide st f .vdst .g .g .unused false false (mod0Imm f)
  | .tint f => wide st f .vdst .v .unused .unused false false (mod0Imm f)
  | .tload f => wide st f .unused .g .unused .unused true true (mod0Imm f)
  | .vectorCommand _ _ => none
  | .matrixCommand _ _ => none
  | .loadReturn _ => none
  | .storePairing _ => none
  | .wingsDrain _ => none
  | .queueProtocolError _ => none
  | .uliDelivery _ => none
  | .trapEntry _ => none
  | .semaphoreNotice _ => none
  | .semaphorePoll _ => none
  | .pageWalk _ => none
  | .pageFaultResolve _ => none
  | .threadEnd _ => none
  | .teamEnd _ => none
  | .taskEnd _ => none
  | .agreementPoint _ => none
  | .agreementTimeout _ => none
  | .vote _ => none
  | .dispatch _ => none
  | .preempt _ => none
  | .fault _ => none
  | .rebalance _ => none
  | .rebalPeriod _ => none
  | .starveTimeout _ => none
  | .stop _ => none
  | .stopComplete _ => none
  | .teamResume _ => none
  | .moveMessage _ => none
  | .stagehandSegment _ => none
  | .recordCompletion _ => none
  | .collectiveRecordStart _ => none
  | .collectiveFrame _ => none
  | .holdFrame _ _ => none
  | .holdTimer _ => none
  | .collectiveTimeout _ => none
  | .collectiveAbort _ => none
  | .scrub _ => none
  | .eccError _ => none
  | .clovoData _ => none
  | .clovoAck _ => none
  | .clovoNakOrder _ => none
  | .clovoNakFull _ => none
  | .retryExpiry _ => none
  | .clovoOpen _ => none
  | .clovoOpenack _ => none
  | .clovoClose _ => none
  | .ackTimer _ => none
  | .retransmitTimeout _ => none
  | .connectionLost _ => none
  | .arpRequest _ _ => none
  | .neighbourSolicitation _ _ => none
  | .unsupportedFrame _ => none
  | .launch _ => none
  | .troupe _ => none
  | .troupeTwaitExpiry _ => none
  | .wait _ => none
  | .signal _ => none
  | .hostCopy _ => none
  | .cueLoad _ => none
  | .cueSwap _ => none
  | .partCreate _ => none
  | .partDestroy _ => none
  | .rangeAcquire _ => none
  | .rangeRelease _ => none
  | .ckptOpen _ => none
  | .domain _ => none
  | .restore _ => none
  | .partner _ => none
  | .jread _ => none
  | .ckptCommit _ => none
  | .commitEnd _ _ => none
  | .stallEnd _ => none
  | .replicaSegments _ => none
  | .partnerAck _ _ => none
  | .partFreeze _ => none
  | .partResume _ => none
  | .imageOut _ => none
  | .imageIn _ => none
  | .connSet _ => none
  | .circuitLit _ _ => none
  | .readCuestat _ => none
  | .readSchedstat _ => none
  | .dswap _ => none
  | .readAttestation _ => none
  | .qset _ => none
  | .pstate _ => none
  | .cfgwrite _ => none
  | .restartModule _ => none
  | .handler _ => none
  | .attach _ => none
  | .detach _ => none
  | .debugHalt _ => none
  | .debugResume _ => none
  | .debugStep _ => none
  | .stepTimeout _ => none
  | .debugRead _ => none
  | .debugWrite _ => none
  | .trapimg _ => none
  | .wakeWrite _ => none
  | .firmwareMailboxMessage _ _ _ => none
  | .greenRoom _ => none
  | .ps1Entry => none
  | .powerOn => none
  | .powerRemoved => none
  | .coldStart _ _ => none
  | .warmStart _ _ => none
  | .dieReset _ => none
  | .thermalHot _ => none
  | .thermalClear => none
  | .thermalTrip _ => none
  | .thermalCooled => none
  | .inFieldTest => none
  | .inFieldTestDone _ _ => none
  | .scoreHalving => none
  | .cuePfx _ => none
  | .cueMov _ _ => none
  | .cueLi _ _ => none
  | .cueAdd _ _ _ => none
  | .cueAddi _ _ _ => none
  | .cueSub _ _ _ => none
  | .cueAnd _ _ _ => none
  | .cueOr _ _ _ => none
  | .cueXor _ _ _ => none
  | .cueShl _ _ _ => none
  | .cueShr _ _ _ => none
  | .cueMin _ _ _ => none
  | .cueMax _ _ _ => none
  | .cueSlt _ _ _ => none
  | .cueSeq _ _ _ => none
  | .cueMul _ _ _ => none
  | .cueBeq _ _ _ => none
  | .cueBne _ _ _ => none
  | .cueBlt _ _ _ => none
  | .cueBge _ _ _ => none
  | .cueJmp _ => none
  | .cueEach _ _ _ => none
  | .cueNext _ => none
  | .cueVget _ _ f => cueField f 11
  | .cueCget _ _ f => cueField f 8
  | .cueVglob _ f => cueField f 7
  | .cuePick _ => none
  | .cuePlace _ => none
  | .cueDeny _ => none
  | .cueStop => none
  | .illegalInstruction _ _ => none
  | .tileTransferCompletion _ => none
  | .partnerFetch _ _ _ => none

/-- The instruction is legal in the stream, as far as its words decide it. -/
def wellFormed (st : Stream) (i : Instr) : Bool := (check st i).isNone

end Sys2Proof
end

