-- ==== Sys2Proof/Decode.lean ====
section
/-!
DEFINITION. Decoding: from the words of an instruction to Instr, rejecting every other encoding by name (R45-R62, R207,
R239, R240), and the encoder, written from the same tables.
-/

namespace Sys2Proof

/-- The words of an instruction (R45, R47, R49, R239): one word, two words, a cue halfword, or none for the rows that
have no encoding. -/
inductive Words where
  | one (w : Word32)
  | two (w0 w1 : Word32)
  | half (h : BitVec 16)
  | none
  deriving DecidableEq, Repr

/-! ### Formats (R47, R49) -/

/-- Format RR. -/
def rr (maj : BitVec 6) (d a b : BitVec 5) (fn : BitVec 11) : Word32 := maj ++ d ++ a ++ b ++ fn
/-- Formats RI and BR. -/
def ri (maj : BitVec 6) (d a : BitVec 5) (imm : BitVec 16) : Word32 := maj ++ d ++ a ++ imm
/-- Format JL. -/
def jl (maj : BitVec 6) (d : BitVec 5) (o : BitVec 21) : Word32 := maj ++ d ++ o
/-- Format LP. -/
def lp (maj : BitVec 6) (l : BitVec 2) (s : Bool) (r : BitVec 5) (n : BitVec 10) : Word32 :=
  maj ++ l ++ BitVec.ofBool s ++ r ++ n ++ 0#8
/-- Format AM. -/
def am (maj : BitVec 6) (d b : BitVec 5) (kind : BitVec 4) (o : BitVec 12) : Word32 := maj ++ d ++ b ++ kind ++ o
/-- Format SY. -/
def sy (d a : BitVec 5) (op : BitVec 4) (n : BitVec 12) : Word32 := 0x2F#6 ++ d ++ a ++ op ++ n
/-- Word 0 of the 64-bit format. -/
def wide0 (maj : BitVec 6) (fn : BitVec 5) (f : Wide) : Word32 := maj ++ f.vd ++ f.va ++ f.vb ++ fn
/-- Word 1 of the 64-bit format. -/
def wide1 (f : Wide) : Word32 := f.pred ++ f.ty ++ f.rnd ++ BitVec.ofBool f.zm ++ f.vc ++ f.imm
def wideWords (maj : BitVec 6) (fn : BitVec 5) (f : Wide) : Words := .two (wide0 maj fn f) (wide1 f)

/-- SCOPE codes of R58. -/
def scopeCode : Scope → BitVec 3
  | .thr => 0 | .ens => 1 | .dev => 2 | .sys => 3 | .rcv => 4

/-! ### Fields -/

def fMaj (w : Word32) : BitVec 6 := w.extractLsb' 26 6
def fD (w : Word32) : BitVec 5 := w.extractLsb' 21 5
def fA (w : Word32) : BitVec 5 := w.extractLsb' 16 5
def fB (w : Word32) : BitVec 5 := w.extractLsb' 11 5
def fFn (w : Word32) : BitVec 11 := w.extractLsb' 0 11
def fImm (w : Word32) : BitVec 16 := w.extractLsb' 0 16
def fKind (w : Word32) : BitVec 4 := w.extractLsb' 12 4
def fOff (w : Word32) : BitVec 12 := w.extractLsb' 0 12
def fFn5 (w : Word32) : BitVec 5 := w.extractLsb' 0 5
/-- SCOPE in FN [10:8]; codes 101-111 are illegal (R58). -/
def fScope (w : Word32) : Option Scope :=
  match w.extractLsb' 8 3 with
  | 0#3 => some .thr
  | 1#3 => some .ens
  | 2#3 => some .dev
  | 3#3 => some .sys
  | 4#3 => some .rcv
  | _ => none

/-- The fields of the 64-bit format (R49). -/
def wideOf (w w1 : Word32) : Wide :=
  { vd := w.extractLsb' 19 7, va := w.extractLsb' 12 7, vb := w.extractLsb' 5 7, pred := w1.extractLsb' 28 4
    ty := w1.extractLsb' 25 3, rnd := w1.extractLsb' 23 2, zm := w1.getLsbD 22, vc := w1.extractLsb' 15 7
    imm := w1.extractLsb' 0 15 }

/-- The words of an instruction, from the encoding tables of R57 to R60, R207 and R239. -/
def encode : Instr → Words
  | .add d a b => .one (rr 0x1#6 d a b 0x0#11)
  | .sub d a b => .one (rr 0x1#6 d a b 0x1#11)
  | .and d a b => .one (rr 0x1#6 d a b 0x2#11)
  | .or d a b => .one (rr 0x1#6 d a b 0x3#11)
  | .xor d a b => .one (rr 0x1#6 d a b 0x4#11)
  | .andn d a b => .one (rr 0x1#6 d a b 0x5#11)
  | .shl d a b => .one (rr 0x1#6 d a b 0x6#11)
  | .shr d a b => .one (rr 0x1#6 d a b 0x7#11)
  | .sra d a b => .one (rr 0x1#6 d a b 0x8#11)
  | .min d a b => .one (rr 0x1#6 d a b 0x9#11)
  | .max d a b => .one (rr 0x1#6 d a b 0xA#11)
  | .minu d a b => .one (rr 0x1#6 d a b 0xB#11)
  | .maxu d a b => .one (rr 0x1#6 d a b 0xC#11)
  | .clz d a => .one (rr 0x1#6 d a 0#5 0xD#11)
  | .ctz d a => .one (rr 0x1#6 d a 0#5 0xE#11)
  | .popc d a => .one (rr 0x1#6 d a 0#5 0xF#11)
  | .mov d a => .one (rr 0x1#6 d a 0#5 0x10#11)
  | .mul d a b => .one (rr 0x2#6 d a b 0x0#11)
  | .mulh d a b => .one (rr 0x2#6 d a b 0x1#11)
  | .mulhu d a b => .one (rr 0x2#6 d a b 0x2#11)
  | .mulhsu d a b => .one (rr 0x2#6 d a b 0x3#11)
  | .div d a b => .one (rr 0x2#6 d a b 0x4#11)
  | .divu d a b => .one (rr 0x2#6 d a b 0x5#11)
  | .rem d a b => .one (rr 0x2#6 d a b 0x6#11)
  | .remu d a b => .one (rr 0x2#6 d a b 0x7#11)
  | .seq d a b => .one (rr 0x3#6 d a b 0x0#11)
  | .sne d a b => .one (rr 0x3#6 d a b 0x1#11)
  | .slt d a b => .one (rr 0x3#6 d a b 0x2#11)
  | .sltu d a b => .one (rr 0x3#6 d a b 0x3#11)
  | .sle d a b => .one (rr 0x3#6 d a b 0x4#11)
  | .sleu d a b => .one (rr 0x3#6 d a b 0x5#11)
  | .addi d a i => .one (ri 0x4#6 d a i)
  | .andi d a i => .one (ri 0x5#6 d a i)
  | .ori d a i => .one (ri 0x6#6 d a i)
  | .xori d a i => .one (ri 0x7#6 d a i)
  | .shli d a i => .one (ri 0x8#6 d a (0#10 ++ i))
  | .shri d a i => .one (ri 0x9#6 d a (0#10 ++ i))
  | .srai d a i => .one (ri 0xA#6 d a (0#10 ++ i))
  | .slti d a i => .one (ri 0xB#6 d a i)
  | .sltiu d a i => .one (ri 0xC#6 d a i)
  | .seqi d a i => .one (ri 0xD#6 d a i)
  | .movi d i => .one (ri 0x0E#6 d 0#5 i)
  | .movk d h i => .one (ri 0x0F#6 d (0#3 ++ h) i)
  | .beq a b o => .one (ri 0x10#6 a b o)
  | .bne a b o => .one (ri 0x11#6 a b o)
  | .blt a b o => .one (ri 0x12#6 a b o)
  | .bge a b o => .one (ri 0x13#6 a b o)
  | .bqt o => .one (ri 0x14#6 0x0#5 0#5 o)
  | .bqf o => .one (ri 0x14#6 0x1#5 0#5 o)
  | .jalr d a => .one (rr 0x15#6 d a 0#5 0x0#11)
  | .mbrd d k => .one (rr 0x15#6 d (0#2 ++ k) 0#5 0x1#11)
  | .mbput k a b => .one (rr 0x15#6 (0#2 ++ k) a b 0x2#11)
  | .rotrd d => .one (rr 0x15#6 d 0#5 0#5 0x3#11)
  | .rotwr a => .one (rr 0x15#6 0#5 a 0#5 0x4#11)
  | .jal d o => .one (jl 0x16#6 d o)
  | .loop l s r n => .one (lp 0x17#6 l s r n)
  | .ldb d b o => .one (am 0x18#6 d b 0x0#4 o)
  | .ldbu d b o => .one (am 0x18#6 d b 0x1#4 o)
  | .ldh d b o => .one (am 0x18#6 d b 0x2#4 o)
  | .ldhu d b o => .one (am 0x18#6 d b 0x3#4 o)
  | .ldw d b o => .one (am 0x18#6 d b 0x4#4 o)
  | .ldwu d b o => .one (am 0x18#6 d b 0x5#4 o)
  | .ldd d b o => .one (am 0x18#6 d b 0x6#4 o)
  | .lqb q b o => .one (am 0x19#6 (0#3 ++ q) b 0x0#4 o)
  | .lqbu q b o => .one (am 0x19#6 (0#3 ++ q) b 0x1#4 o)
  | .lqh q b o => .one (am 0x19#6 (0#3 ++ q) b 0x2#4 o)
  | .lqhu q b o => .one (am 0x19#6 (0#3 ++ q) b 0x3#4 o)
  | .lqw q b o => .one (am 0x19#6 (0#3 ++ q) b 0x4#4 o)
  | .lqwu q b o => .one (am 0x19#6 (0#3 ++ q) b 0x5#4 o)
  | .lqd q b o => .one (am 0x19#6 (0#3 ++ q) b 0x6#4 o)
  | .sab b o => .one (am 0x1A#6 0#5 b 0x0#4 o)
  | .sah b o => .one (am 0x1A#6 0#5 b 0x1#4 o)
  | .saw b o => .one (am 0x1A#6 0#5 b 0x2#4 o)
  | .sad b o => .one (am 0x1A#6 0#5 b 0x3#4 o)
  | .mark => .one (rr 0x1B#6 0#5 0#5 0#5 0x0#11)
  | .qpop d q => .one (rr 0x1B#6 d (0#3 ++ q) 0#5 0x1#11)
  | .sdq a => .one (rr 0x1B#6 0#5 a 0#5 0x2#11)
  | .xqput a => .one (rr 0x1B#6 0#5 a 0#5 0x3#11)
  | .xqget d => .one (rr 0x1B#6 d 0#5 0#5 0x4#11)
  | .bqput a => .one (rr 0x1B#6 0#5 a 0#5 0x5#11)
  | .tld d a b => .one (rr 0x1C#6 d a b 0x0#11)
  | .tst d a b => .one (rr 0x1C#6 d a b 0x1#11)
  | .gth d a b => .one (rr 0x1C#6 d a b 0x2#11)
  | .sct d a b => .one (rr 0x1C#6 d a b 0x3#11)
  | .spld d o => .one (am 0x1D#6 d 0#5 0x0#4 (0#3 ++ o))
  | .spst d o => .one (am 0x1D#6 d 0#5 0x1#4 (0#3 ++ o))
  | .amadd d a b c z => .one (rr 0x1E#6 d a b (scopeCode c ++ 0#4 ++ BitVec.ofBool z ++ 0x0#3))
  | .ammin d a b c z => .one (rr 0x1E#6 d a b (scopeCode c ++ 0#4 ++ BitVec.ofBool z ++ 0x1#3))
  | .ammax d a b c z => .one (rr 0x1E#6 d a b (scopeCode c ++ 0#4 ++ BitVec.ofBool z ++ 0x2#3))
  | .amand d a b c z => .one (rr 0x1E#6 d a b (scopeCode c ++ 0#4 ++ BitVec.ofBool z ++ 0x3#3))
  | .amor d a b c z => .one (rr 0x1E#6 d a b (scopeCode c ++ 0#4 ++ BitVec.ofBool z ++ 0x4#3))
  | .amxor d a b c z => .one (rr 0x1E#6 d a b (scopeCode c ++ 0#4 ++ BitVec.ofBool z ++ 0x5#3))
  | .amswp d a b c z => .one (rr 0x1E#6 d a b (scopeCode c ++ 0#4 ++ BitVec.ofBool z ++ 0x6#3))
  | .amcas d a b c z => .one (rr 0x1E#6 d a b (scopeCode c ++ 0#4 ++ BitVec.ofBool z ++ 0x7#3))
  | .rel c => .one (rr 0x1F#6 0#5 0#5 0#5 (scopeCode c ++ 0#6 ++ 0x0#2))
  | .acq c => .one (rr 0x1F#6 0#5 0#5 0#5 (scopeCode c ++ 0#6 ++ 0x1#2))
  | .fence c => .one (rr 0x1F#6 0#5 0#5 0#5 (scopeCode c ++ 0#6 ++ 0x2#2))
  | .push d a e => .one (rr 0x20#6 d a 0#5 (0#5 ++ e))
  | .swait d a b => .one (rr 0x21#6 d a b 0x0#11)
  | .ssig d a b => .one (rr 0x21#6 d a b 0x1#11)
  | .srd d a => .one (rr 0x21#6 d a 0#5 0x2#11)
  | .ecreate d => .one (rr 0x22#6 d 0#5 0#5 0x0#11)
  | .ejoin d a => .one (rr 0x22#6 d a 0#5 0x1#11)
  | .eleave d a => .one (rr 0x22#6 d a 0#5 0x2#11)
  | .equery d a b => .one (rr 0x22#6 d a b 0x3#11)
  | .ebar d a => .one (rr 0x22#6 d a 0#5 0x4#11)
  | .uret => .one (rr 0x23#6 0#5 0#5 0#5 0x0#11)
  | .uimask d a => .one (rr 0x23#6 d a 0#5 0x1#11)
  | .sysrd d n => .one (sy d 0#5 0x0#4 n)
  | .sysrdSigv d => .one (sy d 0#5 0x0#4 0x050#12)
  | .sysrdSigs d => .one (sy d 0#5 0x0#4 0x051#12)
  | .sysrdTrapInfo d n => .one (sy d 0#5 0x0#4 (0#11 ++ n))
  | .syswr a n => .one (sy 0#5 a 0x1#4 n)
  | .syswrHeapWindow a n => .one (sy 0#5 a 0x1#4 (0x008#10 ++ n))
  | .trap n => .one (sy 0#5 0#5 0x2#4 n)
  | .eret => .one (sy 0#5 0#5 0x3#4 0#12)
  | .cro o => .one (sy 0#5 0#5 0x4#4 o)
  | .crc => .one (sy 0#5 0#5 0x5#4 0#12)
  | .sigchk => .one (sy 0#5 0#5 0x6#4 0#12)
  | .locq d a n => .one (sy d a 0x7#4 (0#11 ++ BitVec.ofBool n))
  | .brk n => .one (sy 0#5 0#5 0x8#4 n)
  | .halt => .one (sy 0#5 0#5 0x9#4 0#12)
  | .yield => .one (sy 0#5 0#5 0xA#4 0#12)
  | .wfi => .one (sy 0#5 0#5 0xB#4 0#12)
  | .rpopen d => .one (sy d 0#5 0xC#4 0#12)
  | .rpcommit d a => .one (sy d a 0xD#4 0#12)
  | .rpwait d a w => .one (sy d a 0xE#4 (0#11 ++ BitVec.ofBool w))
  | .vadd f => wideWords 0x30#6 0x0#5 f
  | .vsub f => wideWords 0x30#6 0x1#5 f
  | .vmul f => wideWords 0x30#6 0x2#5 f
  | .vfma f => wideWords 0x30#6 0x3#5 f
  | .vfms f => wideWords 0x30#6 0x4#5 f
  | .vmin f => wideWords 0x30#6 0x5#5 f
  | .vmax f => wideWords 0x30#6 0x6#5 f
  | .vabs f => wideWords 0x30#6 0x7#5 f
  | .vneg f => wideWords 0x30#6 0x8#5 f
  | .vaddsat f => wideWords 0x30#6 0x9#5 f
  | .vsubsat f => wideWords 0x30#6 0xA#5 f
  | .vceq f => wideWords 0x31#6 0x0#5 f
  | .vcne f => wideWords 0x31#6 0x1#5 f
  | .vclt f => wideWords 0x31#6 0x2#5 f
  | .vcle f => wideWords 0x31#6 0x3#5 f
  | .vcgt f => wideWords 0x31#6 0x4#5 f
  | .vcge f => wideWords 0x31#6 0x5#5 f
  | .pand f => wideWords 0x31#6 0x6#5 f
  | .por f => wideWords 0x31#6 0x7#5 f
  | .pxor f => wideWords 0x31#6 0x8#5 f
  | .pnot f => wideWords 0x31#6 0x9#5 f
  | .pset f => wideWords 0x31#6 0xA#5 f
  | .vand f => wideWords 0x32#6 0x0#5 f
  | .vor f => wideWords 0x32#6 0x1#5 f
  | .vxor f => wideWords 0x32#6 0x2#5 f
  | .vandn f => wideWords 0x32#6 0x3#5 f
  | .vnot f => wideWords 0x32#6 0x4#5 f
  | .vshl f => wideWords 0x32#6 0x5#5 f
  | .vshr f => wideWords 0x32#6 0x6#5 f
  | .vsra f => wideWords 0x32#6 0x7#5 f
  | .vshli f => wideWords 0x32#6 0x8#5 f
  | .vshri f => wideWords 0x32#6 0x9#5 f
  | .vsrai f => wideWords 0x32#6 0xA#5 f
  | .vrsumr f => wideWords 0x33#6 0x0#5 f
  | .vrsumc f => wideWords 0x33#6 0x1#5 f
  | .vrmaxr f => wideWords 0x33#6 0x2#5 f
  | .vrmaxc f => wideWords 0x33#6 0x3#5 f
  | .vrminr f => wideWords 0x33#6 0x4#5 f
  | .vrminc f => wideWords 0x33#6 0x5#5 f
  | .vbcast f => wideWords 0x34#6 0x0#5 f
  | .vtrans f => wideWords 0x34#6 0x1#5 f
  | .vperm f => wideWords 0x34#6 0x2#5 f
  | .vshuf f => wideWords 0x34#6 0x3#5 f
  | .vcomp f => wideWords 0x34#6 0x4#5 f
  | .vexpd f => wideWords 0x34#6 0x5#5 f
  | .vsel f => wideWords 0x34#6 0x6#5 f
  | .vmov f => wideWords 0x34#6 0x7#5 f
  | .vmovi f => wideWords 0x34#6 0x8#5 f
  | .vld f => wideWords 0x35#6 0x0#5 f
  | .vst f => wideWords 0x35#6 0x1#5 f
  | .vldac f => wideWords 0x35#6 0x2#5 f
  | .pst f => wideWords 0x35#6 0x3#5 f
  | .pld f => wideWords 0x35#6 0x4#5 f
  | .shp f => wideWords 0x37#6 0x0#5 f
  | .shpr f => wideWords 0x37#6 0x1#5 f
  | .mwld f => wideWords 0x38#6 0x0#5 f
  | .mwldq f => wideWords 0x38#6 0x1#5 f
  | .mclr f => wideWords 0x38#6 0x2#5 f
  | .mswap f => wideWords 0x38#6 0x3#5 f
  | .mcks f => wideWords 0x38#6 0x4#5 f
  | .mmac f => wideWords 0x39#6 0x0#5 f
  | .cvt f => wideWords 0x3C#6 0x0#5 f
  | .cvtsr f => wideWords 0x3C#6 0x1#5 f
  | .rng f => wideWords 0x3D#6 0x0#5 f
  | .tint f => wideWords 0x3D#6 0x1#5 f
  | .tload f => wideWords 0x3D#6 0x2#5 f
  | .cuePfx i => .half (0x01#5 ++ i)
  | .cueMov d a => .half (0x02#5 ++ d ++ a ++ 0#5)
  | .cueLi d i => .half (0x03#5 ++ d ++ 0#3 ++ i)
  | .cueAdd d a b => .half (0x04#5 ++ d ++ a ++ 0#2 ++ b)
  | .cueAddi d a i => .half (0x05#5 ++ d ++ a ++ i)
  | .cueSub d a b => .half (0x06#5 ++ d ++ a ++ 0#2 ++ b)
  | .cueAnd d a b => .half (0x07#5 ++ d ++ a ++ 0#2 ++ b)
  | .cueOr d a b => .half (0x08#5 ++ d ++ a ++ 0#2 ++ b)
  | .cueXor d a b => .half (0x09#5 ++ d ++ a ++ 0#2 ++ b)
  | .cueShl d a n => .half (0x0A#5 ++ d ++ a ++ n)
  | .cueShr d a n => .half (0x0B#5 ++ d ++ a ++ n)
  | .cueMin d a b => .half (0x0C#5 ++ d ++ a ++ 0#2 ++ b)
  | .cueMax d a b => .half (0x0D#5 ++ d ++ a ++ 0#2 ++ b)
  | .cueSlt d a b => .half (0x0E#5 ++ d ++ a ++ 0#2 ++ b)
  | .cueSeq d a b => .half (0x0F#5 ++ d ++ a ++ 0#2 ++ b)
  | .cueMul d a b => .half (0x10#5 ++ d ++ a ++ 0#2 ++ b)
  | .cueBeq d a i => .half (0x11#5 ++ d ++ a ++ i)
  | .cueBne d a i => .half (0x12#5 ++ d ++ a ++ i)
  | .cueBlt d a i => .half (0x13#5 ++ d ++ a ++ i)
  | .cueBge d a i => .half (0x14#5 ++ d ++ a ++ i)
  | .cueJmp i => .half (0x15#5 ++ 0#6 ++ i)
  | .cueEach d s i => .half (0x16#5 ++ d ++ 0#2 ++ BitVec.ofBool s ++ i)
  | .cueNext d => .half (0x17#5 ++ d ++ 0#8)
  | .cueVget d a f => .half (0x18#5 ++ d ++ a ++ f)
  | .cueCget d a f => .half (0x19#5 ++ d ++ a ++ f)
  | .cueVglob d f => .half (0x1A#5 ++ d ++ 0#3 ++ f)
  | .cuePick a => .half (0x1B#5 ++ 0#3 ++ a ++ 0#5)
  | .cuePlace a => .half (0x1C#5 ++ 0#3 ++ a ++ 0#5)
  | .cueDeny n => .half (0x1D#5 ++ 0#6 ++ n)
  | .cueStop => .half (0x1E#5 ++ 0#11)
  | .vectorCommand _ _ => .none
  | .matrixCommand _ _ => .none
  | .loadReturn _ => .none
  | .storePairing _ => .none
  | .wingsDrain _ => .none
  | .queueProtocolError _ => .none
  | .uliDelivery _ => .none
  | .trapEntry _ => .none
  | .semaphoreNotice _ => .none
  | .semaphorePoll _ => .none
  | .pageWalk _ => .none
  | .pageFaultResolve _ => .none
  | .threadEnd _ => .none
  | .teamEnd _ => .none
  | .taskEnd _ => .none
  | .agreementPoint _ => .none
  | .agreementTimeout _ => .none
  | .vote _ => .none
  | .dispatch _ => .none
  | .preempt _ => .none
  | .fault _ => .none
  | .rebalance _ => .none
  | .rebalPeriod _ => .none
  | .starveTimeout _ => .none
  | .stop _ => .none
  | .stopComplete _ => .none
  | .teamResume _ => .none
  | .moveMessage _ => .none
  | .stagehandSegment _ => .none
  | .recordCompletion _ => .none
  | .collectiveRecordStart _ => .none
  | .collectiveFrame _ => .none
  | .holdFrame _ _ => .none
  | .holdTimer _ => .none
  | .collectiveTimeout _ => .none
  | .collectiveAbort _ => .none
  | .scrub _ => .none
  | .eccError _ => .none
  | .clovoData _ => .none
  | .clovoAck _ => .none
  | .clovoNakOrder _ => .none
  | .clovoNakFull _ => .none
  | .retryExpiry _ => .none
  | .clovoOpen _ => .none
  | .clovoOpenack _ => .none
  | .clovoClose _ => .none
  | .ackTimer _ => .none
  | .retransmitTimeout _ => .none
  | .connectionLost _ => .none
  | .arpRequest _ _ => .none
  | .neighbourSolicitation _ _ => .none
  | .unsupportedFrame _ => .none
  | .launch _ => .none
  | .troupe _ => .none
  | .troupeTwaitExpiry _ => .none
  | .wait _ => .none
  | .signal _ => .none
  | .hostCopy _ => .none
  | .cueLoad _ => .none
  | .cueSwap _ => .none
  | .partCreate _ => .none
  | .partDestroy _ => .none
  | .rangeAcquire _ => .none
  | .rangeRelease _ => .none
  | .ckptOpen _ => .none
  | .domain _ => .none
  | .restore _ => .none
  | .partner _ => .none
  | .jread _ => .none
  | .ckptCommit _ => .none
  | .commitEnd _ _ => .none
  | .stallEnd _ => .none
  | .replicaSegments _ => .none
  | .partnerAck _ _ => .none
  | .partFreeze _ => .none
  | .partResume _ => .none
  | .imageOut _ => .none
  | .imageIn _ => .none
  | .connSet _ => .none
  | .circuitLit _ _ => .none
  | .readCuestat _ => .none
  | .readSchedstat _ => .none
  | .dswap _ => .none
  | .readAttestation _ => .none
  | .qset _ => .none
  | .pstate _ => .none
  | .cfgwrite _ => .none
  | .restartModule _ => .none
  | .handler _ => .none
  | .attach _ => .none
  | .detach _ => .none
  | .debugHalt _ => .none
  | .debugResume _ => .none
  | .debugStep _ => .none
  | .stepTimeout _ => .none
  | .debugRead _ => .none
  | .debugWrite _ => .none
  | .trapimg _ => .none
  | .wakeWrite _ => .none
  | .firmwareMailboxMessage _ _ _ => .none
  | .greenRoom _ => .none
  | .ps1Entry => .none
  | .powerOn => .none
  | .powerRemoved => .none
  | .coldStart _ _ => .none
  | .warmStart _ _ => .none
  | .dieReset _ => .none
  | .thermalHot _ => .none
  | .thermalClear => .none
  | .thermalTrip _ => .none
  | .thermalCooled => .none
  | .inFieldTest => .none
  | .inFieldTestDone _ _ => .none
  | .scoreHalving => .none
  | .illegalInstruction _ _ => .none
  | .tileTransferCompletion _ => .none
  | .partnerFetch _ _ _ => .none

/-- Major 0x2F (R59, R207). The rows of sysrd and syswr are split as spec/opcode_table.json splits them. -/
def decodeSystem (w : Word32) : Option Instr :=
  match fKind w with
  | 0x0#4 => match fOff w with
    | 0x000#12 => some (.sysrdTrapInfo (fD w) 0#1)
    | 0x001#12 => some (.sysrdTrapInfo (fD w) 1#1)
    | 0x050#12 => some (.sysrdSigv (fD w))
    | 0x051#12 => some (.sysrdSigs (fD w))
    | n => some (.sysrd (fD w) n)
  | 0x1#4 => match fOff w with
    | 0x020#12 => some (.syswrHeapWindow (fA w) 0#2)
    | 0x021#12 => some (.syswrHeapWindow (fA w) 1#2)
    | 0x022#12 => some (.syswrHeapWindow (fA w) 2#2)
    | n => some (.syswr (fA w) n)
  | 0x2#4 => some (.trap (fOff w))
  | 0x3#4 => some (.eret)
  | 0x4#4 => some (.cro (fOff w))
  | 0x5#4 => some (.crc)
  | 0x6#4 => some (.sigchk)
  | 0x7#4 => some (.locq (fD w) (fA w) (w.getLsbD 0))
  | 0x8#4 => some (.brk (fOff w))
  | 0x9#4 => some (.halt)
  | 0xA#4 => some (.yield)
  | 0xB#4 => some (.wfi)
  | 0xC#4 => some (.rpopen (fD w))
  | 0xD#4 => some (.rpcommit (fD w) (fA w))
  | 0xE#4 => some (.rpwait (fD w) (fA w) (w.getLsbD 0))
  | _ => none

/-- The instruction whose major and function code these words have (R56-R60), before the checks of R62. -/
def decodeRaw (w w1 : Word32) : Option Instr :=
  match fMaj w with
  | 0x01#6 => match fFn w with
    | 0x0#11 => some (.add (fD w) (fA w) (fB w))
    | 0x1#11 => some (.sub (fD w) (fA w) (fB w))
    | 0x2#11 => some (.and (fD w) (fA w) (fB w))
    | 0x3#11 => some (.or (fD w) (fA w) (fB w))
    | 0x4#11 => some (.xor (fD w) (fA w) (fB w))
    | 0x5#11 => some (.andn (fD w) (fA w) (fB w))
    | 0x6#11 => some (.shl (fD w) (fA w) (fB w))
    | 0x7#11 => some (.shr (fD w) (fA w) (fB w))
    | 0x8#11 => some (.sra (fD w) (fA w) (fB w))
    | 0x9#11 => some (.min (fD w) (fA w) (fB w))
    | 0xA#11 => some (.max (fD w) (fA w) (fB w))
    | 0xB#11 => some (.minu (fD w) (fA w) (fB w))
    | 0xC#11 => some (.maxu (fD w) (fA w) (fB w))
    | 0xD#11 => some (.clz (fD w) (fA w))
    | 0xE#11 => some (.ctz (fD w) (fA w))
    | 0xF#11 => some (.popc (fD w) (fA w))
    | 0x10#11 => some (.mov (fD w) (fA w))
    | _ => none
  | 0x02#6 => match fFn w with
    | 0x0#11 => some (.mul (fD w) (fA w) (fB w))
    | 0x1#11 => some (.mulh (fD w) (fA w) (fB w))
    | 0x2#11 => some (.mulhu (fD w) (fA w) (fB w))
    | 0x3#11 => some (.mulhsu (fD w) (fA w) (fB w))
    | 0x4#11 => some (.div (fD w) (fA w) (fB w))
    | 0x5#11 => some (.divu (fD w) (fA w) (fB w))
    | 0x6#11 => some (.rem (fD w) (fA w) (fB w))
    | 0x7#11 => some (.remu (fD w) (fA w) (fB w))
    | _ => none
  | 0x03#6 => match fFn w with
    | 0x0#11 => some (.seq (fD w) (fA w) (fB w))
    | 0x1#11 => some (.sne (fD w) (fA w) (fB w))
    | 0x2#11 => some (.slt (fD w) (fA w) (fB w))
    | 0x3#11 => some (.sltu (fD w) (fA w) (fB w))
    | 0x4#11 => some (.sle (fD w) (fA w) (fB w))
    | 0x5#11 => some (.sleu (fD w) (fA w) (fB w))
    | _ => none
  | 0x04#6 => some (.addi (fD w) (fA w) (fImm w))
  | 0x05#6 => some (.andi (fD w) (fA w) (fImm w))
  | 0x06#6 => some (.ori (fD w) (fA w) (fImm w))
  | 0x07#6 => some (.xori (fD w) (fA w) (fImm w))
  | 0x08#6 => some (.shli (fD w) (fA w) ((fImm w).extractLsb' 0 6))
  | 0x09#6 => some (.shri (fD w) (fA w) ((fImm w).extractLsb' 0 6))
  | 0x0A#6 => some (.srai (fD w) (fA w) ((fImm w).extractLsb' 0 6))
  | 0x0B#6 => some (.slti (fD w) (fA w) (fImm w))
  | 0x0C#6 => some (.sltiu (fD w) (fA w) (fImm w))
  | 0x0D#6 => some (.seqi (fD w) (fA w) (fImm w))
  | 0x0E#6 => some (.movi (fD w) (fImm w))
  | 0x0F#6 => some (.movk (fD w) ((fA w).extractLsb' 0 2) (fImm w))
  | 0x10#6 => some (.beq (fD w) (fA w) (fImm w))
  | 0x11#6 => some (.bne (fD w) (fA w) (fImm w))
  | 0x12#6 => some (.blt (fD w) (fA w) (fImm w))
  | 0x13#6 => some (.bge (fD w) (fA w) (fImm w))
  | 0x14#6 => match fD w with
    | 0x0#5 => some (.bqt (fImm w))
    | 0x1#5 => some (.bqf (fImm w))
    | _ => none
  | 0x15#6 => match fFn w with
    | 0x0#11 => some (.jalr (fD w) (fA w))
    | 0x1#11 => some (.mbrd (fD w) ((fA w).extractLsb' 0 3))
    | 0x2#11 => some (.mbput ((fD w).extractLsb' 0 3) (fA w) (fB w))
    | 0x3#11 => some (.rotrd (fD w))
    | 0x4#11 => some (.rotwr (fA w))
    | _ => none
  | 0x16#6 => some (.jal (fD w) (w.extractLsb' 0 21))
  | 0x17#6 => some (.loop (w.extractLsb' 24 2) (w.getLsbD 23) (w.extractLsb' 18 5) (w.extractLsb' 8 10))
  | 0x18#6 => match fKind w with
    | 0x0#4 => some (.ldb (fD w) (fA w) (fOff w))
    | 0x1#4 => some (.ldbu (fD w) (fA w) (fOff w))
    | 0x2#4 => some (.ldh (fD w) (fA w) (fOff w))
    | 0x3#4 => some (.ldhu (fD w) (fA w) (fOff w))
    | 0x4#4 => some (.ldw (fD w) (fA w) (fOff w))
    | 0x5#4 => some (.ldwu (fD w) (fA w) (fOff w))
    | 0x6#4 => some (.ldd (fD w) (fA w) (fOff w))
    | _ => none
  | 0x19#6 => match fKind w with
    | 0x0#4 => some (.lqb ((fD w).extractLsb' 0 2) (fA w) (fOff w))
    | 0x1#4 => some (.lqbu ((fD w).extractLsb' 0 2) (fA w) (fOff w))
    | 0x2#4 => some (.lqh ((fD w).extractLsb' 0 2) (fA w) (fOff w))
    | 0x3#4 => some (.lqhu ((fD w).extractLsb' 0 2) (fA w) (fOff w))
    | 0x4#4 => some (.lqw ((fD w).extractLsb' 0 2) (fA w) (fOff w))
    | 0x5#4 => some (.lqwu ((fD w).extractLsb' 0 2) (fA w) (fOff w))
    | 0x6#4 => some (.lqd ((fD w).extractLsb' 0 2) (fA w) (fOff w))
    | _ => none
  | 0x1A#6 => match fKind w with
    | 0x0#4 => some (.sab (fA w) (fOff w))
    | 0x1#4 => some (.sah (fA w) (fOff w))
    | 0x2#4 => some (.saw (fA w) (fOff w))
    | 0x3#4 => some (.sad (fA w) (fOff w))
    | _ => none
  | 0x1B#6 => match fFn w with
    | 0x0#11 => some .mark
    | 0x1#11 => some (.qpop (fD w) ((fA w).extractLsb' 0 2))
    | 0x2#11 => some (.sdq (fA w))
    | 0x3#11 => some (.xqput (fA w))
    | 0x4#11 => some (.xqget (fD w))
    | 0x5#11 => some (.bqput (fA w))
    | _ => none
  | 0x1C#6 => match fFn w with
    | 0x0#11 => some (.tld (fD w) (fA w) (fB w))
    | 0x1#11 => some (.tst (fD w) (fA w) (fB w))
    | 0x2#11 => some (.gth (fD w) (fA w) (fB w))
    | 0x3#11 => some (.sct (fD w) (fA w) (fB w))
    | _ => none
  | 0x1D#6 => match fKind w with
    | 0x0#4 => some (.spld (fD w) (w.extractLsb' 0 9))
    | 0x1#4 => some (.spst (fD w) (w.extractLsb' 0 9))
    | _ => none
  | 0x1E#6 => match w.extractLsb' 0 3 with
    | 0x0#3 => (fScope w).map fun c => .amadd (fD w) (fA w) (fB w) c (w.getLsbD 3)
    | 0x1#3 => (fScope w).map fun c => .ammin (fD w) (fA w) (fB w) c (w.getLsbD 3)
    | 0x2#3 => (fScope w).map fun c => .ammax (fD w) (fA w) (fB w) c (w.getLsbD 3)
    | 0x3#3 => (fScope w).map fun c => .amand (fD w) (fA w) (fB w) c (w.getLsbD 3)
    | 0x4#3 => (fScope w).map fun c => .amor (fD w) (fA w) (fB w) c (w.getLsbD 3)
    | 0x5#3 => (fScope w).map fun c => .amxor (fD w) (fA w) (fB w) c (w.getLsbD 3)
    | 0x6#3 => (fScope w).map fun c => .amswp (fD w) (fA w) (fB w) c (w.getLsbD 3)
    | 0x7#3 => (fScope w).map fun c => .amcas (fD w) (fA w) (fB w) c (w.getLsbD 3)
  | 0x1F#6 => match w.extractLsb' 0 2 with
    | 0x0#2 => (fScope w).map fun c => .rel c
    | 0x1#2 => (fScope w).map fun c => .acq c
    | 0x2#2 => (fScope w).map fun c => .fence c
    | _ => none
  | 0x20#6 => some (.push (fD w) (fA w) (w.extractLsb' 0 6))
  | 0x21#6 => match fFn w with
    | 0x0#11 => some (.swait (fD w) (fA w) (fB w))
    | 0x1#11 => some (.ssig (fD w) (fA w) (fB w))
    | 0x2#11 => some (.srd (fD w) (fA w))
    | _ => none
  | 0x22#6 => match fFn w with
    | 0x0#11 => some (.ecreate (fD w))
    | 0x1#11 => some (.ejoin (fD w) (fA w))
    | 0x2#11 => some (.eleave (fD w) (fA w))
    | 0x3#11 => some (.equery (fD w) (fA w) (fB w))
    | 0x4#11 => some (.ebar (fD w) (fA w))
    | _ => none
  | 0x23#6 => match fFn w with
    | 0x0#11 => some .uret
    | 0x1#11 => some (.uimask (fD w) (fA w))
    | _ => none
  | 0x2F#6 => decodeSystem w
  | 0x30#6 => match fFn5 w with
    | 0x0#5 => some (.vadd (wideOf w w1))
    | 0x1#5 => some (.vsub (wideOf w w1))
    | 0x2#5 => some (.vmul (wideOf w w1))
    | 0x3#5 => some (.vfma (wideOf w w1))
    | 0x4#5 => some (.vfms (wideOf w w1))
    | 0x5#5 => some (.vmin (wideOf w w1))
    | 0x6#5 => some (.vmax (wideOf w w1))
    | 0x7#5 => some (.vabs (wideOf w w1))
    | 0x8#5 => some (.vneg (wideOf w w1))
    | 0x9#5 => some (.vaddsat (wideOf w w1))
    | 0xA#5 => some (.vsubsat (wideOf w w1))
    | _ => none
  | 0x31#6 => match fFn5 w with
    | 0x0#5 => some (.vceq (wideOf w w1))
    | 0x1#5 => some (.vcne (wideOf w w1))
    | 0x2#5 => some (.vclt (wideOf w w1))
    | 0x3#5 => some (.vcle (wideOf w w1))
    | 0x4#5 => some (.vcgt (wideOf w w1))
    | 0x5#5 => some (.vcge (wideOf w w1))
    | 0x6#5 => some (.pand (wideOf w w1))
    | 0x7#5 => some (.por (wideOf w w1))
    | 0x8#5 => some (.pxor (wideOf w w1))
    | 0x9#5 => some (.pnot (wideOf w w1))
    | 0xA#5 => some (.pset (wideOf w w1))
    | _ => none
  | 0x32#6 => match fFn5 w with
    | 0x0#5 => some (.vand (wideOf w w1))
    | 0x1#5 => some (.vor (wideOf w w1))
    | 0x2#5 => some (.vxor (wideOf w w1))
    | 0x3#5 => some (.vandn (wideOf w w1))
    | 0x4#5 => some (.vnot (wideOf w w1))
    | 0x5#5 => some (.vshl (wideOf w w1))
    | 0x6#5 => some (.vshr (wideOf w w1))
    | 0x7#5 => some (.vsra (wideOf w w1))
    | 0x8#5 => some (.vshli (wideOf w w1))
    | 0x9#5 => some (.vshri (wideOf w w1))
    | 0xA#5 => some (.vsrai (wideOf w w1))
    | _ => none
  | 0x33#6 => match fFn5 w with
    | 0x0#5 => some (.vrsumr (wideOf w w1))
    | 0x1#5 => some (.vrsumc (wideOf w w1))
    | 0x2#5 => some (.vrmaxr (wideOf w w1))
    | 0x3#5 => some (.vrmaxc (wideOf w w1))
    | 0x4#5 => some (.vrminr (wideOf w w1))
    | 0x5#5 => some (.vrminc (wideOf w w1))
    | _ => none
  | 0x34#6 => match fFn5 w with
    | 0x0#5 => some (.vbcast (wideOf w w1))
    | 0x1#5 => some (.vtrans (wideOf w w1))
    | 0x2#5 => some (.vperm (wideOf w w1))
    | 0x3#5 => some (.vshuf (wideOf w w1))
    | 0x4#5 => some (.vcomp (wideOf w w1))
    | 0x5#5 => some (.vexpd (wideOf w w1))
    | 0x6#5 => some (.vsel (wideOf w w1))
    | 0x7#5 => some (.vmov (wideOf w w1))
    | 0x8#5 => some (.vmovi (wideOf w w1))
    | _ => none
  | 0x35#6 => match fFn5 w with
    | 0x0#5 => some (.vld (wideOf w w1))
    | 0x1#5 => some (.vst (wideOf w w1))
    | 0x2#5 => some (.vldac (wideOf w w1))
    | 0x3#5 => some (.pst (wideOf w w1))
    | 0x4#5 => some (.pld (wideOf w w1))
    | _ => none
  | 0x37#6 => match fFn5 w with
    | 0x0#5 => some (.shp (wideOf w w1))
    | 0x1#5 => some (.shpr (wideOf w w1))
    | _ => none
  | 0x38#6 => match fFn5 w with
    | 0x0#5 => some (.mwld (wideOf w w1))
    | 0x1#5 => some (.mwldq (wideOf w w1))
    | 0x2#5 => some (.mclr (wideOf w w1))
    | 0x3#5 => some (.mswap (wideOf w w1))
    | 0x4#5 => some (.mcks (wideOf w w1))
    | _ => none
  | 0x39#6 => match fFn5 w with
    | 0x0#5 => some (.mmac (wideOf w w1))
    | _ => none
  | 0x3C#6 => match fFn5 w with
    | 0x0#5 => some (.cvt (wideOf w w1))
    | 0x1#5 => some (.cvtsr (wideOf w w1))
    | _ => none
  | 0x3D#6 => match fFn5 w with
    | 0x0#5 => some (.rng (wideOf w w1))
    | 0x1#5 => some (.tint (wideOf w w1))
    | 0x2#5 => some (.tload (wideOf w w1))
    | _ => none
  | _ => none

/-- A cue instruction (R239), before the checks of R240 on zero fields. -/
def decodeCueRaw (h : BitVec 16) : Option Instr :=
  let d : CReg := h.extractLsb' 8 3
  let a : CReg := h.extractLsb' 5 3
  let b : CReg := h.extractLsb' 0 3
  let i : BitVec 5 := h.extractLsb' 0 5
  match h.extractLsb' 11 5 with
  | 0x01#5 => some (.cuePfx (h.extractLsb' 0 11))
  | 0x02#5 => some (.cueMov d a)
  | 0x03#5 => some (.cueLi d i)
  | 0x04#5 => some (.cueAdd d a b)
  | 0x05#5 => some (.cueAddi d a i)
  | 0x06#5 => some (.cueSub d a b)
  | 0x07#5 => some (.cueAnd d a b)
  | 0x08#5 => some (.cueOr d a b)
  | 0x09#5 => some (.cueXor d a b)
  | 0x0A#5 => some (.cueShl d a i)
  | 0x0B#5 => some (.cueShr d a i)
  | 0x0C#5 => some (.cueMin d a b)
  | 0x0D#5 => some (.cueMax d a b)
  | 0x0E#5 => some (.cueSlt d a b)
  | 0x0F#5 => some (.cueSeq d a b)
  | 0x10#5 => some (.cueMul d a b)
  | 0x11#5 => some (.cueBeq d a i)
  | 0x12#5 => some (.cueBne d a i)
  | 0x13#5 => some (.cueBlt d a i)
  | 0x14#5 => some (.cueBge d a i)
  | 0x15#5 => some (.cueJmp i)
  | 0x16#5 => some (.cueEach d (h.getLsbD 5) i)
  | 0x17#5 => some (.cueNext d)
  | 0x18#5 => some (.cueVget d a i)
  | 0x19#5 => some (.cueCget d a i)
  | 0x1A#5 => some (.cueVglob d i)
  | 0x1B#5 => some (.cuePick a)
  | 0x1C#5 => some (.cuePlace a)
  | 0x1D#5 => some (.cueDeny i)
  | 0x1E#5 => some .cueStop
  | _ => none

/-- A two-word instruction: majors 0x30-0x3F (R45), including the reserved ones. -/
def twoWords (w : Word32) : Bool := w.toNat ≥ 0xC0000000

/-- Decoding is total: the legal instruction that the words hold in this stream, or why they are illegal (R62). A field
that the encoding does not use must be zero, so the words must be exactly those of the instruction. The second word of a
one-word instruction is not looked at. -/
def decode (st : Stream) (w w1 : Word32) : Except Illegal Instr :=
  match decodeRaw w w1 with
  | none => .error .unassigned
  | some i =>
    if encode i == (if twoWords w then .two w w1 else .one w) then
      match check st i with
      | none => .ok i
      | some e => .error e
    else .error .mustBeZero

/-- Decoding one cue halfword (R239, R240). -/
def decodeCue (h : BitVec 16) : Except Illegal Instr :=
  match decodeCueRaw h with
  | none => .error .unassigned
  | some i =>
    if encode i == .half h then
      match check .execute i with
      | none => .ok i
      | some e => .error e
    else .error .mustBeZero

/-- The instruction that the words hold in the first stream of the two that accepts them; the execute stream first. -/
def decodeAny (w w1 : Word32) : Option (Stream × Instr) :=
  match decode .execute w w1 with
  | .ok i => some (.execute, i)
  | .error _ =>
    match decode .access w w1 with
    | .ok i => some (.access, i)
    | .error _ => none

/-- The instruction of an opcode-table row: 16 bits are a cue halfword; otherwise the low 32 bits are the first word, and
the next 32 the second (zero beyond nbits). -/
def decodeTableWord (nbits w : Nat) : Option Instr :=
  let w := w % 2 ^ nbits
  if nbits ≤ 16 then
    match decodeCue (BitVec.ofNat 16 w) with
    | .ok i => some i
    | .error _ => none
  else (decodeAny (BitVec.ofNat 32 w) (BitVec.ofNat 32 (w / 2 ^ 32))).map (·.2)

end Sys2Proof
end

