-- ==== Sys2Proof/Config.lean ====
section
/-!
DEFINITION. What the module fixes (geometry and limits, R10-R21, R274) and the free values: opaque constants without a
body, each applied to a counter of State or to the operands, for what the spec leaves open (named in the log).
-/

namespace Sys2Proof.Machine

/-- What the configuration block holds (R351). -/
structure ConfigBlock where
  raw : List Byte
  node : Word
  clovoPort : Nat
  /-- The MAC addresses of ports 0 to 8. -/
  macs : Vector (BitVec 48) 9
  ips : List (Nat × BitVec 32)
  ip6s : List (Nat × BitVec 128)
  /-- Hosts with the partitions each may address, as a bit mask (R330). -/
  hosts : List (Word × Nat)
  peers : List Word
  feed : Word
  retire : Nat
  testInt : Nat
  /-- Entries (die A, die B, N64) of the default connection table. -/
  table : List (Nat × Nat × Nat)
  overrides : List (Nat × BitVec 4)
  serial : Nat
  /-- Slots' bytes granted to each peer's replicas (R412). -/
  replicaSpace : List (Word × Nat)
  deriving DecidableEq, Repr, Inhabited

end Sys2Proof.Machine

namespace Sys2Proof.Config

/-- C-cycles that pass before the n-th step (log 5). -/
opaque elapsed : Nat → Nat

/-- Whether unit k of a faulting transfer had moved before the fault of occurrence n (R118, log 10). -/
opaque unitMoved : Nat → Nat → Bool

/-- Which free slot ecreate takes at occurrence n (R201, log 13). -/
opaque ensembleSlot : Nat → Nat

/-- Where the GEN sequence of a slot starts (R201, log 13). -/
opaque ensembleGen : Nat → Nat

/-- Byte of memory outside a checkpoint domain after a die reset (R416, log 17). -/
opaque staleByte : Nat → Nat → Byte

/-- The engine's internal status word and micro-step of a trap record (R380, R381, log 18). -/
opaque engineStatus : Nat → Word
opaque engineStep : Nat → Nat

/-- RETRY microseconds beyond the least 10 that the drain rate gives (R332, log 19). -/
opaque retryExtra : Nat → Nat

/-- The window a receiver grants (R329, log 19). -/
opaque window : Nat → Nat

/-- SHA-256, for FWHASH and CFGHASH (R375, log 20). -/
opaque sha256 : List Byte → List Byte

/-- The signed firmware image verified at start (R352, log 20). -/
opaque firmwareImage : List Byte

/-- ECDSA P-256 by the module's attestation key (R375, log 20). -/
opaque attestationSignature : List Byte → List Byte

/-- What a signed part of the configuration block says: the spec lists its contents and gives no layout (R351, log 15). -/
opaque configOf : List Byte → Machine.ConfigBlock

/-- Whether the operator's signature of a replacement signed part verifies (R351, log 20). -/
opaque signatureVerifies : List Byte → Bool

/-- Whether loose write i of the die reset of occurrence n survives (R302, log 17). -/
opaque writeSurvives : Nat → Nat → Bool

/-- Whether a partner refuses a PARTNER record (R408, R412, log 44). -/
opaque partnerRefuses : Nat → Bool

/-- What the bytes of a team image have no field for, and an installed thread holds all the same (log 43). -/
opaque notCarried : Nat → Nat → Nat

/-- The region lines that an image of an open region leaves out: address and byte (R229, log 43). -/
opaque regionLines : Nat → List (Nat × Byte)

/-- The payload bytes of a message to a peer (R329, R377, R412, log 19). -/
opaque peerBytes : PeerMsg → List Byte

/-- The reason of a refusal for which the spec gives the refusal and no reason (log 42). -/
opaque unstatedReason : Nat → Nat

/-- The store die that holds a replica's shadow frame of a page: the spec gives shadow frames no address (R216, R364, log 6). -/
opaque shadowDie : Nat → Nat

/-- Chiplets of the module (R10). -/
abbrev chiplets : Nat := 12

/-- Die numbers of the connection table (R347): store die k is 12 + k, the I/O die 16. -/
abbrev dies : Nat := 17
abbrev storeDie0 : Nat := 12
abbrev ioDie : Nat := 16

/-- Cores of a chiplet (R10). -/
abbrev coresPerChip : Nat := 16

/-- Cores of the module; the core index is 16 * chiplet + core (R374). -/
abbrev cores : Nat := 192

/-- Chiplets 2, 5, 8 and 11 are N-class (R10). -/
def nClass (chip : Nat) : Bool := chip % 3 == 2

/-- Voltage domain of a chiplet (R11). -/
def domainOf (chip : Nat) : Nat := chip / 3

/-- Near store: 1 GiB from 0 (R274). -/
abbrev nearEnd : Nat := 0x40000000

/-- HBM4: 512 GiB (R274). -/
abbrev hbmBase : Nat := 0x10000000000
abbrev hbmEnd : Nat := 0x18000000000

/-- A device physical address below 2^57 is backed by the near store or HBM4, or unbacked (R274). -/
def backed (pa : Nat) : Bool := pa < nearEnd || (hbmBase ≤ pa && pa < hbmEnd)

/-- Store die that holds a backed address (R274, R275). -/
def storeDie (pa : Nat) : Nat :=
  if pa < nearEnd then pa / 0x10000000 else ((pa - hbmBase) / 4096 % 8) / 2

/-- HEAPVA, where every heap window begins (R279). -/
abbrev heapVA : Nat := 0x4000000000

/-- Where HOST_COPY finds the idle dirty bitmap of a partition, a window of the image area (R286, log 60), and the bytes of a bitmap. -/
abbrev bitmapVA : Nat := 0x1F0000000000000
abbrev bitmapBytes : Nat := 16809984

/-- The image area: virtual addresses with bit 56 set (R74). -/
abbrev imageArea : Nat := 0x100000000000000

/-- Virtual addresses have 57 bits (R98). -/
abbrev vaEnd : Nat := 0x200000000000000

/-- Queue depths (R24), mark limit (R107), Wings lines of a core (R14) and of a P2 replica (R365). -/
abbrev queueDepth : Nat := 64
abbrev xqDepth : Nat := 16
abbrev markLimit : Nat := 8
abbrev wingsLines : Nat := 1024
abbrev replicaLines : Nat := 256

/-- Entries of the vector and matrix command queues of a core (R144, R150). -/
abbrev vectorEntries : Nat := 32
abbrev matrixEntries : Nat := 16

/-- Entries of a semaphore cache and of an L1 TLB (R14). -/
abbrev semaphoreEntries : Nat := 16
abbrev tlbEntries : Nat := 256

/-- C-cycles of stall after which R26 raises (log 6). -/
abbrev protocolCycles : Nat := 1024

/-- Memory requests that a core may have outstanding (R14). -/
abbrev requests : Nat := 768

/-- C-cycles of a second, and of the 24 hours of R371 (R4). -/
abbrev cyclesPerSecond : Nat := 1400000000
abbrev halvingCycles : Nat := 120960000000000

/-- C-cycles of the 10 ms of PS1 and of the 50 microseconds of the green room (R346, R353). -/
abbrev ps1Cycles : Nat := 14000000
abbrev greenCycles : Nat := 70000

/-- C-cycles after which a replica that waits at an agreement point is late: 1 ms (R4, R230). -/
abbrev agreementCycles : Nat := 1400000

/-- Limits of ensembles (R29, R202). -/
abbrev maxEnsembles : Nat := 4096
abbrev maxMembers : Nat := 65535
abbrev maxMemberships : Nat := 8

/-- Photonic limits in units of 64 channels (R347). -/
abbrev unitsPerDie : Nat := 48
abbrev unitsPerModule : Nat := 256

end Sys2Proof.Config
end

