-- ==== Sys2Proof/Machine/State.lean ====
section
/-!
DEFINITION. The state of one DX-96 module as plain data: what the spec names, field by field, with the rule that
names it. Sparse arrays of bytes (memory, scratchpad, V, Q, Z, spill) are lists of cells in the canonical form of
Ops.lean. The last fields are the model's own: the oracle that says which agent moves next, and counters for free values.
-/

namespace Sys2Proof.Machine

/-- A sparse byte array: strictly rising addresses, no entry equal to zero. -/
abbrev Cells := List Host.Cell

/-- A sparse array of 32-bit elements (an accumulator bank). -/
abbrev Cells32 := List (Nat × Word32)

/-- Why the machine stops. -/
inductive Fault where
  /-- Raised by step alone: module power is removed (PS3, R353) and no input is scheduled. Safe. -/
  | powerOff
  deriving DecidableEq, Repr

/-- Why a step has no meaning. -/
inductive Refusal where
  /-- Raised by the refused arms of exec alone: the instruction has no meaning in this model yet. Safe. -/
  | notModelled (mnemonic : String)
  deriving DecidableEq, Repr

/-- One hardware-loop level of a stream (R87). -/
structure LoopLevel where
  lc : Word32
  start : Word
  endA : Word
  epi : BitVec 4
  active : Bool
  deriving DecidableEq, Repr

/-- What kind of execute-stream mark a mark is (R106, R223, R226). -/
inductive MarkKind where
  | mark
  | cro
  | crc
  deriving DecidableEq, Repr

/-- Entries pushed to and popped from the queues between the streams since dispatch (R223). -/
structure Traffic where
  ldq : Vector Nat 4
  bq : Nat
  xq : Nat
  deriving DecidableEq, Repr

/-- An unpaired mark of a stream (R106): the SAQ or SDQ total pushed before it; for a region its part of the snapshot
and the queue traffic at it (R223); the address of the mark, where an unwind resumes (R227). -/
structure Mark where
  kind : MarkKind
  total : Nat
  /-- CMDIX count when the mark issued. -/
  cmdix : Nat
  pc : Word
  handler : Word
  regs : List Word
  traffic : Traffic
  deriving DecidableEq, Repr

/-- Whether a stream's next instruction is stalled, and whether the stall counts toward R26. -/
inductive Stall where
  | no
  /-- On an architectural queue, or a wait that counts toward R26. -/
  | queue
  /-- In another of the waits that R119 lists: no count toward R26, and a pending access-stream trap is entered. -/
  | listed
  | other
  deriving DecidableEq, Repr

/-- One stream of a thread: next instruction, end (R28), loop levels with their order innermost first (R87), unpaired
marks oldest first (R106). -/
structure StreamState where
  pc : Word
  ended : Bool
  loops : Vector LoopLevel 4
  order : List Nat
  marks : List Mark
  stall : Stall
  /-- Stopped while the other stream of the thread runs the handler (R219, R222). -/
  stopped : Bool
  deriving DecidableEq, Repr

/-- An accumulator: visible and working bank, key 128 * row + column, and their poisoned rows (R149). -/
structure Acc where
  vis : Cells32
  work : Cells32
  visPoison : List Nat
  workPoison : List Nat
  deriving DecidableEq, Repr

/-- Formats of the weight latch (R149). -/
inductive LatchFmt where
  | empty
  | e4m3
  | e5m2
  | bf16
  | fp16
  | int8
  | q4
  deriving DecidableEq, Repr

/-- The weight latch (R149): weight bytes as loaded, for Q4 the code bytes and the 512 block factors. -/
structure Latch where
  fmt : LatchFmt
  groupY : Bool
  poison : Bool
  bytes : Cells
  factors : Cells32
  deriving DecidableEq, Repr

/-- The checksum status of mcks (R163). -/
structure MatStatus where
  passes : Word32
  skips : BitVec 16
  cskip : Bool
  deriving DecidableEq, Repr

/-- The interpolation table (R174, R175); nseg = 0 is the empty table. -/
structure Table where
  lo : Word32
  scale : Word32
  ctl : Word32
  nseg : Nat
  segs : Cells
  deriving DecidableEq, Repr

/-- An SAQ entry (R102): effective address, translated address, size in bytes, the access-stream marks before it (R106), and
whether it was pushed at supervisor level (R225). -/
structure SaqEntry where
  ea : Word
  pa : Nat
  size : Nat
  marks : Nat
  sup : Bool := false
  deriving DecidableEq, Repr

/-- Where a load in flight goes (R100). -/
inductive LoadDst where
  | hreg (d : Reg)
  | ldq (n : Nat)
  deriving DecidableEq, Repr

/-- The eight atomic operations (R113). -/
inductive AtomOp where
  | madd
  | mmin
  | mmax
  | mand
  | mor
  | mxor
  | mswp
  | mcas
  deriving DecidableEq, Repr

/-- What an atomic in flight does at the far unit (R113, R114): its operands as they were at issue, its width in bits, the leaf
that translated it, its scope, and under P2 the result that the pair, or its log, has already given it (R115, R368). -/
structure AtomReq where
  op : AtomOp
  n : Nat
  b : Nat
  cmp : Nat
  scope : Scope
  pte : Option Nat
  res : Option Word
  deriving DecidableEq, Repr

/-- A load or an atomic in flight (R101, R105): issued and checked, not yet performed. -/
structure LoadReq where
  dst : LoadDst
  ea : Word
  pa : Nat
  size : Nat
  signed : Bool
  /-- Access-stream marks before it (R106). -/
  marks : Nat
  atom : Option AtomReq := none
  /-- Address of the instruction (R119). -/
  pc : Word := 0
  deriving DecidableEq, Repr

/-- The four transfers of majors 0x1C. -/
inductive XferKind where
  | tld
  | tst
  | gth
  | sct
  deriving DecidableEq, Repr

/-- An access unit of a transfer (R98): memory address, scratchpad offset, size, and its translation at issue. -/
structure XferUnit where
  ea : Word
  off : Nat
  size : Nat
  pa : Nat
  pte : Option Nat
  deriving DecidableEq, Repr

/-- A transfer that holds its bank locks (R109): in flight, or stopped at a fault (R118). -/
structure Xfer where
  kind : XferKind
  spa : Word
  mem : Word
  desc : Word
  pc : Word
  faulted : Bool
  /-- Units or elements still to move, in loop order. -/
  units : List XferUnit := []
  /-- Access-stream marks before it (R106), and whether it issued at supervisor level (R225). -/
  marks : Nat
  sup : Bool := false
  deriving DecidableEq, Repr

/-- An engine command in a queue (R390): the instruction with its V and P names already rotated, CMDIX, SHP at issue, the
G values read at issue, the execute-stream marks issued before it (R106), the bank of G24-G31 selected at issue (R139, R200), its
words as TADDR names them (R66), and its place in the issue order of what waits for a bank (R109). -/
structure Cmd where
  i : Instr
  cmdix : Nat
  shp : Word
  g1 : Word
  g2 : Word
  marks : Nat
  /-- Address of the instruction, and its VD as the encoding has it (R147). -/
  pc : Word
  vd : BitVec 7
  bank : Bool := false
  words : Word := 0
  stamp : Nat := 0
  /-- Issued at supervisor level (R118). -/
  sup : Bool := false
  /-- It stood at the head of its queue while a lock held its extent (R109). -/
  waited : Bool := false
  deriving DecidableEq, Repr

/-- A pending user-level interrupt (R199, R390). -/
structure Uli where
  status : Word
  bytes : Word
  engine : Nat
  deriving DecidableEq, Repr

/-- What the execute stream waits for inside an instruction (R390 WKIND). -/
inductive Wait where
  | none
  /-- swait: counter by physical address, its address, wait value, and the satisfying value once a notice brought it. -/
  | swait (pa : Nat) (ea val : Word) (got : Option Word)
  /-- ebar: the handle and the barriers completed at arrival. -/
  | ebar (handle : Word) (done : Nat)
  | wfi
  | rpwait (seq : Word) (w : Bool)
  /-- An agreement point that has been reached and waits for the other replica: sigchk or crc (R230). -/
  | sigchk
  /-- crc: its mark is issued; the region drains once its pair has formed (R226). -/
  | crc
  /-- crc: the drain has begun (R226). -/
  | drain
  /-- An agreement point of push, ssig, ebar or a full Wings that has agreed (R204, R365). -/
  | agreed
  deriving DecidableEq, Repr

/-- A cause raised and not yet entered (R119, R219). -/
structure TrapInfo where
  stream : Stream
  cause : Byte
  tpc : Word
  taddr : Word
  deriving DecidableEq, Repr

/-- A page fault or a TLB miss that waits for the walker or the firmware (R282, R284). -/
structure PageFault where
  stream : Stream
  cause : Byte
  ea : Word
  store : Bool
  deriving DecidableEq, Repr

/-- TSTAT (R212), by field. -/
structure TStat where
  crcause : Byte
  df : Bool
  ulih : Bool
  uim : Bool
  promo : Bool
  cropen : Bool
  rdy : Bool
  pclass : BitVec 2
  plvl : Bool
  lvl : Bool
  deriving DecidableEq, Repr

/-- The trap and system registers of a thread (R209-R213). -/
structure SysRegs where
  tcause : Word
  taddr : Word
  tpc : Word
  txpc : Word
  tvec : Word
  tscr : Vector Word 4
  tstat : TStat
  crhnd : Word
  ulivec : Word
  uliret : Word
  hbase : Word
  hlimit : Word
  hoff : Word
  dbase : Word
  sigv : Word
  sigs : Word
  pcnt : Vector Word 16
  psel : Vector Word 16
  /-- The second bank of a double fault (R219, R390). -/
  frozenCause : Word
  frozenAddr : Word
  /-- Since the latest trap entry, sysrd has read TCAUSE, and TADDR (R212 RDY). -/
  sawCause : Bool
  sawAddr : Bool
  deriving DecidableEq, Repr

/-- A line of the Wings: aligned 64 B unit by physical address, bytes written, region line or held line (R225, R364). -/
structure WingsLine where
  unit : Nat
  cells : List (Nat × Byte)
  held : Bool
  /-- The additions to PSIG of the stores in the line (R367). -/
  sig : Word
  /-- The line holds bytes of a poisoned unit (R358). -/
  poison : Bool
  /-- The number of the first store of an SDQ entry in the line, and the fewest marks before one of its stores (R94, R182). -/
  first : Option Nat := none
  marks : Nat := 0
  /-- An Understudy has passed the agreement point at which the pair drained the line: it takes no room (R365, R368). -/
  past : Bool := false
  /-- The virtual page of its stores, where a page table translated them (R367). -/
  va : Option Nat := none
  deriving DecidableEq, Repr

/-- What a request waits for before it takes effect (R94, R182, R294, R295): the SDQ entries pushed, the commands queued and the
execute-stream marks issued before it. -/
structure Gate where
  sdq : Nat
  cmdix : Nat
  marks : Nat
  deriving DecidableEq, Repr

/-- A request that a region or a P2 pair holds back (R96, R205). -/
inductive HeldReq where
  | push (record : Nat)
  | mbput (team : Word) (k : Nat) (value : Word) (gate : Gate)
  deriving DecidableEq, Repr

/-- Queues of a thread (R24) and what is in flight behind them. -/
structure Queues where
  ldq : Vector (List (Option Word)) 4
  saq : List SaqEntry
  sdq : List Word
  bq : List Bool
  xq : List Word
  saqTot : Nat
  sdqTot : Nat
  /-- Pairs performed since dispatch (R103). -/
  paired : Nat
  /-- Entries pushed and popped (R223). -/
  pushed : Traffic
  popped : Traffic
  loads : List LoadReq
  xfers : List Xfer
  /-- CMDIX count at the execute-stream mark of the latest pair formed (R390 HOLDIX). -/
  holdCmdix : Nat
  /-- Execute-stream marks issued, and pairs formed, since dispatch. -/
  execMarks : Nat
  pairsFormed : Nat
  deriving DecidableEq, Repr

/-- A thread: what the spec gives a thread context (R14, R24, R54, R149, R174, R209, R390). -/
structure Thread where
  tid : Nat
  live : Bool
  resident : Bool
  part : Nat
  task : Nat
  team : Nat
  teamIx : Nat
  thrIx : Nat
  rep : Nat
  core : Nat
  ctx : Nat
  vregs : Nat
  rotN : Nat
  accs : Nat
  /-- Scratchpad bytes of the thread, half in X and half in Y (R21). -/
  spadSize : Nat
  ex : StreamState
  ax : StreamState
  g : Vector Word 32
  gi : Vector Word 8
  h : Vector Word 16
  p : Vector (BitVec 8192) 16
  v : Cells
  q : Cells
  z : Cells
  acc : Vector Acc 6
  latch : Latch
  mat : MatStatus
  table : Table
  spill : Cells
  spad : Cells
  spadPoison : List Nat
  vbase : BitVec 6
  pbase : BitVec 3
  shp : Word
  qs : Queues
  vq : List Cmd
  mq : List Cmd
  cmdix : Nat
  /-- A command has faulted: the commands below this CMDIX do not start until eret; never, when a check failed (R159). -/
  cmdHold : Option (Nat × Bool)
  /-- Predicates that the loop hardware writes behind queued commands: CMDIX, physical predicate, value (log 23). -/
  loopP : List (Nat × Nat × Bool)
  /-- CMDIX at the cro of the open region: earlier commands are no region instructions (R223). -/
  regionCmdix : Nat
  uli : List Uli
  ovf : Bool
  wait : Wait
  /-- The waits that traps of the execute stream have interrupted, innermost first, with the addresses of their instructions (R119). -/
  waits : List (Word × Wait) := []
  trap : Option TrapInfo
  /-- A cause of the execute stream that waits for the pair of the region it lies in (R223). -/
  dueEx : Option TrapInfo := none
  /-- An access-stream fault has suspended the count of R26, until the resume (R119). -/
  countOff : Bool := false
  walk : List PageFault
  pf : List PageFault
  /-- The mailboxes as this thread of a P2 pair sees them (R93, R366). -/
  mbView : Vector Word 8
  sys : SysRegs
  snapG : List Word
  snapH : List Word
  openMark : Word
  /-- Causes of unwinds of the other replica, oldest first: each unwinds this one at its next agreement point (R227). -/
  unwindDue : List Byte
  held : List HeldReq
  /-- The mbputs issued that have not taken effect, oldest first (R94). -/
  late : List HeldReq := []
  wings : List WingsLine
  /-- Agreement points passed (R230, R356). -/
  ordinal : Nat
  pairReq : Option (List Nat)
  pairRes : Option Word
  /-- The request that the access stream presents to the pair, its result, and how many it has presented before (R115). -/
  axReq : Option (List Nat) := none
  axRes : Option Word := none
  axIx : Nat := 0
  /-- The mbputs of the thread that the pair has performed (R95, R366). -/
  putIx : Nat := 0
  /-- TIME at which the thread came to the agreement point where it waits (R230). -/
  pointAt : Nat := 0
  /-- A transfer that waits for a bank, with its place in the issue order of what waits (R109). -/
  lockWait : Option (Nat × Xfer) := none
  /-- Pairs formed when the region opened: an access with fewer marks before it lies before the region (R223). -/
  regionMark : Nat := 0
  /-- Pairs formed at the pair of the crc that has not completed (R226). -/
  crcMark : Option Nat := none
  /-- A held store found no free line: a forced agreement point (R365). -/
  forced : Bool
  logIx : Nat
  /-- Consecutive C-cycles of the stall that R26 counts. -/
  stallCount : Nat
  /-- Halted for the firmware after a trap without a handler or a double fault (R219). -/
  halted : Bool
  /-- The stream whose brk halted the team (R399), and the stream that a STEP lets issue. -/
  brkAt : Option Stream
  stepping : Option Stream
  /-- CMDIX at the start of the STEP: a command that the instruction queues runs out though the team is halted (R399). -/
  stepFrom : Option Nat
  ended : Bool
  deriving DecidableEq, Repr

/-- The trap record of R380, by field. -/
structure TrapRec where
  cause : Byte
  access : Bool
  lvl : Bool
  df : Bool
  cmdv : Bool
  thrIx : Nat
  ocause : Byte
  cmdix : Nat
  tpc : Word
  taddr : Word
  engine : Nat
  engNum : Nat
  mstep : Nat
  msv : Bool
  estat : Word
  dfcause : Byte
  dfaddr : Word
  time : Nat
  deriving DecidableEq, Repr

/-- Where a team stands (R20, R307, R315, R318). -/
inductive TeamStatus where
  | resident
  | stopping
  | suspended
  | staged
  /-- Waits on a FAULT decision, with its FNEED (R246). -/
  | faultWait (fneed : Nat)
  /-- An Understudy, or a replica stopped for a vote (R368). -/
  | voting
  | ended
  deriving DecidableEq, Repr

/-- What a stop is for (R385). -/
inductive StopFor where
  | none
  | preempt
  | fault (fneed : Nat)
  | retire
  | test
  | restart
  | vote
  | freeze
  | discard
  deriving DecidableEq, Repr

/-- A shadow page of a replica (R364, R367): page frame, bytes written, signature. -/
structure Shadow where
  page : Nat
  cells : List (Nat × Byte)
  psig : Word
  /-- Poisoned 64 B units (R358). -/
  poison : List Nat
  /-- This replica has written to the frame (R367). -/
  wrote : Bool := false
  /-- The virtual page through which a page table led a store here: none through the heap window (R367). -/
  va : Option Nat := none
  deriving DecidableEq, Repr

/-- An entry of a P2 team's paired log (R366). -/
structure LogEntry where
  thrIx : Nat
  req : List Nat
  res : Word
  /-- What presented it: 0 the execute stream, 1 an atomic of the access stream, 2 an mbput. -/
  kind : Nat := 0
  deriving DecidableEq, Repr

/-- One team, or one replica of a P2 team (rep 0 or 1), or an Understudy (rep 2). -/
structure Team where
  id : Nat
  part : Nat
  task : Nat
  ix : Nat
  rep : Nat
  chip : Nat
  home : Nat
  status : TeamStatus
  stopFor : StopFor
  mb : Vector Word 8
  /-- Mailbox values at dispatch (R368). -/
  mbLaunch : Vector Word 8
  mig : Bool
  since : Nat
  shadow : List Shadow
  heldPages : List Nat
  log : List LogEntry
  /-- Mailbox writes the pair's threads have seen: thread, ordinal, mailbox, value (R366). -/
  mbLog : List (Nat × Nat × Nat × Word)
  trapRec : Option TrapRec
  /-- Vote position (Pair.lean); the suspect replica; Understudy starts (R368, R369). -/
  votePos : Nat
  suspect : Option Nat
  starts : Nat
  agreedEnd : Bool
  /-- Halted for the debugger (R399). -/
  dbgHalt : Bool
  /-- A staged team: the team whose stop it waits for (R312); a move under way: its target chiplet (R316). -/
  awaits : Option Nat
  moving : Option Nat
  /-- Its home is a chiplet to which a REBALANCE has moved it since its image was cut (R394). -/
  moved : Bool := false
  /-- Its image in the context area is damaged (R393). -/
  badImage : Bool := false
  /-- A PREEMPT committed the stop that is under way (R311). -/
  byPreempt : Bool := false
  /-- Class of the chiplet its image was cut on: N-class (R389). -/
  classN : Bool
  deriving DecidableEq, Repr

/-- A validated kernel image (R73, R74, R339): the two code sections with their virtual bases, the data copy, the
resource declarations. -/
structure KImage where
  threads : Nat
  vregs : Nat
  rotN : Nat
  accs : Nat
  spadUnits : Nat
  pclass : Nat
  qx : Bool
  abase : Nat
  acode : List Byte
  ebase : Nat
  ecode : List Byte
  dbase : Nat
  dlen : Nat
  deriving DecidableEq, Repr

/-- An entry of the table of validated images (R339). -/
structure ImageEntry where
  part : Nat
  addr : Word
  img : KImage
  deriving DecidableEq, Repr

/-- The states of a task (R307). -/
inductive TaskState where
  | queued
  | head
  | running
  /-- Ended by firmware or the Stage Manager with this CODE and DETAIL (R308, R322, R370, R382); TASK_END completes it. -/
  | ending (code detail : Nat)
  | ended
  deriving DecidableEq, Repr

/-- A task (R19). -/
structure Task where
  id : Nat
  part : Nat
  queue : Nat
  seq : Nat
  troupe : Bool
  state : TaskState
  img : KImage
  pclass : Nat
  caps : Nat
  nteams : Nat
  pin : Bool
  deps : List (Word × Word)
  /-- Dependences that have been read and were satisfied (R308). -/
  depsMet : Nat
  /-- Mailboxes of the teams not yet dispatched, from team index 0 (R19, R93). -/
  mbs : List (Vector Word 8)
  next : Nat
  endedTeams : List Nat
  record : Nat
  /-- The COMMAND connection of its record (R336). -/
  conn : Nat
  launch : List Byte
  restarts : Nat
  /-- Team that raised the failure of a restart under way; then the teams to dispatch again (R362). -/
  restart : List Nat
  avoid : List Nat
  enqueued : Nat
  /-- Physical address of the dependence on which a watch is armed (R308). -/
  watch : Option Nat
  deriving DecidableEq, Repr

/-- Collective progress of a record (R189-R191, R377): the group table read at start, the record's round in its epoch, the
sources received by rank, its own among them, and when frames last came and went. -/
structure CollState where
  rank : Nat
  epoch : Word
  nodes : List Word
  ports : List Nat
  round : Nat
  sources : List CollFrame
  /-- A matched record differs (R190). -/
  bad : Bool
  lastRecv : Nat
  lastSent : Nat
  deriving DecidableEq, Repr

/-- Where an engine record stands (R183, R205, R392). -/
inductive EngStatus where
  /-- Reserved by a push inside a region; no position in the queue. -/
  | held
  | queued
  | running
  /-- Taken into a team image (R385). -/
  | imaged
  | done
  deriving DecidableEq, Repr

/-- An engine record (R185, R192, R392). -/
structure EngRec where
  id : Nat
  part : Nat
  eng : Nat
  tid : Nat
  /-- The pusher: task, team index, thread index. -/
  owner : Nat × Nat × Nat
  words : List Word
  seq : Nat
  bytes : Nat
  status : EngStatus
  faulted : Bool
  faddr : Word
  code : Nat
  detail : Nat
  coll : Option CollState
  gate : Option Gate := none
  /-- Bytes of a source unit that have been read and not yet written, with their poison marks (R187, R290, R296). -/
  ahead : List (Byte × Bool) := []
  /-- An engine has taken it (R192, R392). -/
  started : Bool := false
  deriving DecidableEq, Repr

/-- A cue image (R252): entries and code. -/
structure CueImage where
  entries : List Nat
  code : List (BitVec 16)
  deriving DecidableEq, Repr

/-- A candidate of a view (R246), by field number. -/
abbrev ViewRow := List Nat

/-- A decision that a cue program is running (R238-R249), with the view it was given. -/
structure CueRun where
  active : Bool
  kind : Nat
  pc : Nat
  c : Vector Word32 8
  code : List (BitVec 16)
  prefixed : Option (BitVec 11)
  picked : Option Word32
  places : List (Word32 × Word32)
  trips : Nat
  start : Nat
  steps : Nat
  cycles : Nat
  cands : List ViewRow
  /-- Team or task each candidate stands for. -/
  subjects : List Nat
  chips : List ViewRow
  /-- FIT of each chiplet for each candidate. -/
  fits : List (List Nat)
  globs : List Nat
  /-- Task or team whose PREEMPT this is (R311). -/
  raiser : Nat
  deriving DecidableEq, Repr

/-- A pending decision (R237, R309): kind, and the team it concerns (FAULT) or the raising candidate (PREEMPT). -/
structure Pending where
  kind : Nat
  subject : Nat
  deriving DecidableEq, Repr

/-- CUESTAT (R255), by field. -/
structure CueStat where
  decisions : BitVec 24
  refuse : Byte
  overrun : Byte
  consec : BitVec 5
  disabled : Bool
  swapPend : Bool
  gen : Byte
  /-- Swaps accepted while one waited for the next decision (R254, log 33). -/
  moreSwaps : Nat := 0
  deriving DecidableEq, Repr

/-- A queue of a partition (R305): parameters. -/
structure QueueCfg where
  prio : BitVec 4
  limit : Nat
  enabled : Bool
  resident : Bool
  launches : Nat
  deriving DecidableEq, Repr

/-- One journal entry (R403). -/
structure JEntry where
  type : Byte
  jseq : Nat
  rpseq : Word
  rpdur : Word
  time : Nat
  arg : Word
  deriving DecidableEq, Repr

/-- A snapshot slot (R404): the commit record with its table of (CRC, sequence) and the segments' bytes. -/
structure Slot where
  valid : Bool
  version : Nat
  slot : Nat
  part : Nat
  seq : Word
  nseg : Nat
  time : Nat
  pbix : Word
  tcrc : Word
  table : List (Word32 × Word)
  segs : List Cells
  deriving DecidableEq, Repr

/-- A commit in progress (R405, R406): target slot and granules; those whose frames are not all copied yet, in order, and the frames
of these that a write has had copied first. -/
structure Commit where
  seq : Word
  slot : Nat
  granules : List Nat
  /-- A unit of the frames to copy is poisoned (R407). -/
  poisoned : Bool
  todo : List Nat := []
  copied : List Nat := []
  deriving DecidableEq, Repr

/-- A write to a checkpoint domain that no RCV release covers yet (R302): who wrote, and the bytes it replaced, by address. -/
structure LooseWrite where
  owner : Option Nat
  old : List (Nat × Byte)
  deriving DecidableEq, Repr

/-- A checkpoint domain (R401, R403). -/
structure Domain where
  workVA : Nat
  nwork : Nat
  npb : Nat
  pbva : Nat
  granules : List Nat
  pbGranules : List Nat
  slot0 : Slot
  slot1 : Slot
  cur : List Nat
  prev : List Nat
  journal : List JEntry
  jseq : Nat
  commit : Option Commit
  /-- Granules whose writes the stop-mode stall of a commit holds, each with the TIME at which that stall ends (R406). -/
  held : List (Nat × Nat)
  /-- Writes that a die reset may undo, newest first (R302). -/
  loose : List LooseWrite
  partner : Option (Word × Nat)
  deriving DecidableEq, Repr

/-- The recovery-point registers (R210, R214). -/
structure RpRegs where
  rpseq : Word
  rpdur : Word
  rppar : Word
  pblost : Bool
  cfail : Bool
  torn : Bool
  feed : Bool
  state : BitVec 2
  deriving DecidableEq, Repr

/-- A shared range and its owner (R287). -/
structure SharedRange where
  va : Nat
  len : Nat
  device : Bool
  deriving DecidableEq, Repr

/-- A partition (R304, R305). -/
structure Partition where
  present : Bool
  frozen : Bool
  quota : Nat
  usedFrames : Nat
  /-- Frames that the memory firmware has allocated to the partition, and those of its page table (R280, R304). -/
  frames : List Nat
  tables : List Nat
  heapPA : Nat
  heapLen : Nat
  queues : Vector QueueCfg 64
  troupes : Nat
  rebal : Nat
  starve : Nat
  nimg : Nat
  params : Word
  dirtyOn : Bool
  dirtyActive : List Nat
  dirtyIdle : List Nat
  ptRoot : Nat
  ranges : List SharedRange
  demand : List (Nat × Nat)
  handler : Option (Nat × Nat)
  debugger : Bool
  stopSh : Bool
  trapImage : Option (Team × Task × List Thread)
  cueActive : Option CueImage
  cueStandby : Option CueImage
  cueStat : CueStat
  run : CueRun
  pending : List Pending
  lastQ : Nat
  preempts : Nat
  moves : Nat
  /-- TIME at which REBALANCE was last raised (R237), and the cores each queue used in the latest intervals of TIME: end,
  length, and (queue, cores) (R246 QUSE). -/
  lastRebal : Nat := 0
  usage : List (Nat × Nat × List (Nat × Nat)) := []
  /-- Reasons of the decisions that ended by deny, newest last (R245). -/
  decisionLog : List Nat
  rp : RpRegs
  domain : Option Domain
  deriving DecidableEq, Repr

/-- An ensemble (R29, R201): members with their arrival, barriers completed. A member is a (task, team index, thread
index); a P2 pair is one member (R204). -/
structure Ensemble where
  slot : Nat
  gen : Nat
  part : Nat
  members : List ((Nat × Nat × Nat) × Bool)
  done : Nat
  deriving DecidableEq, Repr

/-- A TLB entry (R282): partition, virtual base, size, the leaf entry. -/
structure TlbEntry where
  va : Nat
  size : Nat
  pte : Word
  pteAddr : Nat
  deriving DecidableEq, Repr

/-- A watch of a semaphore cache: the counter, its latest value, and the thread that waits (R197). -/
structure Watch where
  pa : Nat
  tid : Nat
  value : Word
  deriving DecidableEq, Repr

/-- A core (R14, R304, R371): owner, suspicion, test, TLB and semaphore cache. -/
structure Core where
  owner : Option Nat
  score : BitVec 4
  retired : Bool
  pass : Bool
  testing : Bool
  /-- An override has set the score of this retired core below RETIRE (R373). -/
  cleared : Bool
  tlb : List TlbEntry
  watches : List Watch
  /-- The context that the vector engine ran last, and the one that the matrix engine ran last with how many of its commands in a
  row: the latch in the array is that thread's (R324). -/
  vecLast : Nat := 3
  matLast : Nat := 3
  matRun : Nat := 0
  deriving DecidableEq, Repr

/-- Where a command record stands (R335, R344, R345). -/
inductive RecStatus where
  /-- In the ingress buffer: firmware has not started it. -/
  | buffered
  /-- In its queue, or a control record not yet started. -/
  | waiting
  | started
  | done
  deriving DecidableEq, Repr

/-- A command record (R333): its 128 bytes and the data that follows it (R339). -/
structure HRec where
  id : Nat
  conn : Nat
  part : Nat
  queue : Nat
  kind : Nat
  raw : List Byte
  data : List Byte
  status : RecStatus
  started : Nat
  /-- Physical address of the semaphore that a started WAIT watches (R341). -/
  watch : Option Nat
  /-- Bytes that a HOST_COPY to the device has moved (R341). -/
  moved : Nat := 0
  /-- What the partner has sent to a RESTORE (R413). -/
  fetched : Option Replica := none
  deriving DecidableEq, Repr

/-- Who watches a counter: a thread in swait, a queue head's dependence, a WAIT record (R197, R308, R341). -/
inductive Watcher where
  | thread (tid : Nat)
  | task (id : Nat)
  | record (id : Nat)
  deriving DecidableEq, Repr

/-- A far unit's notice on its way: the counter, its value, and whom it goes to (R197). -/
structure Notice where
  pa : Nat
  value : Word
  dest : Watcher
  deriving DecidableEq, Repr

/-- What a DATA message that the device sends carries. -/
inductive Payload where
  | bytes (l : List Byte)
  | peer (x : PeerMsg)
  deriving DecidableEq, Repr

/-- A Clovo connection (R330-R332): next PSN expected and next PSN to send; messages kept until acknowledged, of which
`flight` have been sent; the window granted to this side; acknowledgments owed; attempts since the last answer; when it
last sent; until when NAK FULL holds this side back, and the other side. -/
structure Conn where
  id : Nat
  port : Nat
  node : Word
  chan : Nat
  isOpen : Bool
  closing : Bool
  lost : Bool
  rx : Word32
  tx : Word32
  unacked : List (Word32 × Payload)
  flight : Nat
  win : Nat
  owed : Nat
  tries : Nat
  sentAt : Nat
  holdUntil : Nat
  refuseUntil : Nat
  /-- Data bytes of the latest HOST_COPY still to come, and its record unless it was rejected (R339). -/
  dataDue : Nat
  dataRec : Option Nat
  deriving DecidableEq, Repr

/-- What the module sends (R328-R331, R336, R377, R412), newest last. -/
inductive Out where
  /-- A Clovo message; its bytes on the wire are those of clovoBytes (R329). -/
  | clovo (port : Nat) (type : Nat) (chan : Nat) (psn apsn : Word32) (win retry reason : Nat) (src dst : Word) (payload : List Byte)
  /-- DATA on COLLECTIVE or REPLICA. -/
  | peer (port : Nat) (chan : Nat) (psn : Word32) (src dst : Word) (x : PeerMsg)
  | arpReply (port : Nat) (mac : BitVec 48) (ip : BitVec 32)
  | neighbourAdvert (port : Nat) (mac : BitVec 48) (ip : BitVec 128)
  deriving DecidableEq, Repr

/-- The power states (R353). -/
inductive Power where
  | ps0
  | ps1
  | ps2
  | ps3
  deriving DecidableEq, Repr

/-- A firmware core (R346): retention and its inbound mailbox of 32 messages. -/
structure FwCore where
  retention : Bool
  wake : Bool
  mailbox : List (Nat × List Byte)
  /-- TIME at which it last had something to do. -/
  idleAt : Nat := 0
  deriving DecidableEq, Repr

/-- What a partner keeps for a (node, partition) (R412). -/
structure ReplicaSlot where
  node : Word
  part : Nat
  slot0 : Slot
  slot1 : Slot
  deriving DecidableEq, Repr

/-- The sealed part of the configuration block (R351): the scores by core index, which calibration the stored trims come from, the
failure counts, and the serial number of the latest override list applied. -/
structure SealedPart where
  scores : List (BitVec 4)
  trims : Nat
  warmFails : Nat
  coldFails : Nat
  serial : Nat
  deriving DecidableEq, Repr

def SealedPart.zero : SealedPart := { scores := List.replicate 192 0, trims := 0, warmFails := 0, coldFails := 0, serial := 0 }

/-- A copy of the sealed part: its place in the order of writing, and whether its HMAC-SHA-256 verifies, which it does not while a
write of it is under way or was cut off (R351). -/
structure SealedCopy where
  order : Nat
  sound : Bool
  part : SealedPart
  deriving DecidableEq, Repr

/-- What concerns the module as a whole: power and start (R352, R353, R416), thermal (R354), configuration (R351),
connection table (R347), firmware cores (R346), TIME (R210), tests (R374), telemetry. -/
structure Module where
  power : Power
  /-- The host port is open (R352 step 6). -/
  portOpen : Bool
  /-- A reset or start is in progress (R416), and whether the start to come is a cold start. -/
  inReset : Bool
  coldDue : Bool
  hot : Bool
  tripped : Bool
  safeMode : Bool
  warmFails : Nat
  coldFails : Nat
  cfg : ConfigBlock
  nextCfg : Option ConfigBlock
  appliedSerial : Nat
  /-- The sealed part: its two copies, the copy whose write is under way, and the calibration in use (R351). -/
  seal0 : SealedCopy := { order := 0, sound := true, part := SealedPart.zero }
  seal1 : SealedCopy := { order := 0, sound := true, part := SealedPart.zero }
  sealing : Option Nat := none
  trims : Nat := 0
  /-- Lit circuits (die A, die B, N64). -/
  circuits : List (Nat × Nat × Nat)
  /-- Raised entries not yet lit, with the record that waits for them (R348). -/
  raising : List (Nat × Nat × Nat)
  raisingRec : Option Nat
  fw : Vector FwCore 8
  time : Nat
  testNext : Nat
  testTime : Nat
  /-- A periodic test fell due in PS1 or PS2 (R374). -/
  testDue : Bool
  /-- Frames dropped and corrected errors (R328, R358). -/
  dropped : Nat
  corrected : Nat
  /-- Fabric flits sent again (R358). -/
  retries : Nat := 0
  /-- C-cycles of powered time since the scores were halved (R371), and TIME at which the latest in-field test fell due (R374). -/
  powered : Nat := 0
  testAt : Nat := 0
  /-- TIME at which there last was a resident team, a record in progress or an engine record (R353). -/
  busyAt : Nat := 0
  errorLog : List Nat
  deriving DecidableEq, Repr

/-- Who moves next (log 2). -/
inductive Turn where
  | event (e : Instr)
  | issue (tid : Nat) (st : Stream)
  | cue (part : Nat)
  deriving DecidableEq, Repr

/-- A place for one team: its chiplet, and the core of each thread (R313). -/
structure Place where
  chip : Nat
  cores : List Nat
  deriving DecidableEq, Repr

/-- The TROUPE that runs: its record, and the parts reserved so far in table order, each with its task as it will start and
the places of its teams (R35, R340). -/
structure Troupe where
  record : Nat
  parts : List (Task × List (Nat × List Place))
  deriving DecidableEq, Repr

/-- The state of the module. -/
structure State where
  /-- The thread context selected for issue, and the stream that issues (log 3). -/
  thr : Thread
  cur : Stream
  others : List Thread
  teams : List Team
  tasks : List Task
  parts : Vector Partition 8
  /-- The partition whose cue decision runs in this step. -/
  curPart : Nat
  cores : Vector Core 192
  /-- Memory by device physical address (R274), and its poisoned 64 B units (R358). -/
  mem : Cells
  poison : List Nat
  ensembles : List Ensemble
  /-- Uses of each ensemble slot since the module's start (R201). -/
  ensUses : List (Nat × Nat)
  /-- Generations that IMAGE_IN has put into a slot since the module's start: slot and GEN (R201, R393). -/
  ensGens : List (Nat × Nat) := []
  eng : List EngRec
  /-- The partition that each engine number served last (R183). -/
  engLast : List (Nat × Nat) := []
  /-- Collective frames that arrived before their record started (R190). -/
  frames : List CollFrame
  /-- Records started in each round sequence: epoch, kind (0 ring, 1 send, 2 receive), partner node (R190). -/
  rounds : List ((Word × Nat × Word) × Nat)
  recs : List HRec
  images : List ImageEntry
  conns : List Conn
  out : List Out
  replicas : List ReplicaSlot
  /-- Far-unit notices on the fabric, in send order (R197, R349). -/
  notices : List Notice
  /-- REBALANCE messages on the fabric in send order: the team, and the chiplet it goes to (R316, R349). -/
  fabric : List (Nat × Nat) := []
  mod : Module
  /-- Firmware's frame allocator: next frame downward from the top of HBM4, the free ranges above it, and the ranges (base, length) of the zeroing list (R288, log 12). -/
  frameNext : Nat
  framePool : List (Nat × Nat)
  zeroing : List (Nat × Nat)
  /-- Next free address of the image area (R74, log 12). -/
  imageNext : Nat
  nextId : Nat
  /-- The TROUPE that runs (R340). -/
  troupe : Option Troupe
  /-- The oracle (log 2), the rotation of R27, and the counter of free values. -/
  sched : List Turn
  rotation : Nat
  freeCtr : Nat
  /-- The oracle's choices inside a step, where the spec lets several things happen first (log 2). -/
  picks : List Nat := []
  /-- Accesses that have taken a place in the issue order of what waits for a bank (R109). -/
  stamp : Nat := 0
  deriving DecidableEq, Repr


/-! ### The module after a cold start

State.reset is the module at the moment a cold start succeeds (R352): PS0, the host port open, no partition, no task,
TIME 0. Values the spec gives no reset value for are named in log 15 (configuration block) and log 16 (registers). -/

/-- A stream that has ended. -/
def StreamState.blank : StreamState :=
  { pc := 0, ended := true, loops := Vector.replicate 4 { lc := 0, start := 0, endA := 0, epi := 0, active := false }
    order := [], marks := [], stall := .no, stopped := false }

/-- No traffic. -/
def Traffic.zero : Traffic := { ldq := Vector.replicate 4 0, bq := 0, xq := 0 }

/-- Empty queues. -/
def Queues.empty : Queues :=
  { ldq := Vector.replicate 4 [], saq := [], sdq := [], bq := [], xq := [], saqTot := 0, sdqTot := 0, paired := 0
    pushed := Traffic.zero, popped := Traffic.zero, loads := [], xfers := [], holdCmdix := 0
    execMarks := 0, pairsFormed := 0 }

/-- TSTAT at dispatch for class P0 (R212). -/
def TStat.zero : TStat :=
  { crcause := 0, df := false, ulih := false, uim := false, promo := false, cropen := false, rdy := false
    pclass := 0, plvl := false, lvl := false }

/-- The system registers at their reset values (R209-R213). -/
def SysRegs.zero : SysRegs :=
  { tcause := 0, taddr := 0, tpc := 0, txpc := 0, tvec := 0, tscr := Vector.replicate 4 0, tstat := TStat.zero, crhnd := 0
    ulivec := 0, uliret := 0, hbase := 0, hlimit := 0, hoff := 0, dbase := 0, sigv := 0, sigs := 0
    pcnt := Vector.replicate 16 0, psel := Vector.replicate 16 0, frozenCause := 0, frozenAddr := 0, sawCause := false, sawAddr := false }

/-- An empty weight latch and interpolation table (R39, R149, R174). -/
def Latch.empty : Latch := { fmt := .empty, groupY := false, poison := false, bytes := [], factors := [] }
def Table.empty : Table := { lo := 0, scale := 0, ctl := 0, nseg := 0, segs := [] }
def Acc.zero : Acc := { vis := [], work := [], visPoison := [], workPoison := [] }
def MatStatus.zero : MatStatus := { passes := 0, skips := 0, cskip := false }

/-- A thread context that holds no thread; SHP has its value at dispatch, 0x4_007F (R123). -/
def Thread.blank : Thread :=
  { tid := 0, live := false, resident := false, part := 0, task := 0, team := 0, teamIx := 0, thrIx := 0, rep := 0
    core := 0, ctx := 0, vregs := 0, rotN := 0, accs := 0, spadSize := 0, ex := StreamState.blank
    ax := StreamState.blank, g := Vector.replicate 32 0, gi := Vector.replicate 8 0, h := Vector.replicate 16 0
    p := Vector.replicate 16 0, v := [], q := [], z := [], acc := Vector.replicate 6 Acc.zero, latch := Latch.empty
    mat := MatStatus.zero, table := Table.empty, spill := [], spad := [], spadPoison := [], vbase := 0, pbase := 0
    shp := 0x4007F, qs := Queues.empty, vq := [], mq := [], cmdix := 0, cmdHold := none, loopP := [], regionCmdix := 0, uli := [], ovf := false, wait := .none
    trap := none, walk := [], pf := [], mbView := Vector.replicate 8 0, sys := SysRegs.zero, snapG := [], snapH := [], openMark := 0, unwindDue := [], held := []
    wings := [], ordinal := 0, pairReq := none, pairRes := none, forced := false, logIx := 0, stallCount := 0
    halted := false, brkAt := none, stepping := none, stepFrom := none, ended := false }

/-- A decision that is not running. -/
def CueRun.idle : CueRun :=
  { active := false, kind := 0, pc := 0, c := Vector.replicate 8 0, code := [], prefixed := none, picked := none
    places := [], trips := 0, start := 0, steps := 0, cycles := 0, cands := [], subjects := [], chips := [], fits := []
    globs := [], raiser := 0 }

/-- CUESTAT at reset (R255). -/
def CueStat.zero : CueStat :=
  { decisions := 0, refuse := 0, overrun := 0, consec := 0, disabled := false, swapPend := false, gen := 0 }

/-- The recovery-point registers at reset (R210, R214). -/
def RpRegs.zero : RpRegs :=
  { rpseq := 0, rpdur := 0, rppar := 0, pblost := false, cfail := false, torn := false, feed := false, state := 0 }

/-- A partition number that no PART_CREATE has made. -/
def Partition.absent : Partition :=
  { present := false, frozen := false, quota := 0, usedFrames := 0, frames := [], tables := [], heapPA := 0, heapLen := 0
    queues := Vector.replicate 64 { prio := 0, limit := 0, enabled := false, resident := false, launches := 0 }
    troupes := 0, rebal := 0, starve := 0, nimg := 0, params := 0, dirtyOn := false, dirtyActive := [], dirtyIdle := []
    ptRoot := 0, ranges := [], demand := [], handler := none, debugger := false, stopSh := false, trapImage := none
    cueActive := none, cueStandby := none, cueStat := CueStat.zero, run := CueRun.idle, pending := [], lastQ := 63
    preempts := 0, moves := 0, decisionLog := [], rp := RpRegs.zero, domain := none }

/-- A core in service that no self-test has run on (R352, R371, R376). -/
def Core.fresh : Core :=
  { owner := none, score := 0, retired := false, pass := false, testing := false, cleared := false, tlb := [], watches := [] }

/-- The configuration block of a module as this model starts it (log 15): RETIRE 8, TESTINT 60 and the Clovo port are
the defaults of R371, R374 and R329; the default connection table joins every die to the I/O die. -/
def ConfigBlock.initial : ConfigBlock :=
  { raw := [], node := 1, clovoPort := 50312, macs := Vector.replicate 9 0, ips := [], ip6s := [], hosts := [(2, 255)], peers := [3], feed := 0
    retire := 8, testInt := 60, table := (List.range 16).map fun k => (k, 16, 3), overrides := [], serial := 0
    replicaSpace := [] }

/-- The module as a whole after a cold start. -/
def Module.initial : Module :=
  { power := .ps0, portOpen := true, inReset := false, coldDue := false, hot := false, tripped := false, safeMode := false, warmFails := 0
    coldFails := 0, cfg := ConfigBlock.initial, nextCfg := none, appliedSerial := 0, circuits := ConfigBlock.initial.table
    raising := [], raisingRec := none, fw := Vector.replicate 8 { retention := false, wake := false, mailbox := [] }
    time := 0, testNext := 0, testTime := 0, testDue := false, dropped := 0, corrected := 0, errorLog := [] }

/-- The machine right after reset: a cold start has just succeeded, every core passing its self-test (R352, R353, R376). -/
def State.reset : State :=
  { thr := Thread.blank, cur := .execute, others := [], teams := [], tasks := []
    parts := Vector.replicate 8 Partition.absent, curPart := 0, cores := Vector.replicate 192 { Core.fresh with pass := true }, mem := []
    poison := [], ensembles := [], ensUses := [], eng := [], frames := [], rounds := [], recs := [], images := [], conns := [], out := []
    replicas := [], notices := [], mod := Module.initial, frameNext := 0x17FFFFFF000, framePool := [], zeroing := []
    imageNext := 0x100000000000000, nextId := 1, troupe := none, sched := [], rotation := 0, freeCtr := 0 }

end Sys2Proof.Machine
end

