-- ==== Sys2Proof/Machine/Bits.lean ====
section
/-!
DEFINITION. Bytes, little-endian numbers (R2), sparse arrays in canonical form, the CRCs of R147 and R404, and updates of
vectors by number.
-/

namespace Sys2Proof.Machine

/-! ### Vectors by number -/

/-- Entry i, or d beyond the end. -/
def nth {α : Type} {n : Nat} (v : Vector α n) (i : Nat) (d : α) : α := v[i]?.getD d

/-- v with entry i replaced; v itself beyond the end. -/
def upd {α : Type} {n : Nat} (v : Vector α n) (i : Nat) (x : α) : Vector α n := v.setIfInBounds i x

/-- v with entry i rewritten. -/
def modNth {α : Type} {n : Nat} (v : Vector α n) (i : Nat) (f : α → α) : Vector α n :=
  match v[i]? with
  | some x => v.setIfInBounds i (f x)
  | none => v

/-! ### Little-endian numbers -/

/-- The number whose bytes these are, least significant first (R2). -/
def leNat : List Byte → Nat
  | [] => 0
  | b :: r => b.toNat + 256 * leNat r

/-- The n low bytes of v, least significant first. -/
def leBytes : Nat → Nat → List Byte
  | 0, _ => []
  | n + 1, v => BitVec.ofNat 8 v :: leBytes n (v / 256)

/-- Bits [lo+n-1 : lo] of a number. -/
def bitsOf (v lo n : Nat) : Nat := v / 2 ^ lo % 2 ^ n

/-- v read as two's complement of n bits. -/
def signed (v n : Nat) : Int := if v % 2 ^ n < 2 ^ (n - 1) then (v % 2 ^ n : Nat) else (v % 2 ^ n : Nat) - (2 ^ n : Nat)

/-- An integer modulo 2^n. -/
def wrapInt (x : Int) (n : Nat) : Nat := (x % (2 ^ n : Nat)).toNat

/-- sext of R8: the low n bits of v, sign-extended to 64. -/
def sextW (v n : Nat) : Word := BitVec.ofInt 64 (signed v n)

/-! ### Sparse arrays -/

/-- What a byte of a sparse array holds; an unlisted byte holds zero (log 1). -/
def getCell : Cells → Nat → Byte
  | [], _ => 0
  | (k, v) :: r, a => if k == a then v else if a < k then 0 else getCell r a

/-- Writing one byte keeps the list strictly rising and free of zeros. -/
def setCell : Cells → Nat → Byte → Cells
  | [], a, x => if x == 0 then [] else [(a, x)]
  | (k, v) :: r, a, x =>
    if k == a then (if x == 0 then r else (a, x) :: r)
    else if a < k then (if x == 0 then (k, v) :: r else (a, x) :: (k, v) :: r)
    else (k, v) :: setCell r a x

/-- n bytes from a upward. -/
def getCells (m : Cells) (a n : Nat) : List Byte := (List.range n).map fun i => getCell m (a + i)

/-- Bytes written from a upward. -/
def setCells : Cells → Nat → List Byte → Cells
  | m, _, [] => m
  | m, a, b :: r => setCells (setCell m a b) (a + 1) r

/-- The canonical form: strictly rising addresses, all at least lo, and no zero. -/
def cellsFrom : Nat → Cells → Bool
  | _, [] => true
  | lo, (k, v) :: r => decide (lo ≤ k) && v != 0 && cellsFrom (k + 1) r

/-- The canonical form of memory and of every sparse byte array. -/
def Memory.wf (m : Cells) : Bool := cellsFrom 0 m

/-- A little-endian number of n bytes at a. -/
def getLe (m : Cells) (a n : Nat) : Nat := leNat (getCells m a n)

/-- The same for arrays of 32-bit elements (accumulator banks). -/
def getCell32 : Cells32 → Nat → Word32
  | [], _ => 0
  | (k, v) :: r, a => if k == a then v else if a < k then 0 else getCell32 r a

def setCell32 : Cells32 → Nat → Word32 → Cells32
  | [], a, x => if x == 0 then [] else [(a, x)]
  | (k, v) :: r, a, x =>
    if k == a then (if x == 0 then r else (a, x) :: r)
    else if a < k then (if x == 0 then (k, v) :: r else (a, x) :: (k, v) :: r)
    else (k, v) :: setCell32 r a x

/-! ### Sets of numbers, as rising lists -/

def insertNat : List Nat → Nat → List Nat
  | [], a => [a]
  | k :: r, a => if a < k then a :: k :: r else if a == k then k :: r else k :: insertNat r a

/-! ### CRCs -/

/-- One bit of crc64 (R147). -/
def crc64Bit (s : Word) : Word := if s.msb then (s <<< 1) ^^^ 0x42F0E1EBA9EA3693#64 else s <<< 1

def iterate {α : Type} : Nat → (α → α) → α → α
  | 0, _, x => x
  | n + 1, f, x => iterate n f (f x)

/-- crc64(s, b) of R147. -/
def crc64 (s : Word) : List Byte → Word
  | [] => s
  | b :: r => crc64 (iterate 8 crc64Bit (s ^^^ (b.zeroExtend 64 <<< 56))) r

/-- One bit of CRC-32C: reflected, polynomial 0x1EDC6F41. -/
def crc32cBit (s : Word32) : Word32 := if s.getLsbD 0 then (s >>> 1) ^^^ 0x82F63B78#32 else s >>> 1

def crc32cRun (s : Word32) : List Byte → Word32
  | [] => s
  | b :: r => crc32cRun (iterate 8 crc32cBit (s ^^^ b.zeroExtend 32)) r

/-- CRC-32C: initial value and final xor all ones (R389, R403, R404). -/
def crc32c (bs : List Byte) : Word32 := ~~~ crc32cRun (BitVec.allOnes 32) bs

end Sys2Proof.Machine
end

