-- ==== Sys2Proof/Machine/Ops.lean ====
section
/-!
DEFINITION. The shared operations: who is selected, the streams and registers of a thread, completing and stalling an
instruction (R25, R76, R88), marks and regions (R106, R223), taking a trap and unwinding a region (R219, R221, R227),
and requests to the Stage Manager.
-/

namespace Sys2Proof.Machine

/-- What a meaning answers. -/
abbrev Result := Host.Outcome State Fault Refusal

/-! ### Threads, teams, tasks, partitions, cores -/

def State.threads (s : State) : List Thread := s.thr :: s.others

def mapThreads (s : State) (f : Thread → Thread) : State := { s with thr := f s.thr, others := s.others.map f }

def modTid (s : State) (tid : Nat) (f : Thread → Thread) : State :=
  mapThreads s fun t => if t.tid == tid then f t else t

def modThr (s : State) (f : Thread → Thread) : State := { s with thr := f s.thr }

/-- Select the thread context of a thread (log 3). -/
def focus (s : State) (tid : Nat) : Option State :=
  if s.thr.tid == tid then some s
  else match s.others.findIdx? (fun t => t.tid == tid) with
    | some k => match s.others[k]? with
      | some t => some { s with thr := t, others := s.others.set k s.thr }
      | none => none
    | none => none

def findTeam (s : State) (id : Nat) : Option Team := s.teams.find? fun u => u.id == id
def modTeam (s : State) (id : Nat) (f : Team → Team) : State :=
  { s with teams := s.teams.map fun u => if u.id == id then f u else u }
def findTask (s : State) (id : Nat) : Option Task := s.tasks.find? fun k => k.id == id
def modTask (s : State) (id : Nat) (f : Task → Task) : State :=
  { s with tasks := s.tasks.map fun k => if k.id == id then f k else k }
def State.part (s : State) (p : Nat) : Partition := nth s.parts p Partition.absent
def modPart (s : State) (p : Nat) (f : Partition → Partition) : State := { s with parts := modNth s.parts p f }
def State.core (s : State) (c : Nat) : Core := nth s.cores c Core.fresh
def modCore (s : State) (c : Nat) (f : Core → Core) : State := { s with cores := modNth s.cores c f }

/-- A counter of free values: the n-th occurrence, and the state with the counter advanced. -/
def fresh (s : State) : Nat × State := (s.freeCtr, { s with freeCtr := s.freeCtr + 1 })

/-! ### Streams -/

def otherStream : Stream → Stream
  | .execute => .access
  | .access => .execute

def Thread.st (t : Thread) : Stream → StreamState
  | .execute => t.ex
  | .access => t.ax

def Thread.setSt (t : Thread) (st : Stream) (x : StreamState) : Thread :=
  match st with
  | .execute => { t with ex := x }
  | .access => { t with ax := x }

def Thread.modSt (t : Thread) (st : Stream) (f : StreamState → StreamState) : Thread := t.setSt st (f (t.st st))

/-- The stream that issues. -/
def State.stream (s : State) : StreamState := s.thr.st s.cur

/-- Address of the instruction that issues. -/
def State.pc (s : State) : Word := s.stream.pc

/-- The selected bank of G24-G31 is the interrupt bank from a delivery to uret (R199, R200). -/
def Thread.irqBank (t : Thread) : Bool := t.sys.tstat.ulih

/-! ### Registers (R48, R54) -/

def readG (t : Thread) (r : Nat) : Word :=
  if r == 0 then 0 else if 24 ≤ r && t.irqBank then nth t.gi (r - 24) 0 else nth t.g r 0

def writeG (t : Thread) (r : Nat) (v : Word) : Thread :=
  if r == 0 then t
  else if 24 ≤ r && t.irqBank then { t with gi := upd t.gi (r - 24) v }
  else { t with g := upd t.g r v }

def readH (t : Thread) (r : Nat) : Word := if r == 0 then 0 else nth t.h r 0

def writeH (t : Thread) (r : Nat) (v : Word) : Thread := if r == 0 then t else { t with h := upd t.h r v }

/-- The general register of the bank that was selected at issue takes a late result (R139, R200). -/
def writeBank (t : Thread) (irq : Bool) (r : Nat) (v : Word) : Thread :=
  if r == 0 then t
  else if 24 ≤ r && irq then { t with gi := upd t.gi (r - 24) v }
  else { t with g := upd t.g r v }

/-- The result of an engine command reaches its register, and every snapshot that the command lies before: those of the marks
that are not paired and of the open region (R223). -/
def lateG (t : Thread) (c : Cmd) (r : Nat) (v : Word) : Thread :=
  let put (l : List Word) : List Word := if 24 ≤ r && c.bank then l else l.set r v
  if r == 0 then t
  else
    let t := writeBank t c.bank r v
    { t with ex := { t.ex with marks := t.ex.marks.map fun m => if c.cmdix < m.cmdix then { m with regs := put m.regs } else m }
             snapG := if c.cmdix < t.regionCmdix then put t.snapG else t.snapG }

/-- The data of a load or an atomic reaches its H register, and every snapshot that the access lies before (R223). -/
def lateH (t : Thread) (marks r : Nat) (v : Word) : Thread :=
  if r == 0 then t
  else
    let t := writeH t r v
    { t with ax := { t.ax with marks := t.ax.marks.zipIdx.map fun m =>
               if marks ≤ t.qs.pairsFormed + m.2 then { m.1 with regs := m.1.regs.set r v } else m.1 }
             snapH := if marks < t.regionMark then t.snapH.set r v else t.snapH }

/-- The register that a field names in the issuing stream (R48). -/
def readReg (s : State) (r : Reg) : Word :=
  match s.cur with
  | .execute => readG s.thr r.toNat
  | .access => readH s.thr r.toNat

def writeReg (s : State) (r : Reg) (v : Word) : State :=
  match s.cur with
  | .execute => { s with thr := writeG s.thr r.toNat v }
  | .access => { s with thr := writeH s.thr r.toNat v }

/-! ### Predicates and rotation (R91) -/

/-- Physical predicate that a name reaches. -/
def physP (t : Thread) (name : Nat) : Nat := if name < 8 then name else 8 + (name - 8 + t.pbase.toNat) % 8

/-- Physical V register that a name reaches. -/
def physV (t : Thread) (name : Nat) : Nat :=
  if 32 ≤ name && name < 32 + t.rotN then 32 + (name - 32 + t.vbase.toNat) % t.rotN else name

/-- Predicate by physical number; P0 is all true (R49, R54). -/
def readP (t : Thread) (p : Nat) : BitVec 8192 := if p == 0 then BitVec.allOnes 8192 else nth t.p p 0

def writeP (t : Thread) (p : Nat) (v : BitVec 8192) : Thread := if p == 0 then t else { t with p := upd t.p p v }

/-- A predicate all true or all false. -/
def fillP (b : Bool) : BitVec 8192 := if b then BitVec.allOnes 8192 else 0#8192

/-- The loop hardware writes a predicate in program order: behind the commands still queued (R88, log 23). -/
def loopWriteP (t : Thread) (p : Nat) (b : Bool) : Thread :=
  if t.vq.isEmpty then writeP t p (fillP b) else { t with loopP := t.loopP ++ [(t.cmdix, p, b)] }

/-- The loop hardware's writes that lie before the oldest queued command take effect. -/
def settleP (t : Thread) : Thread :=
  let due (e : Nat × Nat × Bool) : Bool := match t.vq with
    | [] => true
    | c :: _ => e.1 ≤ c.cmdix
  { (t.loopP.filter due).foldl (fun t e => writeP t e.2.1 (fillP e.2.2)) t with loopP := t.loopP.filter fun e => !due e }

/-- Every write of the loop hardware has taken effect. -/
def allSettled (t : Thread) : Thread := { t.loopP.foldl (fun t e => writeP t e.2.1 (fillP e.2.2)) t with loopP := [] }

/-! ### Completing an instruction -/

/-- PCNT counters that select this event count n (R216). -/
def bump (t : Thread) (code n : Nat) : Thread :=
  { t with sys := { t.sys with pcnt := Vector.ofFn fun i : Fin 16 =>
      if (t.sys.psel[i]).toNat % 256 == code then t.sys.pcnt[i] + BitVec.ofNat 64 n else t.sys.pcnt[i] } }

/-- Something of the thread has moved: what a stream was last seen to wait for may be there (R26). -/
def Thread.stir (t : Thread) : Thread :=
  { t with ex := { t.ex with stall := .no }, ax := { t.ax with stall := .no }, stallCount := 0 }

/-- The issue of one instruction ends the stalls of its thread, whose other stream may now go on too, and is counted (R26,
R216). -/
def Thread.issued (t : Thread) (st : Stream) : Thread :=
  let t := { t.stir with stepping := none }
  bump t (match st with | .execute => 0x02 | .access => 0x03) 1

def setLoop (x : StreamState) (l : Nat) (v : LoopLevel) : StreamState := { x with loops := upd x.loops l v }

def getLoop (x : StreamState) (l : Nat) : LoopLevel :=
  nth x.loops l { lc := 0, start := 0, endA := 0, epi := 0, active := false }

/-- Rotation at a loop-back of the execute stream (R88). -/
def rotate (t : Thread) : Thread :=
  { t with vbase := if t.rotN == 0 then 0 else BitVec.ofNat 6 ((t.vbase.toNat + t.rotN - 1) % t.rotN)
           pbase := t.pbase - 1 }

/-- The check of R88 for the active levels whose END is the address of the instruction's last word, innermost first. -/
def loopCheck (t : Thread) (st : Stream) (last next : Word) : List Nat → Thread
  | [] => t.modSt st fun x => { x with pc := next }
  | l :: rest =>
    let v := getLoop (t.st st) l
    if v.active && v.endA == last then
      if 1 < v.lc.toNat then
        let t := t.modSt st fun x => { setLoop x l { v with lc := v.lc - 1 } with pc := v.start }
        match st with
        | .access => t
        | .execute =>
          let t := rotate t
          if v.epi == 0 then t else loopWriteP t (physP t 8) (decide (v.epi.toNat < v.lc.toNat - 1))
      else
        loopCheck (t.modSt st fun x =>
          { setLoop x l { v with lc := 0, active := false } with order := x.order.filter (· != l) }) st last next rest
    else loopCheck t st last next rest

/-- An instruction of n words completes without transferring control. -/
def Thread.advance (t : Thread) (st : Stream) (n : Nat) : Thread :=
  let pc := (t.st st).pc
  let t := t.issued st
  loopCheck t st (pc + BitVec.ofNat 64 (4 * (n - 1))) (pc + BitVec.ofNat 64 (4 * n)) (t.st st).order

def complete (s : State) (n : Nat := 1) : State := { s with thr := s.thr.advance s.cur n }

/-- An instruction completes and transfers control (R82, R84, R85, R87). -/
def transfer (s : State) (target : Word) : State :=
  { s with thr := (s.thr.issued s.cur).modSt s.cur fun x => { x with pc := target } }

/-- The oldest store of the thread has both its entries and lies behind no mark that is not paired (R103, R106). -/
def Thread.storeDue (t : Thread) : Bool :=
  match t.qs.saq, t.qs.sdq with
  | a :: _, _ :: _ => decide (a.marks ≤ t.qs.pairsFormed)
  | _, _ => false

/-- That store waits for no command that a stop has left in its queue (R106, R121, R385). -/
def Thread.storeNow (t : Thread) : Bool :=
  t.storeDue && !t.forced && match t.qs.saq with
    | a :: _ => !(t.vq ++ t.mq).any fun c => c.marks < a.marks
    | [] => false

/-- A memory request of the thread is in flight (R26). -/
def Thread.inFlight (t : Thread) : Bool :=
  !t.qs.loads.isEmpty || t.qs.xfers.any (fun x => !x.faulted) || t.storeDue

/-- Both streams stand as the first case of R26 has it: each has ended or is stalled on a queue, one at least is stalled, and no
memory request is in flight. -/
def deadlocked (t : Thread) : Bool :=
  let stands (st : Stream) : Bool := (t.st st).ended || (t.st st).stall == .queue
  stands .execute && stands .access && ((t.ex.stall == .queue && !t.ex.ended) || (t.ax.stall == .queue && !t.ax.ended)) && !t.inFlight

/-- The counters of C-cycles of a thread go on by n (R26, R216): a C-cycle counts as a queue stall when some stream is stalled on a
queue (log 6). The count of R26 is suspended from an access-stream fault to the resume, and while a debugger holds the team (R119,
R399). -/
def Thread.cycles (t : Thread) (n : Nat) (held : Bool) : Thread :=
  let stalled := (t.ex.stall == .queue && !t.ex.ended) || (t.ax.stall == .queue && !t.ax.ended)
  let t := bump t 0x01 n
  let t := if stalled then bump t 0x04 n else t
  { t with stallCount := if t.countOff || held then t.stallCount else if !deadlocked t then 0 else t.stallCount + n }

/-- The instruction stalls: nothing of it takes effect, and it issues again (R25, R26). -/
def stall (s : State) (k : Stall) : State := { s with thr := s.thr.modSt s.cur fun x => { x with stall := k } }

/-- An access that lies before the m-th mark pair has not been performed yet (R106). -/
def earlierPending (t : Thread) (m : Nat) : Bool :=
  t.qs.loads.any (fun q => q.marks < m) || t.qs.saq.any (fun a => a.marks < m)
    || t.qs.xfers.any (fun x => !x.faulted && x.marks < m) || (t.vq ++ t.mq).any (fun c => c.marks < m)

/-- The gate of a request that issues now, behind m execute-stream marks. -/
def Thread.gate (t : Thread) (m : Nat) : Gate := { sdq := t.qs.sdqTot, cmdix := t.cmdix, marks := m }

/-- A line of the Wings holds a store that the gate covers: it is not visible yet (R120, R225, log 57). -/
def WingsLine.covered (l : WingsLine) (g : Gate) : Bool :=
  (match l.first with | some k => decide (k < g.sdq) | none => false) || decide (l.marks < g.marks)

/-- What a request covers is visible (R94, R182, R295). -/
def Thread.gateOpen (t : Thread) (g : Gate) : Bool :=
  decide (g.sdq ≤ t.qs.paired) && !(t.vq ++ t.mq).any (fun c => c.cmdix < g.cmdix) && decide (g.marks ≤ t.qs.pairsFormed)
    && !earlierPending t g.marks && !t.wings.any fun l => l.covered g

/-! ### Interlocks (R76, R101, R139, R163) -/

/-- The G register that a queued command writes. -/
def Cmd.gDest (c : Cmd) : Option Nat :=
  match c.i with
  | .vcomp f => some f.vc.toNat
  | .mcks f => some f.vd.toNat
  | _ => none

/-- A register whose result has not yet been written. -/
def pendingReg (t : Thread) (st : Stream) (r : Reg) : Bool :=
  r != 0 && match st with
    | .access => t.qs.loads.any fun q => q.dst == .hreg r
    | .execute => (t.vq ++ t.mq).any fun c => c.gDest == some r.toNat

/-- The instruction reads or writes these registers: it waits until each has been written (R76), a
register that it writes too (DESIGN CHOICE, log 67). -/
def withRegs (s : State) (rs : List Reg) (k : State → State) : State :=
  if rs.any (pendingReg s.thr s.cur) then stall s .other else k s

/-! ### Requests to the Stage Manager -/

/-- A debugger holds the thread's team (R399). -/
def debugHeld (s : State) (t : Thread) : Bool :=
  match findTeam s t.team with
  | some u => u.dbgHalt
  | none => false

/-- The oracle's next choice among n things, the first when it lists none (log 2). -/
def pick (s : State) (n : Nat) : Nat × State :=
  match s.picks with
  | [] => (0, s)
  | k :: rest => (k % n, { s with picks := rest })

/-- A pending decision of a partition, raised once (R309). -/
def addPending (s : State) (p kind subject : Nat) : State :=
  modPart s p fun q => if q.pending.any (fun d => d.kind == kind && d.subject == subject) then q
    else { q with pending := q.pending ++ [{ kind := kind, subject := subject }] }

/-- A DISPATCH decision is due (R309). -/
def wantDispatch (s : State) (p : Nat) : State := addPending s p 0 0

/-- A second request for a stop that decides what becomes of the team, over the first: one that only suspends it gives way to
every other, and a chiplet's retirement, a restart and a vote to no such one (R321, R362, R368, R385). -/
def StopFor.outranks (new old : StopFor) : Bool :=
  match new, old with
  | _, .preempt => true
  | .restart, o | .vote, o => o != .discard
  | .fault _, .retire | .fault _, .test | .fault _, .freeze => true
  | _, _ => false

/-- A stop of a resident team is requested; a second request joins the first (R385). -/
def requestStop (s : State) (id : Nat) (why : StopFor) : State :=
  modTeam s id fun u => match u.status with
    | .resident => { u with status := .stopping, stopFor := why, byPreempt := why == .preempt }
    | .stopping => if why.outranks u.stopFor then { u with stopFor := why } else u
    | _ => u

/-- The teams of a task that hold the same index: the team, or its replicas and Understudy. -/
def replicasOf (s : State) (u : Team) : List Team := s.teams.filter fun w => w.task == u.task && w.ix == u.ix

/-- The cause that a vote of a pair goes back to: that of the suspect's local failure, else check mismatch (R361, R368, R370). -/
def voteCause (s : State) (u : Team) : Nat :=
  match u.suspect with
  | none => 0x0B
  | some r => match (replicasOf s u).find? fun w => w.rep == r with
    | some w => (w.trapRec.map fun x => x.cause.toNat).getD 0x0B
    | none => 0x0B

/-- Stop a team, or both replicas of a pair (R314, R385). -/
def stopPair (s : State) (u : Team) (why : StopFor) : State :=
  (replicasOf s u).foldl (fun s w => requestStop s w.id why) s

/-- The task is to be ended with a CODE and a DETAIL; TASK_END does it (R370, R382). -/
def endTask (s : State) (task code detail : Nat) : State :=
  modTask s task fun k => match k.state with
    | .running | .head | .queued => { k with state := .ending code detail }
    | _ => k

/-- Retired cores of a chiplet. -/
def retiredOn (s : State) (chip : Nat) : Nat :=
  ((List.range 16).filter fun k => (s.core (16 * chip + k)).retired).length

/-- A chiplet with four retired cores is retired (R372). -/
def chipRetired (s : State) (chip : Nat) : Bool := 4 ≤ retiredOn s chip

/-- A core is in service: neither it nor its chiplet is retired, and no in-field test holds it (R371-R374, log 62). -/
def inService (s : State) (c : Nat) : Bool := !(s.core c).retired && !(s.core c).testing && !chipRetired s (c / 16)

/-- Every replica of the pair has stopped for the vote (R368, R372). -/
def allVoting (s : State) (u : Team) : Bool := (replicasOf s u).all fun w => w.rep == 2 || w.status == .voting

/-- A team waits on a FAULT decision: under replica 0 for a pair, under its own number for an Understudy (R44, R321); or it is
the first replica of a pair that needs an Understudy (R309). -/
def waitsFault (s : State) (u : Team) : Bool :=
  match u.status with
    | .faultWait _ => u.rep != 1
    | .voting => u.rep == 0 && allVoting s u && !s.teams.any fun w => w.task == u.task && w.ix == u.ix && w.rep == 2 && w.status != .ended
    | _ => false

/-- FAULT is raised again for every team of a partition that waits on one (R245, R309, R317, R322). -/
def raiseFaults (s : State) (p : Nat) : State :=
  (s.teams.filter fun u => u.part == p && waitsFault s u).foldl (fun s u => addPending s p 2 u.id) s

/-- A core retires: the teams that hold it are stopped; with the fourth retired core of a chiplet, every team of the
chiplet is stopped for a FAULT decision with FNEED 3 (R321, R372). -/
def retireCore (s : State) (c : Nat) : State :=
  let was := chipRetired s (c / 16)
  let k := s.core c
  let s := modCore s c fun k => { k with retired := true }
  let chip := c / 16
  let hit (u : Team) : Bool := s.threads.any fun t => t.team == u.id && t.resident && t.core == c
  let gone := chipRetired s chip && !was
  let s := if gone then (List.range 8).foldl raiseFaults s else match k.owner with | some p => raiseFaults s p | none => s
  s.teams.foldl (fun s u =>
    if u.chip == chip && gone && (u.status == .resident || u.status == .stopping) then stopPair s u (.fault 3)
    else if hit u && u.status == .resident then stopPair s u .retire else s) s

/-- Add 1 to a core's suspicion score; at RETIRE it retires (R363, R371, R372). -/
def addScore (s : State) (c : Nat) : State :=
  let k := s.core c
  let v := if k.score.toNat < 15 then k.score + 1 else k.score
  let s := modCore s c fun k => { k with score := v }
  if s.mod.cfg.retire ≤ v.toNat && !k.retired then retireCore s c else s

/-! ### Traps -/

/-- Write the trap record of R380 into the team of a thread. -/
def recordOf (s : State) (t : Thread) (st : Stream) (cause : Byte) (tpc taddr : Word) (cmd : Option Cmd) (dfcause : Byte) (dfaddr : Word) :
    State :=
  let (n, s) := fresh s
  let eng : Nat := match cmd with
    | none => 0
    | some c => match c.i with
      | .mwld _ | .mwldq _ | .mclr _ | .mswap _ | .mcks _ | .mmac _ => 2
      | _ => 1
  let r : TrapRec :=
    { cause := cause, access := st == .access, lvl := t.sys.tstat.lvl, df := t.sys.tstat.df, cmdv := cmd.isSome
      thrIx := t.thrIx, ocause := if cause == 0x15 then t.sys.frozenCause.setWidth 8 else cause
      cmdix := (cmd.map Cmd.cmdix).getD 0, tpc := tpc, taddr := taddr, engine := if cause == 0x13 then 3 else eng
      engNum := 0, mstep := if eng == 0 then 0 else Config.engineStep n % 65536, msv := eng != 0
      estat := if eng == 0 then 0 else Config.engineStatus n, dfcause := dfcause, dfaddr := dfaddr
      time := s.mod.time }
  modTeam s t.team fun u => { u with trapRec := some r }

/-- The same for the selected thread. -/
def record (s : State) (st : Stream) (cause : Byte) (tpc taddr : Word) (cmd : Option Cmd) (dfcause : Byte) (dfaddr : Word) : State :=
  recordOf s s.thr st cause tpc taddr cmd dfcause dfaddr

/-- The thread at its handler, with the trap registers written (R219). A wait of the execute stream that the handler interrupts is kept
(R119), and so is a cause of the access stream that waits for its pair (R223). -/
def Thread.entered (t : Thread) (st : Stream) (cause : Byte) (tpc taddr : Word) : Thread :=
  let u := t.modSt st fun x =>
    { x with pc := t.sys.tvec + (match st with | .execute => 0 | .access => 256), stall := .no, stopped := false, ended := false }
  let u := u.modSt (otherStream st) fun x => { x with stall := .no, stopped := true }
  { u with trap := (match st with | .execute => u.trap | .access => none), stallCount := 0, stepping := none, lockWait := none, axReq := none
           wait := (match st with | .execute => .none | .access => u.wait)
           waits := (match st with | .execute => (t.ex.pc, t.wait) :: u.waits | .access => u.waits)
           pairReq := match st with | .execute => none | .access => u.pairReq
           sys := { u.sys with
             tcause := BitVec.ofNat 64 (cause.toNat + (match st with | .execute => 0 | .access => 256))
             taddr := taddr, tpc := tpc, txpc := (t.st (otherStream st)).pc
             sawCause := false, sawAddr := false
             tstat := { u.sys.tstat with plvl := u.sys.tstat.lvl, lvl := true, rdy := false } } }

/-- Trap entry (R219, R220): the shared operation that every cause with a handler goes through. -/
def enterTrap (s : State) (st : Stream) (cause : Byte) (tpc taddr : Word) (cmd : Option Cmd := none) : State :=
  let t := s.thr
  let y := t.sys
  if y.tstat.lvl && !y.tstat.rdy then
    let t := { t with halted := true, trap := none, stepping := none
                      sys := { y with tstat := { y.tstat with df := true }, frozenCause := y.tcause, frozenAddr := y.taddr } }
    endTask (record { s with thr := t } st 0x15 y.tpc y.taddr cmd cause taddr) t.task 0x0A (t.teamIx * 256 + 0x15)
  else if y.tvec == 0 then
    endTask (record (modThr s fun t => { t with halted := true, trap := none, stepping := none }) st cause tpc taddr cmd 0 0) t.task 0x0A
      (t.teamIx * 256 + cause.toNat)
  else
    modThr (record s st cause tpc taddr cmd 0 0) fun t => t.entered st cause tpc taddr

/-- The wait that the trap of the execute stream interrupted goes on when its instruction issues again (R119, R386). -/
def Thread.rewait (t : Thread) (pc : Word) : Thread :=
  match t.waits with
  | [] => t
  | (a, w) :: rest => { t with waits := rest, wait := if a == pc then w else .none }

/-- Return from a trap (R222): the stream that trapped is the one that issues, because the other is stopped. -/
def trapReturn (s : State) : State :=
  let st := s.cur
  modThr s fun t =>
    let y := t.sys
    let t := t.issued st
    let t := t.modSt st fun x => { x with pc := y.tpc, stopped := false }
    let t := t.modSt (otherStream st) fun x => { x with pc := y.txpc, stopped := false }
    let apc := t.ax.pc
    let t := match st with | .execute => t.rewait y.tpc | .access => t
    { t with countOff := t.trap.isSome
             cmdHold := (match t.cmdHold with | some (n, true) => some (n, true) | _ => none)
             sys := { t.sys with sawCause := false, sawAddr := false
                                 tstat := { t.sys.tstat with lvl := t.sys.tstat.plvl, rdy := false } }
             qs := { t.qs with xfers := t.qs.xfers.filter fun x => !x.faulted || x.pc == apc } }

/-- The causes that unwind a region (R221, R223, R227). -/
def unwinds (cause : Byte) : Bool := cause == 0x0A || cause == 0x0B || cause == 0x0C

/-- Such a cause of an access-stream instruction behind a mark that is not paired waits for the pair (R223). -/
def deferred (t : Thread) (q : TrapInfo) : Bool := unwinds q.cause && !t.ax.marks.isEmpty

/-- Raise a cause that goes to the handler (R219): at once in the execute stream, where a pending access-stream cause is
entered instead (R119); in the access stream once the execute stream stops, the older of two causes. -/
def trapTo (s : State) (st : Stream) (cause : Byte) (tpc taddr : Word) (cmd : Option Cmd := none) : State :=
  match st with
  | .access => modThr s fun t =>
      { t with trap := some (t.trap.getD { stream := .access, cause := cause, tpc := tpc, taddr := taddr }), countOff := true }
  | .execute => match s.thr.trap with
    | some q => if deferred s.thr q then enterTrap s .execute cause tpc taddr cmd else enterTrap s q.stream q.cause q.tpc q.taddr
    | none => enterTrap s .execute cause tpc taddr cmd

/-- The registers of the selected bank (R223). -/
def snapshotG (t : Thread) : List Word := (List.range 32).map (readG t)
def snapshotH (t : Thread) : List Word := (List.range 16).map (readH t)

def restoreG (t : Thread) (v : List Word) : Thread := (List.range 32).foldl (fun t r => writeG t r (v.getD r 0)) t
def restoreH (t : Thread) (v : List Word) : Thread := (List.range 16).foldl (fun t r => writeH t r (v.getD r 0)) t

/-- The records that the thread holds until crc leave their queues (R205, R227). -/
def dropHeldRecords (s : State) (t : Thread) : State :=
  { s with eng := s.eng.filter fun r => !t.held.any fun | .push k => r.id == k && r.status == .held | _ => false }

/-- A region is open and not promoted: errors unwind it, at supervisor level too, where LVL keeps its value (R221, R223, R227,
log 56). -/
def Thread.inRegion (t : Thread) : Bool := t.sys.tstat.cropen && !t.sys.tstat.promo

/-- The queues after an unwind (R227): what the region put into them is gone. Stores of pairs that formed before the region, and
loads and transfers issued before it, are still performed; the region's loads and stores are not, and a load of its transfers
into the scratchpad ends whole (R109). -/
def Queues.unwound (q : Queues) (regionMark : Nat) : Queues :=
  let k := min (q.saq.filter fun a => a.marks < regionMark).length q.sdq.length
  { q with ldq := Vector.replicate 4 [], saq := q.saq.take k, sdq := q.sdq.take k, bq := [], xq := []
           loads := q.loads.filter fun x => x.marks < regionMark
           xfers := q.xfers.filter fun x => !x.faulted && (x.marks < regionMark || x.kind == .tld || x.kind == .gth)
           saqTot := q.paired + k, sdqTot := q.paired + k, execMarks := q.pairsFormed, popped := q.pushed }

/-- Unwind the open region of the selected thread (R227). -/
def unwind (s : State) (cause : Byte) : State :=
  let s := dropHeldRecords s s.thr
  modThr s fun t =>
    let t := restoreH (restoreG t t.snapG) t.snapH
    let t := t.modSt .execute fun x => { x with pc := t.sys.crhnd, marks := [], stall := .no, stopped := false, ended := false }
    let t := t.modSt .access fun x => { x with pc := t.openMark, marks := [], stall := .no, stopped := false, ended := false }
    { settleP { t with vq := [] } with
             mq := [], cmdHold := none, wings := t.wings.filter (·.held), held := [], wait := .none, trap := none, walk := []
             pf := [], unwindDue := t.unwindDue.drop 1, dueEx := none, countOff := false, waits := [], snapG := [], snapH := [], stallCount := 0, stepping := none, lockWait := none
             pairReq := none, pairRes := none, axReq := none, axRes := none, crcMark := none
             sys := { t.sys with tstat := { t.sys.tstat with crcause := cause, cropen := false } }
             qs := t.qs.unwound t.regionMark }

/-- Threads of the other replica, or of the Understudy, that run the same thread of the program (R314). -/
def twins (s : State) (t : Thread) : List Thread :=
  s.threads.filter fun w => w.task == t.task && w.teamIx == t.teamIx && w.thrIx == t.thrIx && w.rep != t.rep

/-- Unwind the region, and under P2 the same region of the other replica, at its crc or at an agreement point in it, whichever it
reaches first (R227); nothing when that one has unwound it before. -/
def unwindPair (s : State) (cause : Byte) : State :=
  let t := s.thr
  let s := if t.sys.tstat.pclass == 2 && t.rep < 2 && t.unwindDue.isEmpty then
      (twins s t).foldl (fun s w => modTid s w.tid fun w => if w.rep < 2 then { w with unwindDue := w.unwindDue ++ [cause] } else w) s
    else s
  unwind s cause

/-- A local failure outside a region (R361-R363, R368): the core's score rises; a P0 or P1 task restarts through a FAULT
decision with FNEED 4; under P2 the raising replica is the suspect of a vote. -/
def localFailure (s : State) (cause : Byte) : State :=
  let t := s.thr
  match findTeam s t.team with
  | none => s
  | some u =>
    if t.sys.tstat.pclass == 2 then
      if u.rep == 2 then modTeam s u.id fun u => { u with status := .ended }
      else
        let s := requestStop s u.id .vote
        (replicasOf s u).foldl (fun s w => modTeam s w.id fun w => { w with suspect := some u.rep }) s
    else if u.stopFor == .restart then s
    else
      match findTask s t.task with
      | none => s
      | some k =>
        if 2 ≤ k.restarts then endTask s t.task 0x0E (t.teamIx * 256 + cause.toNat)
        else
          let s := modTask s k.id fun k => { k with avoid := insertNat k.avoid t.core, restarts := k.restarts + 1, restart := [u.ix] }
          let s := (s.teams.filter fun w => w.task == k.id).foldl (fun s w => requestStop s w.id .restart) s
          addPending s t.part 2 u.id

/-- A cro has issued and its pair has not formed: what follows it in the execute stream is the region's (R223). -/
def regionPending (t : Thread) : Bool := t.ex.marks.any fun m => m.kind == .cro

/-- What raises the cause lies behind a mark that is not paired, which may open a region (R223). -/
def behindMark (t : Thread) (st : Stream) (cmd : Option Cmd) : Bool :=
  match st with
  | .execute => t.ex.marks.any fun m => m.kind == .cro && (match cmd with | some c => decide (m.cmdix ≤ c.cmdix) | none => true)
  | .access => !t.ax.marks.isEmpty

/-- The cause waits for its pair, the first of its stream; it stands where it was raised (R223). -/
def Thread.defer (t : Thread) (q : TrapInfo) : Thread :=
  match q.stream with
  | .execute => { t with dueEx := some (t.dueEx.getD q) }
  | .access => { t with trap := some q, countOff := true }

/-- A cause that unwinds, outside a region: poison goes to the handler, the others restart or vote (R221, R361, R362). -/
def failOutside (s : State) (st : Stream) (cause : Byte) (tpc taddr : Word) (cmd : Option Cmd := none) : State :=
  if cause == 0x0A then trapTo s st cause tpc taddr cmd
  else localFailure (record s st cause tpc taddr cmd 0 0) cause

/-- The region that a failure of this thread unwinds: an Understudy that fails a check is replaced instead (R369). -/
def unwindsHere (t : Thread) (cause : Byte) : Bool := t.inRegion && (cause == 0x0A || t.rep != 2)

/-- A local failure counts on the core that has detected it (R363). -/
def countFailure (s : State) (cause : Byte) (core : Nat) : State := if cause == 0x0A then s else addScore s core

/-- A migrate trap stops the team, both replicas of a pair, for a FAULT decision (R44, R319); an access-stream cause that is pending is
entered instead (R388). -/
def raiseMigrate (s : State) (tpc taddr : Word) : State :=
  let stop (s : State) : State :=
    let s := record s .execute 0x02 tpc taddr none 0 0
    match findTeam s s.thr.team with
    | some u => stopPair s u (.fault 1)
    | none => s
  match s.thr.trap with
  | some q => if deferred s.thr q then stop s else enterTrap s .access q.cause q.tpc q.taddr
  | none => stop s

/-- Raise a cause (R221, R361, R379): migrate goes to the Stage Manager; poison, check and Prompter mismatches unwind an
open region, and outside one poison goes to the handler and the others restart or vote; every other cause is a trap. -/
def raise (s : State) (st : Stream) (cause : Byte) (tpc taddr : Word) (cmd : Option Cmd := none) : State :=
  let t := s.thr
  if cause == 0x02 then raiseMigrate s tpc taddr
  else if unwinds cause then
    countFailure
      (if unwindsHere t cause && (match cmd with | some c => t.regionCmdix ≤ c.cmdix | none => true) then unwindPair s cause
        else if behindMark t st cmd then modThr s fun t => t.defer { stream := st, cause := cause, tpc := tpc, taddr := taddr }
        else failOutside s st cause tpc taddr cmd) cause t.core
  else trapTo s st cause tpc taddr cmd

/-- Raise at the instruction that issues. -/
def raiseHere (s : State) (cause : Byte) (taddr : Word) : State := raise s s.cur cause s.pc taddr

/-! ### Marks and regions -/

/-- A cause that waited for the pair (R223): it unwinds the region that the pair has opened; behind plain marks it is raised once no
mark of its stream is open. -/
def raiseDue (s : State) (q : TrapInfo) (waits : Bool) (gone : Thread → Thread) : State :=
  if unwindsHere s.thr q.cause then unwindPair s q.cause
  else if waits then s
  else failOutside (modThr s gone) q.stream q.cause q.tpc q.taddr

/-- What a pair that has just formed raises: first what the execute stream waits with. -/
def unwindIfDue (s : State) : State :=
  match s.thr.dueEx with
  | some q => raiseDue s q (regionPending s.thr) fun t => { t with dueEx := none }
  | none => match s.thr.trap with
    | some q => if unwinds q.cause then raiseDue s q (deferred s.thr q) fun t => { t with trap := none } else s
    | none => s

/-- The traffic that a stream's own mark fixes: what it pushed and what it popped (R223). -/
def ownTraffic (t : Thread) (st : Stream) : Traffic :=
  match st with
  | .access => { ldq := t.qs.pushed.ldq, bq := t.qs.pushed.bq, xq := t.qs.popped.xq }
  | .execute => { ldq := t.qs.popped.ldq, bq := t.qs.popped.bq, xq := t.qs.pushed.xq }

/-- The mark that the issuing instruction makes. -/
def newMark (s : State) (k : MarkKind) (handler : Word) : Mark :=
  { kind := k, total := (match s.cur with | .access => s.thr.qs.saqTot | .execute => s.thr.qs.sdqTot)
    cmdix := s.thr.cmdix, pc := s.pc, handler := handler
    regs := (match s.cur with | .access => snapshotH s.thr | .execute => snapshotG s.thr), traffic := ownTraffic s.thr s.cur }

/-- What opens when a pair has formed (R106, R223). -/
def openPair (s : State) (a e : Mark) : State :=
  let s := modThr s fun t =>
    let n := t.qs.pairsFormed + 1
    let t := { t with qs := { t.qs with pairsFormed := n, holdCmdix := e.cmdix } }
    match e.kind with
    | .cro => { t with snapG := e.regs, snapH := a.regs, openMark := a.pc, regionCmdix := e.cmdix, regionMark := n
                       sys := { t.sys with crhnd := e.handler, tstat := { t.sys.tstat with cropen := true, promo := false } } }
    | .crc => { t with crcMark := some n }
    | .mark => t
  unwindIfDue (modThr s Thread.stir)

/-- A mark, a cro or a crc as an execute-stream mark issues (R106, R107, R223, R226); k goes on after it. -/
def issueMark (s : State) (kind : MarkKind) (handler : Word) (k : State → State) : State :=
  let t := s.thr
  let m := newMark s kind handler
  let count (s : State) : State := match s.cur with
    | .execute => modThr s fun t => { t with qs := { t.qs with execMarks := t.qs.execMarks + 1 } }
    | .access => s
  match (t.st (otherStream s.cur)).marks with
  | [] =>
    if Config.markLimit ≤ (t.st s.cur).marks.length then stall s .queue
    else k (count (modThr s fun t => t.modSt s.cur fun x => { x with marks := x.marks ++ [m] }))
  | o :: rest =>
    let a := match s.cur with | .access => m | .execute => o
    let e := match s.cur with | .access => o | .execute => m
    let balanced := a.total == e.total
    let drained := e.kind != .cro ||
      ((List.range 4).all (fun i => nth a.traffic.ldq i 0 ≤ nth e.traffic.ldq i 0) && a.traffic.bq ≤ e.traffic.bq
        && e.traffic.xq ≤ a.traffic.xq)
    if balanced && drained then
      let s := count (modThr s fun t => t.modSt (otherStream s.cur) fun x => { x with marks := rest })
      -- the pair opens after the issuing instruction has completed
      openPair (k s) a e
    else if balanced then raise s .execute 0x10 e.pc 0
    else raiseHere s 0x10 0

/-! ### Messages and logs -/

def send (s : State) (o : Out) : State := { s with out := s.out ++ [o] }

/-- The firmware error handler logs (R188, R193, R281, R331). -/
def logError (s : State) (n : Nat) : State := { s with mod := { s.mod with errorLog := s.mod.errorLog ++ [n] } }

end Sys2Proof.Machine
end

