-- ==== Sys2Proof/Machine/Mem.lean ====
section
/-!
DEFINITION. Memory: the checks and the translation of R98, page tables and TLBs (R274-R285), reads and writes at the far
unit with the marks they leave (R197, R286, R358, R403), and the paths of a thread's stores through the Wings and the
shadow frames (R215, R225, R228, R300, R301, R364, R365).
-/

namespace Sys2Proof.Machine

/-- Load kinds and store kinds (R98). -/
inductive Kind where
  | load
  | store
  deriving DecidableEq, Repr

/-- The page-fault cause of a kind. -/
def Kind.cause : Kind → Byte
  | .load => 0x05
  | .store => 0x06

/-! ### Page tables (R280, R281) -/

def pteValid (e : Nat) : Bool := e.testBit 0
def pteLeaf (e : Nat) : Bool := e.testBit 7
def pteFrame (e : Nat) : Nat := bitsOf e 12 45 * 4096
/-- Bits that must be zero: [63:57], [11:9] and [5]. -/
def pteReserved (e : Nat) : Bool := bitsOf e 57 7 != 0 || bitsOf e 9 3 != 0 || e.testBit 5

/-- The walk of R280 from level l + 1 downward: the leaf entry, its address and the page size. -/
def walkFrom (mem : Cells) : Nat → Nat → Nat → Option (Nat × Nat × Nat)
  | 0, _, _ => none
  | l + 1, base, va =>
    let ea := base + 8 * bitsOf va (12 + 9 * l) 9
    let e := getLe mem ea 8
    if !pteValid e || pteReserved e then none
    else if l == 0 then (if pteLeaf e then some (e, ea, 4096) else none)
    else if pteLeaf e then (if l == 1 && bitsOf e 12 9 == 0 then some (e, ea, 0x200000) else none)
    else walkFrom mem l (pteFrame e) va

/-- The leaf that translates a virtual address in a partition. -/
def walkVA (s : State) (p va : Nat) : Option (Nat × Nat × Nat) :=
  if (s.part p).ptRoot == 0 then none else walkFrom s.mem 5 (s.part p).ptRoot va

/-- A walk meets an entry that is malformed, and not merely absent (R281). -/
def walkMalformed (mem : Cells) : Nat → Nat → Nat → Bool
  | 0, _, _ => false
  | l + 1, base, va =>
    let e := getLe mem (base + 8 * bitsOf va (12 + 9 * l) 9) 8
    if !pteValid e then false
    else if pteReserved e then true
    else if l == 0 then !pteLeaf e
    else if pteLeaf e then !(l == 1 && bitsOf e 12 9 == 0)
    else walkMalformed mem l (pteFrame e) va

/-- The leaf checks of R281. -/
def leafAllows (e : Nat) (k : Kind) : Bool :=
  e.testBit 1 && match k with | .load => e.testBit 2 | .store => e.testBit 3

/-- Device physical address through a leaf. -/
def leafPA (e size va : Nat) : Nat := pteFrame e / size * size + va % size

/-- The aligned group of sixteen entries forms one 64 KiB page (R281). -/
def group64 (s : State) (e ea : Nat) : Bool :=
  let base := ea / 128 * 128
  let first := getLe s.mem base 8
  e.testBit 8 && bitsOf (pteFrame first) 12 4 == 0 &&
    (List.range 16).all fun i =>
      let x := getLe s.mem (base + 8 * i) 8
      pteValid x && pteLeaf x && !pteReserved x && x % 4096 == first % 4096 && pteFrame x == pteFrame first + 4096 * i

/-- The outcome of the checks of R98 on one access unit. -/
inductive Xlat where
  /-- Translated: device physical address, and the leaf entry when a page table translated it. -/
  | ok (pa : Nat) (pte : Option Nat)
  /-- The TLB holds no entry for the page (R282). -/
  | miss
  | fault (cause : Byte)
  deriving DecidableEq, Repr

/-- The last step of a translation: an unbacked address faults (R275). -/
def backedOr (k : Kind) (pa size : Nat) (pte : Option Nat) : Xlat :=
  if Config.backed pa && Config.backed (pa + size - 1) then .ok pa pte else .fault k.cause

/-- A frame that a commit has still to copy has lost its write permission (R284, R406): from CBEGIN, in stop mode from the end of the
stall. -/
def writeProtected (s : State) (pa : Nat) : Bool :=
  s.parts.toList.any fun q => match q.domain with
    | none => false
    | some d => match d.commit with
      | none => false
      | some c => !c.copied.contains (pa / 4096 * 4096) && c.todo.any fun g =>
          let b := d.granules.getD g 0; b ≤ pa && pa < b + 0x200000 && !d.held.any fun h => h.1 == g

/-- Through a leaf entry. -/
def throughLeaf (s : State) (k : Kind) (e ea psize va size : Nat) : Xlat :=
  if leafAllows e k && !(k == .store && writeProtected s (leafPA e psize va)) then backedOr k (leafPA e psize va) size (some ea)
  else .fault k.cause

/-- A page of the core's TLB that covers va (R282). -/
def tlbFind (s : State) (c va : Nat) : Option TlbEntry :=
  (s.core c).tlb.find? fun e => e.va ≤ va && va < e.va + e.size

/-- The checks of R98, in order: alignment, range, heap window, TLB. `tlb` says whether a page must be in the TLB or is
walked at once. -/
def translate (s : State) (t : Thread) (k : Kind) (ea : Word) (size align : Nat) (tlb : Bool) : Xlat :=
  let a := ea.toNat
  let hb := t.sys.hbase.toNat
  let hl := t.sys.hlimit.toNat
  if a % align != 0 then .fault 0x04
  else if Config.vaEnd ≤ a then .fault k.cause
  else if hb < hl && hb ≤ a then
    if hl ≤ a + size - 1 then .fault 0x07
    else backedOr k ((a + t.sys.hoff.toNat) % Config.vaEnd) size none
  else if tlb then
    match tlbFind s t.core a with
    | some e => throughLeaf s k e.pte.toNat (e.pteAddr + if e.size == 65536 then 8 * (a % 65536 / 4096) else 0) e.size a size
    | none => .miss
  else
    match walkVA s t.part a with
    | some (e, pa, psize) => throughLeaf s k e pa psize a size
    | none => .fault k.cause

/-- A page enters the core's TLB; the oldest entry leaves a full one. -/
def installTlb (s : State) (c : Nat) (e : TlbEntry) : State :=
  { s with cores := modNth s.cores c fun k =>
      let tlb := k.tlb.filter fun x => !(x.va == e.va && x.size == e.size)
      { k with tlb := (if Config.tlbEntries ≤ tlb.length then tlb.drop 1 else tlb) ++ [e] } }

/-- What a walk installs (R281, R282): 64 KiB where the whole group of sixteen forms one page, else the page of the leaf. None: a
page fault. -/
def walkEntry (s : State) (p va : Nat) (k : Kind) : Option TlbEntry :=
  match walkVA s p va with
  | none => none
  | some (e, ea, size) =>
    if !leafAllows e k then none
    else if size == 4096 && group64 s e ea then
      some { va := va / 65536 * 65536, size := 65536, pte := BitVec.ofNat 64 e, pteAddr := ea / 128 * 128 }
    else some { va := va / size * size, size := size, pte := BitVec.ofNat 64 e, pteAddr := ea }

/-- The walker logs a malformed entry for the firmware's error handler (R281). -/
def logMalformed (s : State) (p va : Nat) : State :=
  if (s.part p).ptRoot != 0 && walkMalformed s.mem 5 (s.part p).ptRoot va then
    { s with mod := { s.mod with errorLog := s.mod.errorLog ++ [va] } }
  else s

/-- A unit of a transfer is translated through the TLB (R98): a miss is counted, walks, and installs what it finds (R216, R282). -/
def translateUnit (s : State) (k : Kind) (ea : Word) (size : Nat) : Xlat × State :=
  match translate s s.thr k ea size size true with
  | .miss =>
    let s := modThr s fun t => bump t 0x0A 1
    match walkEntry s s.thr.part ea.toNat k with
    | none => (.fault k.cause, logMalformed s s.thr.part ea.toNat)
    | some e =>
      let s := installTlb s s.thr.core e
      (translate s s.thr k ea size size true, s)
  | x => (x, s)

/-- Translation for an agent that acts for a partition without a thread: the heap window as a dispatch would set it (R279),
then the page table. -/
def translatePart (s : State) (p : Nat) (k : Kind) (ea : Nat) (size : Nat) : Xlat :=
  let q := s.part p
  if Config.vaEnd ≤ ea then .fault k.cause
  else if Config.heapVA ≤ ea && ea < Config.heapVA + q.heapLen then
    if Config.heapVA + q.heapLen ≤ ea + size - 1 then .fault 0x07
    else backedOr k (q.heapPA + (ea - Config.heapVA)) size none
  else
    match walkVA s p ea with
    | some (e, pa, psize) => throughLeaf s k e pa psize ea size
    | none => .fault k.cause

/-! ### Frames -/

/-- Frames of a partition's quota that are free (R304). -/
def freeQuota (s : State) (p : Nat) : Nat := (s.part p).quota / 4096 - (s.part p).usedFrames

/-- Ranges of device physical memory that firmware takes no new frame from: heap grants, checkpoint domains, and what waits for
zeros. The frames that partitions hold lie above frameNext and outside the pool. -/
def takenRanges (s : State) : List (Nat × Nat) :=
  (s.parts.toList.filter (·.present)).flatMap (fun q => (q.heapPA, q.heapLen) :: match q.domain with
    | some d => (d.granules ++ d.pbGranules).map fun g => (g, 0x200000)
    | none => []) ++ s.zeroing

/-- Ranges without the bytes of one range. -/
def rangesMinus (l : List (Nat × Nat)) (a n : Nat) : List (Nat × Nat) :=
  l.flatMap fun r => (if r.1 < a then [(r.1, min r.2 (a - r.1))] else [])
    ++ (if a + n < r.1 + r.2 then [(max r.1 (a + n), r.1 + r.2 - max r.1 (a + n))] else [])

/-- The whole frames of a range that the bump allocator has passed, free again after zeros: they leave every range of the pool
they may lie in, and join it once (R40, R288). -/
def poolRange (s : State) (a n : Nat) : State :=
  let lo := (max a (s.frameNext + 4096) + 4095) / 4096 * 4096
  let hi := (a + n) / 4096 * 4096
  if lo < hi then { s with framePool := rangesMinus s.framePool lo (hi - lo) ++ [(lo, hi - lo)] } else s

/-- The first frame of a range of the pool that no taken range covers. -/
def poolFrame (rs : List (Nat × Nat)) (r : Nat × Nat) : Nat → Nat → Option Nat
  | 0, _ => none
  | n + 1, f =>
    if r.1 + r.2 < f + 4096 then none
    else match rs.find? (fun x => x.1 < f + 4096 && f < x.1 + x.2) with
      | some x => poolFrame rs r n ((x.1 + x.2 + 4095) / 4096 * 4096)
      | none => some f

/-- Where the bump allocator stands below every taken range that covers it. -/
def skipTaken (rs : List (Nat × Nat)) : Nat → Nat → Nat
  | 0, f => f
  | n + 1, f =>
    match rs.find? (fun r => r.1 < f + 4096 && f < r.1 + r.2) with
    | some r => skipTaken rs n (r.1 / 4096 * 4096 - 4096)
    | none => f

/-- The firmware takes a frame of zeros: from the pool, else downward from the top of HBM4, passing over taken ranges (R288,
R342, log 12). -/
def takeFrame (s : State) : Nat × State :=
  let rs := takenRanges s
  match s.framePool.findSome? fun r => poolFrame rs r (rs.length + 1) r.1 with
  | some f => (f, { s with framePool := rangesMinus s.framePool f 4096 })
  | none =>
    let f := skipTaken rs (rs.length + 1) s.frameNext
    (f, { s with frameNext := f - 4096 })

/-- A frame of the partition's quota (R304), and a frame for its page table. -/
def takeFor (s : State) (p : Nat) : Nat × State :=
  let (f, s) := takeFrame s
  (f, modPart s p fun q => { q with usedFrames := q.usedFrames + 1, frames := f :: q.frames })

def takeTable (s : State) (p : Nat) : Nat × State :=
  let (f, s) := takeFrame s
  (f, modPart s p fun q => { q with tables := f :: q.tables })

/-! ### The fabric (R349) -/

/-- Two dies share a lit circuit. -/
def litTo (s : State) (a b : Nat) : Bool :=
  s.mod.circuits.any fun e => e.2.2 != 0 && ((e.1 == a && e.2.1 == b) || (e.1 == b && e.2.1 == a))

/-- Dies that reach a die over at most n lit circuits. -/
def withinHops (s : State) (b : Nat) : Nat → List Nat
  | 0 => [b]
  | n + 1 =>
    let l := withinHops s b n
    (List.range Config.dies).filter fun d => l.contains d || l.any (litTo s d)

/-- A path of n hops: at each die the lowest-numbered neighbour that is one hop nearer. -/
def pathFrom (s : State) (b : Nat) : Nat → Nat → List Nat
  | 0, a => [a]
  | n + 1, a => match (withinHops s b n).find? (litTo s a) with
    | some d => a :: pathFrom s b n d
    | none => [a]

/-- The route of a packet: the fewest hops over lit entries, ties through lower-numbered dies (R349). -/
def route (s : State) (a b : Nat) : Option (List Nat) :=
  ((List.range Config.dies).find? fun n => (withinHops s b n).contains a).map fun n => pathFrom s b n a

/-! ### Reads and writes at the far unit -/

/-- Bytes of memory at a device physical address (R99, R291). -/
def readPhys (s : State) (pa n : Nat) : List Byte := getCells s.mem pa n

/-- A 64 B unit that the range touches is poisoned (R358). -/
def poisonedIn (s : State) (pa n : Nat) : Bool := s.poison.any fun u => u < pa + n && pa < u + 64

/-- Who watches the dword at d (R197, R308, R341). -/
def watchersOf (s : State) (d : Nat) : List Watcher :=
  (s.cores.toList.flatMap fun c => (c.watches.filter fun w => w.pa == d).map fun w => .thread w.tid)
    ++ ((s.tasks.filter fun k => k.watch == some d).map fun k => .task k.id)
    ++ ((s.recs.filter fun r => r.watch == some d).map fun r => .record r.id)

/-- The far unit sends the value of each of these dwords to every watch armed on it (R197). -/
def notify (s : State) (ds : List Nat) : State :=
  { s with notices := s.notices ++ ds.flatMap fun d =>
      (watchersOf s d).map fun w => { pa := d, value := BitVec.ofNat 64 (getLe s.mem d 8), dest := w } }

/-- Notices on their way to a watch that is freed are lost. -/
def dropNotices (s : State) (w : Watcher) : State := { s with notices := s.notices.filter fun n => n.dest != w }

/-- The aligned dwords that a range touches. -/
def dwordsOf (pa n : Nat) : List Nat := (List.range ((pa + n + 7) / 8 - pa / 8)).map fun i => (pa / 8 + i) * 8

/-- The index of a frame in the dirty bitmaps (R286). -/
def dirtyIndex (pa : Nat) : Nat := if pa < Config.nearEnd then pa / 4096 else 262144 + (pa - Config.hbmBase) / 4096

/-- The marks a write leaves for a partition: the frame's bit of the active bitmap (R286) and the granule's CUR bit
(R403). -/
def markWrite (s : State) (p pa n : Nat) : State :=
  modPart s p fun q =>
    let q := if q.dirtyOn then
        { q with dirtyActive := ((List.range ((pa + n + 4095) / 4096 - pa / 4096)).map fun i => dirtyIndex ((pa / 4096 + i) * 4096)).foldl insertNat q.dirtyActive }
      else q
    match q.domain with
    | none => q
    | some d =>
      { q with domain := some { d with cur := ((List.range d.granules.length).filter fun g =>
          let b := d.granules.getD g 0; b < pa + n && pa < b + 0x200000).foldl insertNat d.cur } }

/-- Two writes touch a byte in common. -/
def LooseWrite.touches (a b : LooseWrite) : Bool := a.old.any fun c => b.old.any fun d => c.1 == d.1

/-- Writes that a release at RCV scope covers leave the list, and with each the earlier ones it overlaps (R302). -/
def coverLoose (f : LooseWrite → Bool) : List LooseWrite → List LooseWrite → List LooseWrite
  | [], _ => []
  | w :: r, cov => if f w || cov.any w.touches then coverLoose f r (w :: cov) else w :: coverLoose f r cov

/-- The loose writes of a partition that f names are durable. -/
def cover (s : State) (p : Nat) (f : LooseWrite → Bool) : State :=
  modPart s p fun q => { q with domain := q.domain.map fun d => { d with loose := coverLoose f d.loose [] } }

/-- A write to the partition's checkpoint domain is loose until a release covers it (R302). -/
def noteLoose (s : State) (p : Nat) (at_ : List Nat) (owner : Option Nat) : State :=
  let old := at_.map fun a => (a, getCell s.mem a)
  modPart s p fun q => { q with domain := q.domain.map fun d =>
    if (d.granules ++ d.pbGranules).any fun b => at_.any fun a => b ≤ a && a < b + 0x200000 then { d with loose := { owner := owner, old := old } :: d.loose }
    else d }

/-- The bytes are written at the far unit in one step (R291): marks first, then the bytes; a write that covers a unit
clears its poison (R358); watchers get a notice (R197). -/
def writePhys (s : State) (p : Option Nat) (pa : Nat) (bs : List Byte) (owner : Option Nat := none) : State :=
  let n := bs.length
  let s := match p with | some p => noteLoose (markWrite s p pa n) p ((List.range n).map (pa + ·)) owner | none => s
  notify { s with mem := setCells s.mem pa bs
                  poison := s.poison.filter fun u => !(pa ≤ u && u + 64 ≤ pa + n) } (dwordsOf pa n)

/-- The bytes of a Wings line or of a shadow frame, which lie in one page, are written in one step (R225, R290, R300, R301). -/
def writeCells (s : State) (p : Nat) (cells : List (Nat × Byte)) (owner : Option Nat := none) : State :=
  match cells with
  | [] => s
  | (a, _) :: _ =>
    let at_ := cells.map (·.1)
    let s := noteLoose (markWrite s p a 1) p at_ owner
    let whole (u : Nat) : Bool := (List.range 64).all fun i => at_.contains (u + i)
    notify { s with mem := cells.foldl (fun m (c : Nat × Byte) => setCell m c.1 c.2) s.mem, poison := s.poison.filter fun u => !whole u }
      ((at_.map fun a => a / 8 * 8).foldl insertNat [])

/-- A memory access is counted by the store die that serves it (R43, R216). -/
def Thread.served (t : Thread) (die : Nat) : Thread := bump t (if die == Config.domainOf (t.core / 16) then 0x07 else 0x08) 1

/-- The walker sets DIRTY before the first store-kind unit through a leaf (R285); the TLB copies follow. -/
def setDirty (s : State) (pte : Option Nat) : State :=
  match pte with
  | none => s
  | some a =>
    let e := getLe s.mem a 8
    if e.testBit 6 then s
    else { s with mem := setCells s.mem a (leBytes 8 (e + 64)) }

/-- A granule whose frames a stop-mode commit holds (R406): writes there wait. -/
def commitHolds (s : State) (pa n : Nat) : Bool :=
  s.parts.toList.any fun q => match q.domain with
    | none => false
    | some d => d.held.any fun h =>
        let b := d.granules.getD h.1 0; b < pa + n && pa < b + 0x200000

/-- The address lies in the partition's checkpoint domain (R276, R401). -/
def inDomain (s : State) (p pa : Nat) : Bool :=
  match (s.part p).domain with
  | none => false
  | some d => (d.granules ++ d.pbGranules).any fun b => b ≤ pa && pa < b + 0x200000

/-- The dword at a virtual address that a completing record or a host record names is added to as one far-atomic step. -/
def addDword (s : State) (p : Nat) (pa : Nat) (v : Word) : State :=
  writePhys s (some p) pa (leBytes 8 (BitVec.ofNat 64 (getLe s.mem pa 8) + v).toNat)

/-! ### Wings and shadow frames -/

/-- Lines of the Wings that a context may still take: 1,024 per core less 256 for each P2 replica there, or the 256 of the
replica itself (R225, R365). -/
def freeLines (s : State) (t : Thread) : Nat :=
  if t.sys.tstat.pclass == 2 then Config.replicaLines - (t.wings.filter fun l => !l.past).length
  else
    let here := s.threads.filter fun w => w.core == t.core && w.live && w.resident
    let reserved := (here.filter fun w => w.sys.tstat.pclass == 2).length * Config.replicaLines
    let used := (here.filter fun w => w.sys.tstat.pclass != 2).foldl (fun n w => n + w.wings.length) 0
    Config.wingsLines - reserved - used

/-- Bytes merged into a list of (offset, byte), later bytes prevailing. -/
def putBytes (cells : List (Nat × Byte)) : Nat → List Byte → List (Nat × Byte)
  | _, [] => cells
  | a, b :: r => putBytes ((a, b) :: cells.filter (fun c => c.1 != a)) (a + 1) r

/-- The earlier of two stores by number, where there is one. -/
def earlier (a b : Option Nat) : Option Nat :=
  match a, b with
  | some m, some n => some (min m n)
  | some m, none => some m
  | none, b => b

/-- Bytes of a store into the line of its 64 B unit, with the poison mark they carry; none when a new line is needed and
none is free. -/
def intoWings (s : State) (t : Thread) (pa : Nat) (bs : List Byte) (held : Bool) (sig : Word) (pz : Bool) (first : Option Nat := none) (marks : Nat := 0)
    (va : Option Nat := none) : Option Thread :=
  let u := pa / 64 * 64
  if t.wings.any (fun l => l.unit == u && l.held == held) then
    some { t with wings := t.wings.map fun l =>
      if l.unit == u && l.held == held then
        { l with cells := putBytes l.cells pa bs, sig := l.sig + sig, poison := pz || (l.poison && bs.length != 64)
                 first := earlier l.first first, marks := min l.marks marks, past := false, va := va }
      else l }
  else if freeLines s t == 0 then none
  else some (bump { t with wings := t.wings ++ [{ unit := u, cells := putBytes [] pa bs, held := held, sig := sig, poison := pz, first := first, marks := marks,
                                                   va := va }] } 0x09 1)

/-- Overlay written bytes on what memory holds. -/
def overlay (bytes : List Byte) (pa : Nat) (cells : List (Nat × Byte)) : List Byte :=
  (List.range bytes.length).map fun i =>
    match cells.find? (fun c => c.1 == pa + i) with
    | some c => c.2
    | none => bytes.getD i 0

/-- The team's shadow frame of a page (R364). -/
def shadowOf (u : Team) (page : Nat) : Option Shadow := u.shadow.find? fun h => h.page == page

/-- What a thread's load reads at a device physical address: its own Wings lines, then its shadow frame, then memory
(R225, R300, R301). -/
def loadBytes (s : State) (t : Thread) (pa n : Nat) : List Byte :=
  let b := readPhys s pa n
  let b := if t.sys.tstat.pclass == 2 then
      match findTeam s t.team with
      | some u => match shadowOf u (pa / 4096) with
        | some h => overlay b pa h.cells
        | none => b
      | none => b
    else b
  let held := t.wings.filter (·.held)
  let region := t.wings.filter fun l => !l.held
  let put (b : List Byte) (ls : List WingsLine) := ls.foldl (fun b l => overlay b pa l.cells) b
  put (put b held) region

/-- A thread's read meets poison (R358): in one of its own lines or shadow units, or in memory where a byte comes from
memory. -/
def poisonFor (s : State) (t : Thread) (pa n : Nat) : Bool :=
  let u := pa / 64 * 64
  let shadow := if t.sys.tstat.pclass == 2 then (findTeam s t.team).bind (fun u => shadowOf u (pa / 4096)) else none
  let own (a : Nat) : Bool := t.wings.any (fun l => l.cells.any fun c => c.1 == a)
    || (match shadow with | some h => h.cells.any fun c => c.1 == a | none => false)
  t.wings.any (fun l => l.unit == u && l.poison)
    || (match shadow with | some h => h.poison.contains u | none => false)
    || (poisonedIn s pa n && !(List.range n).all fun i => own (pa + i))

/-- Bytes b of R215, folded into SIGS and PSIG. -/
def sigBytes (ea : Word) (size : Nat) (bs : List Byte) : List Byte := leBytes 8 ea.toNat ++ [BitVec.ofNat 8 size] ++ bs

/-- The first store-kind write of either replica to a page decides for both (R364): shadowed when the page is outside the
checkpoint domain and two frames are free, held otherwise. An Understudy keeps its own frames (R368). -/
def decidePage (s : State) (t : Thread) (page : Nat) : State :=
  match findTeam s t.team with
  | none => s
  | some u =>
    if (shadowOf u page).isSome || u.heldPages.contains page then s
    else
      let blank : Shadow := { page := page, cells := [], psig := 0, poison := [] }
      if u.rep == 2 then
        let heldByPair := (replicasOf s u).any fun w => w.heldPages.contains page
        if heldByPair then modTeam s u.id fun u => { u with heldPages := page :: u.heldPages }
        else modTeam (modPart s t.part fun q => { q with usedFrames := q.usedFrames + 1 }) u.id fun u => { u with shadow := u.shadow ++ [blank] }
      else if !inDomain s t.part (page * 4096) && 2 ≤ freeQuota s t.part then
        let s := modPart s t.part fun q => { q with usedFrames := q.usedFrames + 2 }
        (replicasOf s u).foldl (fun s w => if w.rep == 2 then s else modTeam s w.id fun w => { w with shadow := w.shadow ++ [blank] }) s
      else (replicasOf s u).foldl (fun s w => if w.rep == 2 then s else modTeam s w.id fun w => { w with heldPages := page :: w.heldPages }) s

/-- Marks of 64 B units after a write of n bytes at a that carries a mark or not: a whole unit takes the mark of the
write, a part of one keeps the mark it has (R141, R358). -/
def remark (marks : List Nat) (a n : Nat) (pz : Bool) : List Nat :=
  let kept := marks.filter fun u => !(a ≤ u && u + 64 ≤ a + n)
  if pz && n != 0 then insertNat kept (a / 64 * 64) else kept

/-- Bytes into the replica's shadow frame; a store adds to the frame's PSIG (R364, R367). -/
def intoShadow (s : State) (t : Thread) (pa : Nat) (bs : List Byte) (sig : Word) (pz : Bool) (va : Option Nat := none) : State :=
  modTeam s t.team fun u => { u with shadow := u.shadow.map fun h =>
    if h.page == pa / 4096 then
      { h with cells := putBytes h.cells pa bs, psig := h.psig + sig, poison := remark h.poison pa bs.length pz, wrote := true, va := va }
    else h }

/-- A line of the Wings into the replica's shadow frame: one that covers its 64 B unit clears the unit's mark (R358, R364, R367). -/
def lineIntoShadow (s : State) (t : Thread) (l : WingsLine) : State :=
  modTeam s t.team fun u => { u with shadow := u.shadow.map fun h =>
    if h.page == l.unit / 4096 then
      { h with cells := l.cells.foldl (fun m c => putBytes m c.1 [c.2]) h.cells, psig := h.psig + l.sig, wrote := true, va := l.va
               poison := remark (if l.cells.length == 64 then h.poison.filter (· != l.unit) else h.poison) l.unit 1 l.poison }
    else h }

/-- A poison mark that comes with bytes written to memory (R358). -/
def carryPoison (s : State) (pa : Nat) (pz : Bool) : State :=
  if pz then { s with poison := insertNat s.poison (pa / 64 * 64) } else s

/-- A line of the Wings leaves it: into the shadow frame of its page, or into memory, once, by the primary (R301). A region
line is the first write to a page that no store has touched, and decides its shadowing (R364). -/
def drainLine (s : State) (t : Thread) (l : WingsLine) : State :=
  let s := if t.sys.tstat.pclass == 2 && !l.held then decidePage s t (l.unit / 4096) else s
  let writes (s : State) : State :=
    modTid (carryPoison (writeCells s t.part l.cells (some t.tid)) l.unit l.poison) t.tid fun t => t.served (Config.storeDie l.unit)
  if t.sys.tstat.pclass == 2 then
    match findTeam s t.team with
    | none => s
    | some u =>
      if !l.held && (shadowOf u (l.unit / 4096)).isSome then
        let s := modTid s t.tid fun t => t.served (Config.shadowDie (l.unit / 4096))
        lineIntoShadow s t l
      else if u.rep == 0 then writes s else s
  else writes s

/-- The lines of one kind drain, each as one write (R225, R300). -/
def drainLines (s : State) (tid : Nat) (held : Bool) : State :=
  match s.threads.find? (fun t => t.tid == tid) with
  | none => s
  | some t =>
    let s := (t.wings.filter (fun l => l.held == held)).foldl (fun s l => drainLine s t l) s
    modTid s tid fun t => { t with wings := t.wings.filter fun l => l.held != held }

/-! ### Requests that a region holds (R96, R205) -/

/-- An engine record takes its place at the tail of its queue (R184, R205). -/
def nextSeq (s : State) (p e : Nat) : Nat :=
  s.eng.foldl (fun n r => if r.part == p && r.eng == e && n ≤ r.seq then r.seq + 1 else n) 0

def appendRecord (s : State) (id : Nat) : State :=
  match s.eng.find? (fun r => r.id == id) with
  | none => s
  | some r =>
    let n := nextSeq s r.part r.eng
    { s with eng := s.eng.map fun r => if r.id == id then { r with status := .queued, seq := n } else r }

/-- An mbput takes effect on the target team (R93): the launch values of a team not yet dispatched; the mailboxes of a
resident, suspended or migrating team; a write to a team that has ended is discarded. -/
def applyMbput (s : State) (task : Nat) (team : Nat) (k : Nat) (v : Word) : State :=
  match findTask s task with
  | none => s
  | some j =>
    if j.nteams ≤ team || j.endedTeams.contains team then s
    else if s.teams.any (fun u => u.task == task && u.ix == team) then
      { s with teams := s.teams.map fun u => if u.task == task && u.ix == team then { u with mb := upd u.mb k v } else u }
    else modTask s task fun j => { j with mbs := j.mbs.set team (upd (j.mbs.getD team (Vector.replicate 8 0)) k v) }

/-- What the replicas of a pair compare of a request that they hold (R95). -/
def HeldReq.key : HeldReq → List Nat
  | .push id => [3, id]
  | .mbput team k v _ => [1, k, team.toNat, v.toNat]

/-- An mbput has everything that it covers behind it. -/
def HeldReq.ready (t : Thread) : HeldReq → Bool
  | .push _ => true
  | .mbput _ _ _ g => t.gateOpen g

/-- An mbput takes effect for its thread. -/
def performPut (s : State) (t : Thread) : HeldReq → State
  | .push _ => s
  | .mbput team k v _ => applyMbput s t.task team.toNat k v

/-- The paired log takes an entry while it holds fewer than 65,536 (R366). -/
def logPaired (s : State) (t : Thread) (e : LogEntry) : State :=
  match s.teams.find? fun u => u.task == t.task && u.ix == t.teamIx && u.rep == 0 with
  | some u => if u.log.length < 65536 then modTeam s u.id fun u => { u with log := u.log ++ [e] } else s
  | none => s

/-- The requests of a thread that the paired log holds, by what presented them (R366). -/
def loggedOf (s : State) (t : Thread) (kind : Nat) : List LogEntry :=
  match s.teams.find? fun u => u.task == t.task && u.ix == t.teamIx && u.rep == 0 with
  | some u => u.log.filter fun e => e.thrIx == t.thrIx && e.kind == kind
  | none => []

/-- The oldest mbput of the thread has left it. -/
def Thread.putDone (t : Thread) : Thread := { t with late := t.late.drop 1, putIx := t.putIx + 1 }

/-- The oldest mbputs of a thread take effect, in issue order, each once what it covers is visible; under P2 once for the pair,
when both replicas present it, and into its log. An Understudy's are those that the log holds (R93-R96, R366, R368). -/
def releaseLate (s : State) (tid : Nat) : Nat → State
  | 0 => s
  | n + 1 =>
    match s.threads.find? (fun t => t.tid == tid) with
    | none => s
    | some t => match t.late with
      | [] => s
      | r :: _ =>
        if !r.ready t then s
        else if t.sys.tstat.pclass != 2 then releaseLate (modTid (performPut s t r) tid Thread.putDone) tid n
        else if t.rep == 2 then
          match (loggedOf s t 2)[t.putIx]? with
          | none => s
          | some e => if e.req == r.key then releaseLate (modTid s tid Thread.putDone) tid n else s
        else match (twins s t).find? (fun w => w.rep < 2) with
          | none => s
          | some w => match w.late with
            | [] => s
            | q :: _ =>
              if q.key == r.key && q.ready w then
                let s := logPaired (performPut s t r) t { thrIx := t.thrIx, req := r.key, res := 0, kind := 2 }
                releaseLate (modTid (modTid s tid Thread.putDone) w.tid Thread.putDone) tid n
              else s

/-- The mbputs that wait. -/
def lateOf (s : State) (tid : Nat) : Nat := ((s.threads.find? fun t => t.tid == tid).map fun t => t.late.length).getD 0

/-- What a region held leaves, in issue order; under P2 once for the pair (R96, R205, R226). -/
def releaseHeld (s : State) (tid : Nat) : State :=
  match s.threads.find? (fun t => t.tid == tid) with
  | none => s
  | some t =>
    let first := t.sys.tstat.pclass != 2 || t.rep == 0
    let s := if first then t.held.foldl (fun s q => match q with
        | .push id => appendRecord s id
        | .mbput .. => s) s
      else s
    let s := modTid s tid fun t => { t with held := [], late := t.late ++ t.held.filter fun q => match q with | .push _ => false | .mbput .. => true }
    releaseLate s tid (lateOf s tid)

/-- A region line to a held page becomes a held line, over the bytes of one that is there (R364). -/
def holdLine (s : State) (t : Thread) (l : WingsLine) : State :=
  let s := decidePage s t (l.unit / 4096)
  match findTeam s t.team with
  | none => s
  | some u =>
    if !u.heldPages.contains (l.unit / 4096) then s
    else modTid s t.tid fun t =>
      let rest := t.wings.filter fun x => !(x.unit == l.unit && !x.held)
      if rest.any fun x => x.unit == l.unit then
        { t with wings := rest.map fun x => if x.unit == l.unit then
            { x with cells := l.cells ++ x.cells.filter fun c => !l.cells.any fun d => d.1 == c.1
                     sig := x.sig + l.sig, poison := x.poison || l.poison, first := earlier x.first l.first, marks := min x.marks l.marks } else x }
      else { t with wings := rest ++ [{ l with held := true }] }

/-- Promotion of the open region (R228): PROMO, the lines drain, the held requests leave. Under P2 what lies in held pages
waits for the next agreement point, and the requests behind it wait with it (log 57). -/
def promote (s : State) : State :=
  let s := modThr s fun t => { t with sys := { t.sys with tstat := { t.sys.tstat with promo := true } } }
  let t := s.thr
  let s := if t.sys.tstat.pclass == 2 then (t.wings.filter fun l => !l.held).foldl (fun s l => holdLine s t l) s else s
  releaseHeld (drainLines s s.thr.tid false) s.thr.tid

/-- An instruction promotes an open region that is not yet promoted (R115, R205, R232, R300). -/
def promoteIfRegion (s : State) : State := if s.thr.inRegion then promote s else s

/-- The lines of a thread of one kind may leave: no commit holds one of them (R406). -/
def mayDrain (s : State) (t : Thread) (held : Bool) : Bool := !(t.wings.any fun l => l.held == held && commitHolds s l.unit 64)

/-- A promotion would write lines that a commit holds (R406). Under P2 it writes none: they go to shadow frames or become held lines. -/
def promotionHeld (s : State) : Bool := s.thr.inRegion && s.thr.sys.tstat.pclass != 2 && !mayDrain s s.thr false

/-- An instruction promotes an open region, when no commit holds what that writes, and goes on (R406). -/
def whenPromoted (s : State) (k : State → State) : State := if promotionHeld s then stall s .other else k (promoteIfRegion s)

/-- A store of the region that finds the Wings full would promote it now, and a commit holds what that writes (R228, R406). -/
def storeHeld (s : State) (pa n : Nat) (region : Bool) : Bool :=
  region && promotionHeld s && (intoWings s s.thr pa (List.replicate n 0) false 0 false).isNone

/-- A store with its access-stream marks is one of the open region's: it was issued behind the region's opening mark, at user
level (R223, R225). -/
def regionStore (t : Thread) (marks : Nat) (sup : Bool) : Bool := t.sys.tstat.cropen && decide (t.regionMark ≤ marks) && !sup

/-- The virtual page of an address that a page table translates: none for one in the heap window (R98, R367). -/
def viaTable (t : Thread) (ea : Word) : Option Nat :=
  if t.sys.hbase.toNat < t.sys.hlimit.toNat && t.sys.hbase.toNat ≤ ea.toNat then none else some (ea.toNat / 4096 * 4096)

/-- One store unit of the selected thread is performed (R103, R215, R225, R228, R364, R365): into the Wings when it is a store of a
region that has not been promoted, into the shadow frame or a held line under P2, else into memory. None: a held store that finds
no free line waits for a forced agreement point. -/
def storeUnit (s : State) (ea : Word) (pa : Nat) (bs : List Byte) (region : Bool) (pz : Bool := false) (first : Option Nat := none) (marks : Nat := 0) :
    Option State :=
  let sig := crc64 0 (sigBytes ea bs.length bs)
  let va := viaTable s.thr ea
  let folded (s : State) : State := modThr s fun t => { t with sys := { t.sys with sigs := t.sys.sigs + sig } }
  let s := if region && s.thr.inRegion && (intoWings s s.thr pa bs false sig pz first marks va).isNone then promote s else s
  if region && s.thr.inRegion then
    match intoWings s s.thr pa bs false sig pz first marks va with
    | some t => some (folded { s with thr := t })
    | none => some s
  else if s.thr.sys.tstat.pclass == 2 then
    let s := decidePage s s.thr (pa / 4096)
    match findTeam s s.thr.team with
    | none => some s
    | some u =>
      if (shadowOf u (pa / 4096)).isSome then
        some (modThr (folded (intoShadow s s.thr pa bs sig pz va)) fun t => t.served (Config.shadowDie (pa / 4096)))
      else match intoWings s s.thr pa bs true sig pz first marks va with
        | some t => some (folded { s with thr := t })
        | none => none
  else
    some (modThr (folded (carryPoison (writePhys s (some s.thr.part) pa bs (some s.thr.tid)) pa pz)) fun t => t.served (Config.storeDie pa))

/-! ### Faults of an address -/

/-- A page fault of a stream goes to the memory firmware first (R284, R383); every other cause is raised at once. -/
def faultAt (s : State) (cause : Byte) (ea : Word) (k : Kind) : State :=
  if cause == 0x05 || cause == 0x06 then
    stall (modThr s fun t => { t with pf := t.pf ++ [{ stream := s.cur, cause := cause, ea := ea, store := k == .store }] }) .other
  else raiseHere s cause ea

/-- Memory requests of a core that are outstanding: loads and atomics in flight, and walks (R14, R282, log 52). -/
def outstanding (s : State) (core : Nat) : Nat :=
  (s.threads.filter fun t => t.live && t.resident && t.core == core).foldl (fun n t => n + t.qs.loads.length + t.walk.length) 0

/-- A request issues while the core has one of its 768 to give. -/
def whenRequest (s : State) (k : State → State) : State :=
  if Config.requests ≤ outstanding s s.thr.core then stall s .other else k s

/-- A TLB miss sends a walk, one of the core's requests, and the instruction issues again after it (R14, R282). -/
def missAt (s : State) (ea : Word) (k : Kind) : State :=
  whenRequest s fun s => stall (modThr s fun t => bump { t with walk := t.walk ++ [{ stream := s.cur, cause := k.cause, ea := ea, store := k == .store }] } 0x0A 1) .other

/-- One scalar access unit: the checks of R98 in order, then k on the translated address. -/
def withAddress (s : State) (kd : Kind) (ea : Word) (size : Nat) (k : Nat → Option Nat → State) : State :=
  match translate s s.thr kd ea size size true with
  | .ok pa pte => k pa pte
  | .miss => missAt s ea kd
  | .fault c => faultAt s c ea kd

/-- A load or an atomic of the selected thread is counted. -/
def countAccess (s : State) (pa : Nat) : State := modThr s fun t => t.served (Config.storeDie pa)

end Sys2Proof.Machine
end

