-- ==== Sys2Proof/Machine/Flags.lean ====
section
/-!
DEFINITION. The status registers as the bits software reads: TSTAT, RPSTAT, ROT, LOCID, the checksum status, CUESTAT,
the status word of a record (SCHEDSTAT is in Sched.lean). Basdex has no condition flags (R75): no instruction sets one.
-/

namespace Sys2Proof.Machine

/-- A bit at a place. -/
def bitAt (b : Bool) (k : Nat) : Nat := if b then 2 ^ k else 0

/-- TSTAT (R212). -/
def TStat.bits (t : TStat) : Word :=
  BitVec.ofNat 64 (bitAt t.lvl 0 + bitAt t.plvl 1 + t.pclass.toNat * 16 + bitAt t.rdy 6 + bitAt t.cropen 7
    + bitAt t.promo 8 + bitAt t.uim 9 + bitAt t.ulih 10 + bitAt t.df 11 + t.crcause.toNat * 4096)

/-- TSTAT from a word of a team image. -/
def TStat.ofBits (w : Word) : TStat :=
  { lvl := w.getLsbD 0, plvl := w.getLsbD 1, pclass := w.extractLsb' 4 2, rdy := w.getLsbD 6, cropen := w.getLsbD 7
    promo := w.getLsbD 8, uim := w.getLsbD 9, ulih := w.getLsbD 10, df := w.getLsbD 11, crcause := w.extractLsb' 12 8 }

/-- RPSTAT (R214). -/
def RpRegs.bits (r : RpRegs) : Word :=
  BitVec.ofNat 64 (r.state.toNat + bitAt r.feed 2 + bitAt r.torn 3 + bitAt r.cfail 4 + bitAt r.pblost 5)

/-- ROT (R90). -/
def rotBits (t : Thread) : Word := BitVec.ofNat 64 (t.vbase.toNat + t.pbase.toNat * 256)

/-- The checksum status of mcks (R163). -/
def MatStatus.bits (m : MatStatus) (armed : Bool) : Word :=
  BitVec.ofNat 64 (bitAt m.cskip 0 + bitAt armed 1 + m.skips.toNat * 2 ^ 16 + m.passes.toNat * 2 ^ 32)

/-- LOCID, and locq with N = 0 (R43, R234): the location of a core, and whether the team has migrated. -/
def locBits (core : Nat) (mig : Bool) : Word :=
  let chip := core / 16
  let dom := Config.domainOf chip
  BitVec.ofNat 64 (chip + bitAt (Config.nClass chip) 4 + dom * 32 + core % 16 * 256 + dom * 4096 + bitAt mig 16)

/-- locq with N = 1 (R234): where an address lives. -/
def addrBits (s : State) (p pa : Nat) : Word :=
  let die := Config.storeDie pa
  BitVec.ofNat 64 (die * 32 + die * 4096 + bitAt (Config.hbmBase ≤ pa) 17 + bitAt (inDomain s p pa) 18)

/-- The location that a thread reads; under P2 the primary replica's (R234). -/
def locationOf (s : State) (t : Thread) : Word :=
  let w := if t.sys.tstat.pclass == 2 then
      ((s.threads.find? fun w => w.task == t.task && w.teamIx == t.teamIx && w.thrIx == t.thrIx && w.rep == 0).getD t) else t
  locBits w.core (match findTeam s w.team with | some u => u.mig | none => false)

/-- CUESTAT (R255). -/
def cueStatBits (q : Partition) : Word :=
  let c := q.cueStat
  BitVec.ofNat 64 (c.gen.toNat + bitAt c.swapPend 8 + bitAt q.cueStandby.isSome 9 + bitAt c.disabled 10
    + c.consec.toNat * 2 ^ 11 + c.overrun.toNat * 2 ^ 16 + c.refuse.toNat * 2 ^ 24 + c.decisions.toNat * 2 ^ 40)

/-- The status word (R192, R336). -/
def statusWord (code kind tag detail bytes faddr : Nat) : List Byte :=
  [BitVec.ofNat 8 code, BitVec.ofNat 8 kind] ++ leBytes 2 tag ++ leBytes 4 detail ++ leBytes 8 bytes ++ leBytes 8 faddr
    ++ leBytes 8 0

end Sys2Proof.Machine
end

