-- ==== Sys2Proof/Machine/Pair.lean ====
section
/-!
DEFINITION. Duplicated execution (R95, R204, R217, R230, R356, R361, R365-R369): operations a P2 pair performs once,
agreement points, and what a comparison that fails does. Under P0 and P1 every operation here is the plain one.
-/

namespace Sys2Proof.Machine

/-- The wait of an instruction ends with the instruction. -/
def clearWait (s : State) : State := modThr s fun t => { t with wait := .none, pairReq := none, pairRes := none }

/-- The team's replica 0, which keeps the paired log (R366). -/
def primaryOf (s : State) (t : Thread) : Option Team :=
  s.teams.find? fun u => u.task == t.task && u.ix == t.teamIx && u.rep == 0

/-- The other replica's copy of the selected thread. -/
def twinOf (s : State) (t : Thread) : Option Thread :=
  s.threads.find? fun w => w.task == t.task && w.teamIx == t.teamIx && w.thrIx == t.thrIx && w.rep + t.rep == 1 && w.rep < 2

/-- A vote position (R368): a thread's agreement point of its ordinal, its paired request of a kind with the log index, or the end. -/
def pointPos (thrIx ordinal : Nat) : Nat := 1 + 2 * (64 * ordinal + thrIx)
def requestPos (thrIx kind ix : Nat) : Nat := 2 + 2 * (64 * (3 * ix + kind) + thrIx)
def endPos : Nat := 0

/-- The request that a stream of a thread presents to the pair, its result, and how many it has presented before. -/
def Thread.request (t : Thread) : Stream → Option (List Nat)
  | .execute => t.pairReq
  | .access => t.axReq
def Thread.result (t : Thread) : Stream → Option Word
  | .execute => t.pairRes
  | .access => t.axRes
def Thread.requestIx (t : Thread) : Stream → Nat
  | .execute => t.logIx
  | .access => t.axIx
def Thread.present (t : Thread) (st : Stream) (req : List Nat) : Thread :=
  match st with
  | .execute => { t with pairReq := some req }
  | .access => { t with axReq := some req }
def Thread.answer (t : Thread) (st : Stream) (v : Word) : Thread :=
  match st with
  | .execute => { t with pairRes := some v }
  | .access => { t with axRes := some v }

/-- The stream has its result and goes on to the next request. -/
def Thread.answered (t : Thread) (st : Stream) : Thread :=
  match st with
  | .execute => { t with pairReq := none, pairRes := none, logIx := t.logIx + 1 }
  | .access => { t with axReq := none, axRes := none, axIx := t.axIx + 1 }

/-- The position of the agreement point that a thread waits at. -/
def Thread.point (t : Thread) : Nat := pointPos t.thrIx t.ordinal

/-- The thread waits at an agreement point from this moment (R230). -/
def Thread.atAgreement (t : Thread) (now : Nat) : Thread := { t with wait := .sigchk, pointAt := now }

/-- A comparison fails (R361, R368): inside a region both replicas unwind; outside, both stop for a vote at this position. -/
def comparisonFails (s : State) (position : Nat) : State :=
  let t := s.thr
  if t.inRegion then unwindPair s 0x0B
  else
    let s := (t :: (twinOf s t).toList).foldl (fun s w => recordOf s w .execute 0x0B w.ex.pc 0 none 0 0) s
    match findTeam s t.team with
    | none => s
    | some u => (replicasOf s u).foldl (fun s w =>
        if w.rep < 2 then modTeam (requestStop s w.id .vote) w.id fun w => { w with votePos := position, suspect := none }
        else s) s

/-- What presents a request: the execute stream, or the access stream. -/
def kindOf (st : Stream) : Nat := match st with | .execute => 0 | .access => 1

/-- The unwind that the other replica has left to this one (R227): none when the region here is promoted. -/
def dueUnwind (t : Thread) : Option Byte := if t.inRegion then t.unwindDue.head? else none

/-- An Understudy that leaves the pair's record, or fails a check, is replaced (R369). -/
def understudyEnds (s : State) : State :=
  modTeam s s.thr.team fun u => { u with status := .ended }

/-- An operation that a pair performs once, when both replicas present identical requests; its result reaches both (R204).
An Understudy takes results from the log and performs nothing (R368). A replica whose partner has unwound the region unwinds it here
(R361). Anything else performs it at once. -/
def paired (s : State) (req : List Nat) (perform : State → Word × State) (finish : Word → State → State) : State :=
  let t := s.thr
  let st := s.cur
  if t.sys.tstat.pclass != 2 then
    let r := perform s
    finish r.1 r.2
  else if t.rep == 2 then
    match primaryOf s t with
    | none => stall s .other
    | some u =>
      match (u.log.filter fun e => e.thrIx == t.thrIx && e.kind == kindOf st)[t.requestIx st]? with
      | none => stall (modThr s fun t => t.present st req) .other
      | some e =>
        if e.req == req then finish e.res (modThr s fun t => t.answered st)
        else understudyEnds (addScore s t.core)
  else if (dueUnwind t).isSome then unwind s ((dueUnwind t).getD 0)
  else
    match t.result st with
    | some v => finish v (modThr s fun t => t.answered st)
    | none =>
      let s := modThr s fun t => t.present st req
      match twinOf s t with
      | none => stall s .other
      | some w =>
        match w.request st with
        | none => stall s .other
        | some r =>
          if r == req then
            let (v, s) := perform s
            let s := logPaired s t { thrIx := t.thrIx, req := req, res := v, kind := kindOf st }
            let s := modTid s w.tid fun w => w.answer st v
            finish v (modThr s fun t => t.answered st)
          else comparisonFails s (requestPos t.thrIx (kindOf st) (t.requestIx st))

/-- The mbputs of the selected thread that can leave it do. The oldest ones of the replicas of a pair must be the same, and an
Understudy's is the one that the log holds (R95, R366, R369). -/
def settleLate (s : State) : State :=
  let s := releaseLate s s.thr.tid s.thr.late.length
  let t := s.thr
  match t.late.head? with
  | none => s
  | some r =>
    if t.sys.tstat.pclass != 2 then s
    else if t.rep == 2 then
      match (loggedOf s t 2)[t.putIx]? with
      | some e => if e.req == r.key then s else understudyEnds (addScore s t.core)
      | none => s
    else match (twinOf s t).bind fun w => w.late.head? with
      | some q => if q.key == r.key then s else comparisonFails s (requestPos t.thrIx 2 t.putIx)
      | none => s

/-- The mailboxes a thread of a P2 pair sees are brought up to date at an agreement point it completes, and logged with its
ordinal (R93, R366). An Understudy takes them from the log. -/
def refreshMailboxes (s : State) (t : Thread) (ordinal : Nat) : State :=
  match primaryOf s t with
  | none => s
  | some u =>
    if t.rep == 2 then
      let due := u.mbLog.filter fun e => e.1 == t.thrIx && e.2.1 == ordinal
      modTid s t.tid fun t => { t with mbView := due.foldl (fun v e => upd v e.2.2.1 e.2.2.2) t.mbView }
    else
      let changed := (List.range 8).filter fun k => nth u.mb k 0 != nth t.mbView k 0
      let s := modTid s t.tid fun t => { t with mbView := u.mb }
      if t.rep == 0 then
        modTeam s u.id fun u => { u with mbLog := u.mbLog ++ changed.map fun k => (t.thrIx, ordinal, k, nth u.mb k 0) }
      else s

/-- One thread passes an agreement point (R230, R366): its held lines drain, its ordinal counts, its mailboxes refresh. The lines of
an Understudy do not drain, and take no room any more (R365, R368). At a crc the drain begins (R226). -/
def passAgreement (s : State) (t : Thread) : State :=
  let s := if t.rep == 2 then modTid s t.tid fun t => { t with wings := t.wings.map fun l => if l.held then { l with past := true } else l }
    else drainLines s t.tid true
  let s := refreshMailboxes s t (t.ordinal + 1)
  modTid s t.tid fun t => { t with ordinal := t.ordinal + 1, wait := if t.crcMark.isSome then .drain else .agreed }

/-- An instruction that is an agreement point under P2 waits there until AGREEMENT_POINT has agreed (R204, R230, R365);
under P0 and P1 it goes on. An unwind of the other replica is taken here (R227). -/
def agreeThen (s : State) (k : State → State) : State :=
  let t := s.thr
  if t.sys.tstat.pclass != 2 then k s
  else match dueUnwind t with
    | some c => unwind s c
    | none => point (modThr s fun t => { t with unwindDue := [] })
where
  /-- The point itself: its signatures are complete when the vector queue is empty and every store before it is paired (R355). -/
  point (s : State) : State :=
    match s.thr.wait with
    | .agreed => k s
    | .none =>
      if !s.thr.qs.sdq.isEmpty then stall s .queue
      else if s.thr.vq.isEmpty then stall (modThr s fun t => t.atAgreement s.mod.time) .listed
      else stall s .listed
    | _ => stall s .listed

end Sys2Proof.Machine
end

