-- ==== Sys2Proof/Machine/Scalar.lean ====
section
/-!
DEFINITION. The 43 scalar instructions of majors 0x01-0x0F (R75-R80): one value function each, over the three shapes
register-register, register and register-immediate.
-/

namespace Sys2Proof.Machine

/-! ### Shapes: every register named is interlocked (R76), D is written, the instruction completes. -/

/-- D := f(A, B). -/
def opRR (d a b : Reg) (f : Word → Word → Word) (s : State) : State :=
  withRegs s [d, a, b] fun s => complete (writeReg s d (f (readReg s a) (readReg s b)))

/-- D := f(A). -/
def opR (d a : Reg) (f : Word → Word) (s : State) : State :=
  withRegs s [d, a] fun s => complete (writeReg s d (f (readReg s a)))

/-! ### Values -/

/-- Zero bits above the highest set bit (R77). -/
def clzWord (a : Word) : Word := BitVec.ofNat 64 (if a.toNat = 0 then 64 else 63 - a.toNat.log2)

/-- Zero bits below the lowest set bit among n bits from bit k. -/
def ctzFrom (a : Word) : Nat → Nat → Nat
  | 0, k => k
  | n + 1, k => if a.getLsbD k then k else ctzFrom a n (k + 1)

def ctzWord (a : Word) : Word := BitVec.ofNat 64 (ctzFrom a 64 0)

/-- Set bits among the low n. -/
def popFrom (a : Word) : Nat → Nat
  | 0 => 0
  | n + 1 => (if a.getLsbD n then 1 else 0) + popFrom a n

def popcWord (a : Word) : Word := BitVec.ofNat 64 (popFrom a 64)

/-- The smaller and the larger by s() and by u() (R77). -/
def minS (a b : Word) : Word := if b.slt a then b else a
def maxS (a b : Word) : Word := if a.slt b then b else a
def minU (a b : Word) : Word := if b.ult a then b else a
def maxU (a b : Word) : Word := if a.ult b then b else a

/-- Only B[5:0] counts (R77). -/
def shiftAmount (b : Word) : Nat := b.toNat % 64
def shlWord (a b : Word) : Word := a <<< shiftAmount b
def shrWord (a b : Word) : Word := a >>> shiftAmount b
def sraWord (a b : Word) : Word := a.sshiftRight (shiftAmount b)

/-- High halves of the products (R78). -/
def mulhWord (a b : Word) : Word := BitVec.ofInt 64 (a.toInt * b.toInt / 2 ^ 64)
def mulhuWord (a b : Word) : Word := BitVec.ofNat 64 (a.toNat * b.toNat / 2 ^ 64)
def mulhsuWord (a b : Word) : Word := BitVec.ofInt 64 (a.toInt * (b.toNat : Int) / 2 ^ 64)

/-- Quotients truncate toward zero; a zero divisor gives all ones (R78). -/
def divWord (a b : Word) : Word := if b = 0 then Word.ones else BitVec.ofInt 64 (a.toInt.tdiv b.toInt)
def divuWord (a b : Word) : Word := if b = 0 then Word.ones else BitVec.ofNat 64 (a.toNat / b.toNat)
def remWord (a b : Word) : Word := if b = 0 then Word.ones else BitVec.ofInt 64 (a.toInt.tmod b.toInt)
def remuWord (a b : Word) : Word := if b = 0 then Word.ones else BitVec.ofNat 64 (a.toNat % b.toNat)

/-- sext and zext of IMM16 (R80). -/
def simm (i : BitVec 16) : Word := i.signExtend 64
def zimm (i : BitVec 16) : Word := i.zeroExtend 64

/-- D[16h+15 : 16h] := IMM16 (R80). -/
def movkWord (d : Word) (h : BitVec 2) (i : BitVec 16) : Word :=
  let k := 16 * h.toNat
  (d &&& ~~~ ((0xFFFF#64) <<< k)) ||| (zimm i <<< k)

/-! ### Meanings -/

/-- add: D := wrap(A + B) (R77). -/
def execAdd (d a b : Reg) (s : State) : Result := .next (opRR d a b (· + ·) s)

/-- sub: D := wrap(A - B) (R77). -/
def execSub (d a b : Reg) (s : State) : Result := .next (opRR d a b (· - ·) s)

/-- and (R77). -/
def execAnd (d a b : Reg) (s : State) : Result := .next (opRR d a b (· &&& ·) s)

/-- or (R77). -/
def execOr (d a b : Reg) (s : State) : Result := .next (opRR d a b (· ||| ·) s)

/-- xor (R77). -/
def execXor (d a b : Reg) (s : State) : Result := .next (opRR d a b (· ^^^ ·) s)

/-- andn: A and not B (R77). -/
def execAndn (d a b : Reg) (s : State) : Result := .next (opRR d a b (fun a b => a &&& ~~~ b) s)

/-- shl (R77). -/
def execShl (d a b : Reg) (s : State) : Result := .next (opRR d a b shlWord s)

/-- shr (R77). -/
def execShr (d a b : Reg) (s : State) : Result := .next (opRR d a b shrWord s)

/-- sra (R77). -/
def execSra (d a b : Reg) (s : State) : Result := .next (opRR d a b sraWord s)

/-- min by s() (R77). -/
def execMin (d a b : Reg) (s : State) : Result := .next (opRR d a b minS s)

/-- max by s() (R77). -/
def execMax (d a b : Reg) (s : State) : Result := .next (opRR d a b maxS s)

/-- minu by u() (R77). -/
def execMinu (d a b : Reg) (s : State) : Result := .next (opRR d a b minU s)

/-- maxu by u() (R77). -/
def execMaxu (d a b : Reg) (s : State) : Result := .next (opRR d a b maxU s)

/-- clz (R77). -/
def execClz (d a : Reg) (s : State) : Result := .next (opR d a clzWord s)

/-- ctz (R77). -/
def execCtz (d a : Reg) (s : State) : Result := .next (opR d a ctzWord s)

/-- popc (R77). -/
def execPopc (d a : Reg) (s : State) : Result := .next (opR d a popcWord s)

/-- mov (R77). -/
def execMov (d a : Reg) (s : State) : Result := .next (opR d a id s)

/-- mul: the low 64 bits (R78). -/
def execMul (d a b : Reg) (s : State) : Result := .next (opRR d a b (· * ·) s)

/-- mulh (R78). -/
def execMulh (d a b : Reg) (s : State) : Result := .next (opRR d a b mulhWord s)

/-- mulhu (R78). -/
def execMulhu (d a b : Reg) (s : State) : Result := .next (opRR d a b mulhuWord s)

/-- mulhsu (R78). -/
def execMulhsu (d a b : Reg) (s : State) : Result := .next (opRR d a b mulhsuWord s)

/-- div (R78). -/
def execDiv (d a b : Reg) (s : State) : Result := .next (opRR d a b divWord s)

/-- divu (R78). -/
def execDivu (d a b : Reg) (s : State) : Result := .next (opRR d a b divuWord s)

/-- rem (R78). -/
def execRem (d a b : Reg) (s : State) : Result := .next (opRR d a b remWord s)

/-- remu (R78). -/
def execRemu (d a b : Reg) (s : State) : Result := .next (opRR d a b remuWord s)

/-- seq (R79). -/
def execSeq (d a b : Reg) (s : State) : Result := .next (opRR d a b (fun a b => Word.ofBool (a == b)) s)

/-- sne (R79). -/
def execSne (d a b : Reg) (s : State) : Result := .next (opRR d a b (fun a b => Word.ofBool (a != b)) s)

/-- slt (R79). -/
def execSlt (d a b : Reg) (s : State) : Result := .next (opRR d a b (fun a b => Word.ofBool (a.slt b)) s)

/-- sltu (R79). -/
def execSltu (d a b : Reg) (s : State) : Result := .next (opRR d a b (fun a b => Word.ofBool (a.ult b)) s)

/-- sle (R79). -/
def execSle (d a b : Reg) (s : State) : Result := .next (opRR d a b (fun a b => Word.ofBool (a.sle b)) s)

/-- sleu (R79). -/
def execSleu (d a b : Reg) (s : State) : Result := .next (opRR d a b (fun a b => Word.ofBool (a.ule b)) s)

/-- addi (R80). -/
def execAddi (d a : Reg) (i : BitVec 16) (s : State) : Result := .next (opR d a (fun a => a + simm i) s)

/-- andi (R80). -/
def execAndi (d a : Reg) (i : BitVec 16) (s : State) : Result := .next (opR d a (fun a => a &&& zimm i) s)

/-- ori (R80). -/
def execOri (d a : Reg) (i : BitVec 16) (s : State) : Result := .next (opR d a (fun a => a ||| zimm i) s)

/-- xori (R80). -/
def execXori (d a : Reg) (i : BitVec 16) (s : State) : Result := .next (opR d a (fun a => a ^^^ zimm i) s)

/-- slti (R80). -/
def execSlti (d a : Reg) (i : BitVec 16) (s : State) : Result := .next (opR d a (fun a => Word.ofBool (a.slt (simm i))) s)

/-- sltiu (R80). -/
def execSltiu (d a : Reg) (i : BitVec 16) (s : State) : Result := .next (opR d a (fun a => Word.ofBool (a.ult (simm i))) s)

/-- seqi (R80). -/
def execSeqi (d a : Reg) (i : BitVec 16) (s : State) : Result := .next (opR d a (fun a => Word.ofBool (a == simm i)) s)

/-- shli: as shl, with IMM16[5:0] as the amount (R80). -/
def execShli (d a : Reg) (i : BitVec 6) (s : State) : Result := .next (opR d a (fun a => shlWord a (i.zeroExtend 64)) s)

/-- shri (R80). -/
def execShri (d a : Reg) (i : BitVec 6) (s : State) : Result := .next (opR d a (fun a => shrWord a (i.zeroExtend 64)) s)

/-- srai (R80). -/
def execSrai (d a : Reg) (i : BitVec 6) (s : State) : Result := .next (opR d a (fun a => sraWord a (i.zeroExtend 64)) s)

/-- movi (R80). -/
def execMovi (d : Reg) (i : BitVec 16) (s : State) : Result := .next (opR d d (fun _ => simm i) s)

/-- movk: the other bits of D are unchanged (R80). -/
def execMovk (d : Reg) (h : BitVec 2) (i : BitVec 16) (s : State) : Result := .next (opR d d (fun x => movkWord x h i) s)

end Sys2Proof.Machine
end

