-- ==== Sys2Proof/Machine/Control.lean ====
section
/-!
DEFINITION. The 13 control instructions: branches, jumps, loops, mailboxes, rotation (R82-R94, R96).
-/

namespace Sys2Proof.Machine

/-- Transfer to pc + 4 * offset when taken, else complete (R82). -/
def branch (s : State) (taken : Bool) (o : BitVec 16) : State :=
  if taken then transfer s (s.pc + 4 * o.signExtend 64) else complete s

/-- A compare of A with B branches (R82). -/
def branchIf (a b : Reg) (o : BitVec 16) (f : Word → Word → Bool) (s : State) : State :=
  withRegs s [a, b] fun s => branch s (f (readReg s a) (readReg s b)) o

/-- beq (R82). -/
def execBeq (a b : Reg) (o : BitVec 16) (s : State) : Result := .next (branchIf a b o (· == ·) s)

/-- bne (R82). -/
def execBne (a b : Reg) (o : BitVec 16) (s : State) : Result := .next (branchIf a b o (· != ·) s)

/-- blt (R82). -/
def execBlt (a b : Reg) (o : BitVec 16) (s : State) : Result := .next (branchIf a b o (fun x y => x.slt y) s)

/-- bge (R82). -/
def execBge (a b : Reg) (o : BitVec 16) (s : State) : Result := .next (branchIf a b o (fun x y => !x.slt y) s)

/-- One outcome bit is popped from BQ; an empty BQ stalls (R25, R83). -/
def branchQueue (s : State) (o : BitVec 16) (want : Bool) : State :=
  match s.thr.qs.bq with
  | [] => stall s .queue
  | x :: rest =>
    branch (modThr s fun t => { t with qs := { t.qs with bq := rest, popped := { t.qs.popped with bq := t.qs.popped.bq + 1 } } })
      (x == want) o

/-- bqt (R83). -/
def execBqt (o : BitVec 16) (s : State) : Result := .next (branchQueue s o true)

/-- bqf (R83). -/
def execBqf (o : BitVec 16) (s : State) : Result := .next (branchQueue s o false)

/-- jal (R84). -/
def execJal (d : Reg) (o : BitVec 21) (s : State) : Result :=
  .next (withRegs s [d] fun s =>
    let link := s.pc + 4
    transfer (writeReg s d link) (s.pc + 4 * o.signExtend 64))

/-- jalr (R46, R85): the target is read before D is written. -/
def execJalr (d a : Reg) (s : State) : Result :=
  .next (withRegs s [d, a] fun s =>
    let target := readReg s a
    if target.toNat % 4 != 0 then raiseHere s 0x04 target
    else
      let link := s.pc + 4
      transfer (writeReg s d link) target)

/-- Mailbox k as the thread reads it: the team's, or under P2 the view of its last agreement point (R92, R93). -/
def mailbox (s : State) (k : Nat) : Word :=
  if s.thr.sys.tstat.pclass == 2 then nth s.thr.mbView k 0
  else match findTeam s s.thr.team with
    | some u => nth u.mb k 0
    | none => 0

/-- mbrd (R92). In the access stream it is an acquire at DEV scope (R94): accesses issue in order after it. -/
def execMbrd (d : Reg) (k : BitVec 3) (s : State) : Result :=
  .next (withRegs s [d] fun s => complete (writeReg s d (mailbox s k.toNat)))

/-- What a release of the execute stream waits for (R116, R295): stores whose SDQ entry precedes it, and at ENS scope or
wider the in-core engine commands before it. None when it may complete. -/
def executeRelease (s : State) (c : Scope) : Option Stall :=
  if !s.thr.qs.sdq.isEmpty then some .queue
  else if c != .thr && !(s.thr.vq.isEmpty && s.thr.mq.isEmpty) then some .listed
  else none

/-- Stores of a replica wait in the Wings for an agreement point, and no release that waits for their visibility completes before
(R116, R120, log 57). An Understudy's lines never drain (R368). -/
def heldStores (t : Thread) : Bool := t.sys.tstat.pclass == 2 && t.rep < 2 && t.wings.any fun l => l.held

/-- An mbput of a region that is open, or whose pair has not formed, is the region's (R96, R223). -/
def regionHolds (t : Thread) : Bool := t.inRegion || regionPending t

/-- mbput (R93-R97, R295): a release at DEV scope, held until crc inside a region. A P2 replica presents it to the pair, which performs
it once what it covers is visible; otherwise it completes when it takes effect, after the stores, commands and mbputs before it. -/
def execMbput (k : BitVec 3) (a b : Reg) (s : State) : Result :=
  .next (withRegs s [a, b] fun s =>
    let q : HeldReq := .mbput (readReg s a) k.toNat (readReg s b) (s.thr.gate 0)
    if regionHolds s.thr then complete (modThr s fun t => { t with held := t.held ++ [q] })
    else if s.thr.sys.tstat.pclass == 2 then settleLate (modThr (complete s) fun t => { t with late := t.late ++ [q] })
    else match executeRelease s .dev with
      | some w => stall s w
      | none => if s.thr.late.isEmpty then complete (performPut s s.thr q) else stall s .other)

/-- rotrd (R90). -/
def execRotrd (d : Reg) (s : State) : Result :=
  .next (withRegs s [d] fun s => complete (writeReg s d (rotBits s.thr)))

/-- rotwr (R90). -/
def execRotwr (a : Reg) (s : State) : Result :=
  .next (withRegs s [a] fun s =>
    let v := readReg s a
    complete (modThr s fun t =>
      { t with vbase := if t.rotN == 0 then 0 else BitVec.ofNat 6 (v.toNat % 64 % t.rotN), pbase := v.extractLsb' 8 3 }))

/-- A loop level is set and becomes the innermost active one (R87). -/
def startLoop (t : Thread) (st : Stream) (l : Nat) (pc : Word) (trips epi len : Nat) : Thread :=
  let t := t.modSt st fun x =>
    { setLoop x l { lc := BitVec.ofNat 32 (min (trips + epi) 0xFFFFFFFF), start := pc + 4
                    endA := pc + BitVec.ofNat 64 (4 * len), epi := BitVec.ofNat 4 epi, active := true } with
      order := l :: x.order.filter (· != l) }
  match st with
  | .access => t
  | .execute =>
    if epi == 0 then t
    else (List.range 7).foldl (fun t j => loopWriteP t (physP t (9 + j)) false) (loopWriteP t (physP t 8) true)

/-- loop (R86, R87): a zero trip count skips the body and leaves the level as it was. -/
def execLoop (l : BitVec 2) (src : Bool) (r : Reg) (n : BitVec 10) (s : State) : Result :=
  .next (withRegs s (if src then [] else [r]) fun s =>
    let v := if src then mailbox s r.toNat else readReg s r
    let trips := bitsOf v.toNat 0 32
    let epi := bitsOf v.toNat 32 4
    if trips == 0 then transfer s (s.pc + 4 * (n.zeroExtend 64 + 1))
    else
      let pc := s.pc
      transfer (modThr s fun t => startLoop t s.cur l.toNat pc trips epi n.toNat) (pc + 4))

end Sys2Proof.Machine
end

