-- ==== Sys2Proof/Machine/Fetch.lean ====
section
/-!
DEFINITION. Fetching an instruction (R67), what an illegal encoding does (R62, R66), and how a program is placed for the
next step (log 4).
-/

namespace Sys2Proof.Machine

/-- The words of an instruction as TADDR holds them: word 0 below, word 1 above (R66). -/
def wordsValue (i : Instr) : Word :=
  match encode i with
  | .one w => w.zeroExtend 64
  | .two w w1 => w1 ++ w
  | .half h => h.zeroExtend 64
  | .none => 0

/-- The instruction that issues is illegal by a test made at issue (R55, R62, R88, R200, R224). -/
def illegal (s : State) (i : Instr) : State := raiseHere s 0x01 (wordsValue i)

/-- Format fault, privileged and migrate name the words too (R66). -/
def formatFault (s : State) (i : Instr) : State := raiseHere s 0x16 (wordsValue i)
def privileged (s : State) (i : Instr) : State := raiseHere s 0x03 (wordsValue i)
def migrate (s : State) (i : Instr) : State := raiseHere s 0x02 (wordsValue i)

/-- A word of a code section given as bytes from a base. -/
def sectionWord (base : Nat) (code : List Byte) (va : Nat) : Option Word32 :=
  if base ≤ va && va + 4 ≤ base + code.length then
    some (BitVec.ofNat 32 (leNat ((code.drop (va - base)).take 4)))
  else none

/-- Where an instruction fetch reads (R281): in the heap window, or through a leaf with EX and DEV. -/
def fetchPA (s : State) (p va : Nat) : Option Nat :=
  let q := s.part p
  if Config.heapVA ≤ va && va + 4 ≤ Config.heapVA + q.heapLen then some (q.heapPA + (va - Config.heapVA))
  else match walkVA s p va with
    | some (e, _, size) => if e.testBit 4 && e.testBit 1 then some (leafPA e size va) else none
    | none => none

/-- The handler image is a code section of every task of the partition (R67, R398); it is read where ADDR translates. -/
def handlerWord (s : State) (p va : Nat) : Option Word32 :=
  match (s.part p).handler with
  | none => none
  | some (a, n) => if a ≤ va && va + 4 ≤ a + n then (fetchPA s p va).map fun pa => BitVec.ofNat 32 (getLe s.mem pa 4) else none

/-- The code section word at va and the word after it in the same section (R67). -/
def codeWords (s : State) (t : Thread) (va : Nat) : Option (Word32 × Option Word32) :=
  let inSection (base : Nat) (code : List Byte) : Option (Word32 × Option Word32) :=
    (sectionWord base code va).map fun w => (w, sectionWord base code (va + 4))
  let image := match findTask s t.task with
    | some k => match inSection k.img.abase k.img.acode with
      | some x => some x
      | none => inSection k.img.ebase k.img.ecode
    | none => none
  match image with
  | some x => some x
  | none => (handlerWord s t.part va).map fun w => (w, handlerWord s t.part (va + 4))

/-- The instruction at the program counter of the issuing stream; what does not decode is an illegal instruction, and so
is a word outside every code section (R62, R67). -/
def fetch (s : State) : Instr :=
  match codeWords s s.thr s.pc.toNat with
  | none => .illegalInstruction 0 0
  | some (w, w1) =>
    if twoWords w then
      match w1 with
      | none => .illegalInstruction w 0
      | some w1 => match decode s.cur w w1 with
        | .ok i => i
        | .error _ => .illegalInstruction w w1
    else match decode s.cur w 0 with
      | .ok i => i
      | .error _ => .illegalInstruction w 0

/-- A walk of the fetch that meets a malformed entry is logged (R281). -/
def noteFetch (s : State) : State := if (codeWords s s.thr s.pc.toNat).isSome then s else logMalformed s s.thr.part s.pc.toNat

/-- ILLEGAL_INSTRUCTION: cause 0x01 with TADDR the words (R62, R66, R67). -/
def execIllegalInstruction (w0 w1 : Word32) (s : State) : Result := .next (raiseHere s 0x01 (w1 ++ w0))

/-- A two-word instruction whose first word lies at END of an active level of its stream is illegal (R62). -/
def atLoopEnd (s : State) : Bool :=
  s.stream.order.any fun l => (getLoop s.stream l).active && (getLoop s.stream l).endA == s.pc

/-! ### Placing a program (log 4) -/

/-- Where a placed program lies: the start of the image area (R74). -/
def placedBase : Nat := Config.imageArea

/-- A task of one thread whose two code sections are the bytes given, the thread live and resident on core 0. -/
def placeCode (s : State) (code : List Byte) : State :=
  let img : KImage :=
    { threads := 1, vregs := 96, rotN := 0, accs := 6, spadUnits := 40, pclass := 0, qx := false, abase := placedBase
      acode := code, ebase := placedBase, ecode := code, dbase := 0, dlen := 0 }
  let k : Task :=
    { id := s.nextId, part := s.thr.part, queue := 0, seq := 0, troupe := false, state := .running, img := img, pclass := 0, caps := 0
      nteams := 1, pin := false, deps := [], depsMet := 0, mbs := [Vector.replicate 8 0], next := 1, endedTeams := [], record := 0, conn := 0
      launch := [], restarts := 0, restart := [], avoid := [], enqueued := 0, watch := none }
  let u : Team :=
    { id := s.nextId + 1, part := s.thr.part, task := s.nextId, ix := 0, rep := 0, chip := 0, home := 0, status := .resident, stopFor := .none
      mb := Vector.replicate 8 0, mbLaunch := Vector.replicate 8 0, mig := false, since := 0, shadow := [], heldPages := []
      log := [], mbLog := [], trapRec := none, votePos := 0, suspect := none, starts := 0, agreedEnd := false, dbgHalt := false, awaits := none, moving := none, classN := false }
  let at0 (x : StreamState) : StreamState := { x with pc := BitVec.ofNat 64 placedBase, ended := false, stopped := false, stall := .no }
  { s with tasks := k :: s.tasks, teams := u :: s.teams, nextId := s.nextId + 2
           mod := { s.mod with power := .ps0, inReset := false, tripped := false }
           thr := { s.thr with live := true, resident := true, ended := false, halted := false, task := s.nextId, team := s.nextId + 1
                               trap := none, walk := [], pf := [], vregs := 96, accs := 6, spadSize := 327680, ex := at0 s.thr.ex, ax := at0 s.thr.ax } }

/-- The partition's cue decision runs the halfword given: a FAULT decision with no candidate. -/
def placeCue (s : State) (h : BitVec 16) : State :=
  let p := s.curPart % 8
  { modPart s p fun q => { q with run := { CueRun.idle with active := true, kind := 2, code := [h] } } with
    curPart := p, sched := [.cue p], mod := { s.mod with power := .ps0, inReset := false, tripped := false } }

/-- The instruction of an opcode-table row, placed so that the next step runs it (log 4): a cue halfword as the next slot
of a running decision; words at the program counter of a thread, issued in the first stream that accepts them. -/
def placeWord (s : State) (nbits w : Nat) : State :=
  let w := w % 2 ^ nbits
  if nbits ≤ 16 then placeCue s (BitVec.ofNat 16 w)
  else
    let s := placeCode s (leBytes 8 w ++ leBytes 8 0)
    let st := match decodeAny (BitVec.ofNat 32 w) (BitVec.ofNat 32 (w / 2 ^ 32)) with
      | some (st, _) => st
      | none => .execute
    { s with sched := [.issue s.thr.tid st] }

end Sys2Proof.Machine
end

