-- ==== Sys2Proof/Machine/Operands.lean ====
section
/-!
DEFINITION. Operand forms of memory and scratchpad accesses: effective addresses (R98), scratchpad address values and
extents (R108, R277, R278), tile and gather descriptors (R110, R111), bank locks (R109, log 9) with the extents of engine commands
(R141, R143, R152-R154), and the holds of marks (R106).
-/

namespace Sys2Proof.Machine

/-- ea of majors 0x18-0x1A: H[BASE] + OFF12 * size, wrapped (R98). -/
def effective (s : State) (b : Reg) (o : BitVec 12) (size : Nat) : Word :=
  readReg s b + BitVec.ofNat 64 (o.toNat * size)

/-! ### Scratchpad extents -/

/-- An extent of a thread's scratchpad: whose, from which group offset, how many bytes. -/
structure Extent where
  tid : Nat
  off : Nat
  len : Nat
  deriving DecidableEq, Repr

def Extent.overlaps (a b : Extent) : Bool := a.tid == b.tid && a.off < b.off + b.len && b.off < a.off + a.len

/-- Group Y starts at 0x4_0000 (R14, R108). -/
def groupY (off : Nat) : Bool := 0x40000 ≤ off

/-- The thread that an SPA names: the issuing thread, or thread TIX of its team (R108, R278). -/
def spaTarget (s : State) (t : Thread) (spa : Word) : Option Thread :=
  let v := spa.toNat
  if bitsOf v 26 38 != 0 then none
  else if v.testBit 19 then
    s.threads.find? fun w => w.team == t.team && w.live && w.thrIx == bitsOf v 20 6
  else if bitsOf v 20 6 != 0 then none else some t

/-- The checks of R108 on an extent that starts at an SPA: none raises scratchpad range fault (0x09). -/
def extentAt (s : State) (t : Thread) (spa : Word) (len align : Nat) : Option Extent :=
  match spaTarget s t spa with
  | none => none
  | some w =>
    let off := bitsOf spa.toNat 0 19
    let half := w.spadSize / 2
    let base := if groupY off then 0x40000 else 0
    if off % align == 0 && base ≤ off && off + len ≤ base + half then some { tid := w.tid, off := off, len := len }
    else none

/-- The scratchpad bytes of an extent. -/
def readSpad (s : State) (x : Extent) : List Byte :=
  match s.threads.find? (fun t => t.tid == x.tid) with
  | some t => getCells t.spad x.off x.len
  | none => List.replicate x.len 0

/-- Bytes into a scratchpad, with the poison mark they carry (R141, R358). -/
def writeSpad (s : State) (tid off : Nat) (bs : List Byte) (pz : Bool := false) : State :=
  modTid s tid fun t => { t with spad := setCells t.spad off bs, spadPoison := remark t.spadPoison off bs.length pz }

/-- Poisoned units of a scratchpad, by group offset (R141, R160). -/
def spadPoisonIn (s : State) (x : Extent) : List Nat :=
  match s.threads.find? (fun t => t.tid == x.tid) with
  | some t => t.spadPoison.filter fun u => u < x.off + x.len && x.off < u + 64
  | none => []

/-! ### Descriptors -/

/-- Tile descriptor TD (R110). -/
def tdReserved (td : Word) : Bool := bitsOf td.toNat 40 24 != 0
def tdStride (td : Word) : Nat := bitsOf td.toNat 20 20
def tdRows (td : Word) : Nat := bitsOf td.toNat 8 12
def tdUnits (td : Word) : Nat := bitsOf td.toNat 0 8

/-- Gather descriptor GD (R111). -/
def gdReserved (gd : Word) : Bool := bitsOf gd.toNat 37 27 != 0 || bitsOf gd.toNat 13 3 != 0
def gdIndex (gd : Word) : Nat := bitsOf gd.toNat 18 19
def gdSize (gd : Word) : Nat := 2 ^ bitsOf gd.toNat 16 2
def gdCount (gd : Word) : Nat := bitsOf gd.toNat 0 13

/-- The data extent of a transfer, and for gth and sct its index extent. -/
def xferExtents (s : State) (t : Thread) (x : Xfer) : List Extent :=
  let data (len : Nat) : List Extent := match spaTarget s t x.spa with
    | some w => [{ tid := w.tid, off := bitsOf x.spa.toNat 0 19, len := len }]
    | none => []
  match x.kind with
  | .tld | .tst => data (64 * tdUnits x.desc * tdRows x.desc)
  | .gth | .sct => data (gdSize x.desc * gdCount x.desc) ++ [{ tid := t.tid, off := gdIndex x.desc, len := 4 * gdCount x.desc }]

/-! ### Shape (R122, R123) -/

/-- Rows, columns and element width. -/
structure Shape where
  nr : Nat
  nc : Nat
  w : Nat
  deriving DecidableEq, Repr

def shapeOf (shp : Word) : Shape :=
  { nr := bitsOf shp.toNat 9 8 + 1, nc := bitsOf shp.toNat 0 9 + 1, w := 2 ^ bitsOf shp.toNat 17 2 }

def Shape.n (x : Shape) : Nat := x.nr * x.nc

/-! ### Extents of commands (R141, R143, R152-R154) -/

/-- Row pitch of vld and vst. -/
def pitchOf (f : Wide) (x : Shape) : Nat := if f.mod == 0 then x.nc * x.w else f.mod.toNat

/-- Bytes of the extent of a vld or vst: a vld into a Q register reads row 0 alone. -/
def tileExtentLen (f : Wide) (x : Shape) (rows : Nat) : Nat := (rows - 1) * pitchOf f x + x.nc * x.w

/-- Rows that a vld reads. -/
def vldRows (f : Wide) (x : Shape) : Nat := if 96 ≤ f.vd.toNat then 1 else x.nr

/-- Row pitch and length of the A rows of mmac (R154). -/
def mdPitch (md : Word) : Nat := if bitsOf md.toNat 16 16 == 0 then 256 else bitsOf md.toNat 16 16
def mdRow0 (md : Word) : Nat := bitsOf md.toNat 8 8
def mdRows (md : Word) : Nat := bitsOf md.toNat 0 8 + 1
def mmacLen (md : Word) : Nat := (mdRows md - 1) * mdPitch md + 256

/-- The extent of tload: 16 + 4 * NSEG bytes, with NSEG of the header that lies there; the header alone where the whole fails R108
(R175). -/
def tableExtent (s : State) (t : Thread) (spa : Word) : Option Extent :=
  match extentAt s t spa 16 16 with
  | none => none
  | some e => some ((extentAt s t spa (16 + 4 * (leNat ((readSpad s { e with off := e.off + 8, len := 1 })) + 1)) 16).getD e)

/-- The scratchpad extent of a command, when it has one that passes R108; and whether the command writes it. -/
def cmdExtent (s : State) (t : Thread) (c : Cmd) : Option (Extent × Bool) :=
  let x := shapeOf c.shp
  match c.i with
  | .vld f => (extentAt s t c.g1 (tileExtentLen f x (vldRows f x)) x.w).map fun e => (e, false)
  | .vst f => (extentAt s t c.g1 (tileExtentLen f x x.nr) x.w).map fun e => (e, true)
  | .pst _ => (extentAt s t c.g1 ((x.n + 7) / 8) 8).map fun e => (e, true)
  | .pld _ => (extentAt s t c.g1 ((x.n + 7) / 8) 8).map fun e => (e, false)
  | .tload _ => (tableExtent s t c.g1).map fun e => (e, false)
  | .mwld _ => (extentAt s t c.g1 32768 64).map fun e => (e, false)
  | .mwldq _ => (extentAt s t c.g1 16904 64).map fun e => (e, false)
  | .mmac _ => (extentAt s t c.g1 (mmacLen c.g2) 64).map fun e => (e, false)
  | _ => none

/-- Units of a tile transfer or elements of a gather or scatter, in loop order (R110, R111): memory address, scratchpad
offset, size. -/
def xferUnits (s : State) (t : Thread) (x : Xfer) : List (Word × Nat × Nat) :=
  let off := bitsOf x.spa.toNat 0 19
  match x.kind with
  | .tld | .tst =>
    let u := tdUnits x.desc
    (List.range (tdRows x.desc * u)).map fun k =>
      let i := k / u
      let j := k % u
      (x.mem + BitVec.ofNat 64 (64 * (i * tdStride x.desc + j)), off + 64 * k, 64)
  | .gth | .sct =>
    let n := gdSize x.desc
    (List.range (gdCount x.desc)).map fun k =>
      let idx := getLe t.spad (gdIndex x.desc + 4 * k) 4
      (x.mem + sextW idx 32 * BitVec.ofNat 64 n, off + n * k, n)

/-- Some transfer in flight, or stopped at a fault, holds bytes of an extent (R109, R118). The lock of a thread's own
stopped transfer does not hold the accesses that its handler makes, at supervisor level. -/
def lockedBy (s : State) (t : Thread) (sup : Bool) (x : Extent) : Bool :=
  s.threads.any fun w => w.qs.xfers.any fun f =>
    !(f.faulted && w.tid == t.tid && sup) && (xferExtents s w f).any fun e => e.overlaps x

/-- A head command that issued before place n has met a lock on its bank, whose extent overlaps, and has not been served (R109). -/
def headWaits (s : State) (n : Nat) (e : Extent) : Bool :=
  s.threads.any fun w => w.live && w.resident && w.cmdHold.isNone && [w.vq.head?, w.mq.head?].any fun h => match h with
    | none => false
    | some c => decide (c.stamp < n) && decide (c.marks ≤ w.qs.pairsFormed) && match cmdExtent s w c with
      | some x => x.1.overlaps e && (c.waited || lockedBy s w c.sup x.1)
      | none => false

/-- The head commands that a lock holds now have to wait: they keep their place when it is released (R109). -/
def lineUp (s : State) : State :=
  let held (w : Thread) (c : Cmd) : Bool := match cmdExtent s w c with
    | some x => lockedBy s w c.sup x.1
    | none => false
  let mark (w : Thread) : List Cmd → List Cmd
    | [] => []
    | c :: r => (if held w c then { c with waited := true } else c) :: r
  mapThreads s fun w => { w with vq := mark w w.vq, mq := mark w w.mq }

/-- A transfer that issued before place n waits for a bank of the extent. -/
def xferWaits (s : State) (n : Nat) (e : Extent) : Bool :=
  s.threads.any fun w => w.live && w.resident && match w.lockWait with
    | none => false
    | some (m, y) => decide (m < n) && (xferExtents s w y).any fun x => x.overlaps e

/-- A command waits for the lock of its bank, and behind what waits there since before it issued (R109). -/
def bankBusy (s : State) (t : Thread) (c : Cmd) (e : Extent) : Bool :=
  lockedBy s t c.sup e || xferWaits s c.stamp e || headWaits s c.stamp e

/-- The place of the selected thread's transfer among what waits for a bank: the one it took when it first had to wait. -/
def xferPlace (s : State) : Nat := match s.thr.lockWait with | some (n, _) => n | none => s.stamp

/-- A transfer waits for the lock, and behind what waits there since before it (R109). The handler waits for no one's turn. -/
def xferBusy (s : State) (t : Thread) (e : Extent) : Bool :=
  lockedBy s t t.sys.tstat.lvl e || (!t.sys.tstat.lvl && (headWaits s (xferPlace s) e || xferWaits s (xferPlace s) e))

/-! ### Holds -/

/-- Marks of the access stream so far: those of the pairs formed and the unpaired ones. -/
def axMarks (t : Thread) : Nat := t.qs.pairsFormed + t.ax.marks.length

/-- A later access of the access stream waits while a mark of its stream is not paired, and for what lies before the
pairs that precede it: engine commands among them, by HOLDIX (R106, R390). -/
def held (s : State) : Bool :=
  !s.thr.ax.marks.isEmpty || earlierPending s.thr (axMarks s.thr) || (s.thr.vq ++ s.thr.mq).any fun c => c.cmdix < s.thr.qs.holdCmdix

/-- The crc of the open region has its pair and has not completed: what lies behind it waits to be stored (R226, R300). -/
def behindCrc (t : Thread) (marks : Nat) : Bool := match t.crcMark with | some n => decide (n ≤ marks) | none => false

def unlessHeld (s : State) (k : State → State) : State := if held s then stall s .other else k s

end Sys2Proof.Machine
end

