-- ==== Sys2Proof/Machine/Journal.lean ====
section
/-!
DEFINITION. The journal of a checkpoint domain and the recovery-point registers of a partition (R214, R231, R403, R411).
-/

namespace Sys2Proof.Machine

/-- One entry into the ring of 4,096 (R403); nothing without a domain. -/
def journal (s : State) (p : Nat) (type : Byte) (arg : Word) : State :=
  let time := s.mod.time
  modPart s p fun q => match q.domain with
    | none => q
    | some d =>
      let e : JEntry := { type := type, jseq := d.jseq, rpseq := q.rp.rpseq, rpdur := q.rp.rpdur, time := time, arg := arg }
      { q with domain := some { d with journal := (d.journal ++ [e]).drop (d.journal.length + 1 - 4096), jseq := d.jseq + 1 } }

/-- A release or fence at RCV scope makes the thread's writes, those of the pair under P2, durable and writes one entry (R117, R302,
R403). -/
def releaseEntry (s : State) (c : Scope) : State :=
  let own (id : Nat) : Bool := id == s.thr.tid || (s.thr.sys.tstat.pclass == 2 && (twins s s.thr).any fun w => w.tid == id)
  if c == .rcv then journal (cover s s.thr.part fun w => match w.owner with | some id => own id | none => false) s.thr.part 1 0 else s

/-- The 64 bytes of an entry (R403). -/
def JEntry.bytes (p : Nat) (e : JEntry) : List Byte :=
  let tail := leBytes 8 e.jseq ++ leBytes 8 e.rpseq.toNat ++ leBytes 8 e.rpdur.toNat ++ leBytes 8 e.time
    ++ leBytes 8 e.arg.toNat ++ List.replicate 16 0
  [e.type, BitVec.ofNat 8 p, 0, 0] ++ leBytes 4 (crc32c tail).toNat ++ tail

/-- A virtual range of the Promptbook as device physical address: granule by granule. -/
def promptPA (d : Domain) (off : Nat) : Nat := d.pbGranules.getD (off / 0x200000) 0 + off % 0x200000

/-- Section s of the Promptbook starts at (s mod 4) * NPB * 512 KiB (R411). -/
def sectionOff (d : Domain) (seq : Nat) : Nat := seq % 4 * d.npb * 0x80000

/-- The header of a section (R411): PSEQ, COUNT, COMMITIX. -/
def writeSection (s : State) (p : Nat) (d : Domain) (sec pseq count commitix : Nat) : State :=
  let a := promptPA d (sectionOff d sec)
  let s := cover s p fun w => w.old.any fun c => a ≤ c.1 && c.1 < a + 64
  { s with mem := setCells s.mem a (leBytes 8 pseq ++ leBytes 8 count ++ leBytes 8 commitix ++ List.replicate 40 0) }

/-- COMMITIX of a section (R411). -/
def writeCommitix (s : State) (p : Nat) (d : Domain) (sec n : Nat) : State :=
  let a := promptPA d (sectionOff d sec) + 16
  let s := cover s p fun w => w.old.any fun c => a ≤ c.1 && c.1 < a + 8
  { s with mem := setCells s.mem a (leBytes 8 n) }

def allOnes64 : Nat := 2 ^ 64 - 1

/-- rpopen and CKPT_OPEN OPEN on STATE (R231, R411): the new RPSEQ, or 0. -/
def openPoint (s : State) (p : Nat) : Word × State :=
  let r := (s.part p).rp
  if r.state != 0 then (0, s)
  else
    let seq := r.rpseq + 1
    let s := modPart s p fun q => { q with rp := { q.rp with rpseq := seq, state := 1, cfail := false } }
    let s := match (s.part p).domain with
      | none => s
      | some d => journal (writeSection s p d seq.toNat seq.toNat 0 allOnes64) p 2 0
    (seq, s)

/-- The bytes of a working granule, by offset. -/
def granuleCells (s : State) (b : Nat) : Cells :=
  (s.mem.filter fun c => b ≤ c.1 && c.1 < b + 0x200000).map fun c => (c.1 - b, c.2)

/-- Slot t of a domain. -/
def Domain.slot (d : Domain) (t : Nat) : Slot := if t == 0 then d.slot0 else d.slot1
def Domain.setSlot (d : Domain) (t : Nat) (x : Slot) : Domain := if t == 0 then { d with slot0 := x } else { d with slot1 := x }

/-- The slot that does not hold the recovery point RPDUR; slot 0 when neither holds one (R405). -/
def targetSlot (d : Domain) (rpdur : Word) : Nat := if d.slot0.valid && d.slot0.seq == rpdur then 1 else 0

/-- C-cycles of the stop-mode stall of n granules: B / 12 TB/s + 40 microseconds (R406). -/
def stallTime (n : Nat) : Nat := (n * 0x200000 * 7 + 59999) / 60000 + 56000

/-- Every entry for a granule of the list leaves the TLBs (R283, R406). -/
def shootGranules (s : State) (d : Domain) (g : List Nat) : State :=
  let hit (e : TlbEntry) : Bool := g.any fun k =>
    let a := leafPA e.pte.toNat e.size e.va
    let b := d.granules.getD k 0
    a < b + 0x200000 && b < a + e.size
  { s with cores := s.cores.map fun c => { c with tlb := c.tlb.filter fun e => !hit e } }

/-- CBEGIN (R405, R406): the target slot holds nothing, CUR and PREV move on, and the slot's segments take the granules of
G as they stand now, which is what the copies to come bring; with at most 32 GiB of working region writes to those granules wait,
and above it their frames lose write permission until they are copied. -/
def beginCommit (s : State) (p : Nat) (seq : Word) : State :=
  let s := modPart s p fun q => { q with rp := { q.rp with state := 2 } }
  match (s.part p).domain with
  | none => s
  | some d =>
    let t := targetSlot d (s.part p).rp.rpdur
    let g := d.prev.foldl insertNat d.cur
    let x := d.slot t
    let segs := (List.range d.nwork).map fun k => if g.contains k then granuleCells s (d.granules.getD k 0) else x.segs.getD k []
    let bad := s.poison.any fun u => g.any fun k => d.granules.getD k 0 ≤ u && u < d.granules.getD k 0 + 0x200000
    let s := journal s p 3 (BitVec.ofNat 64 g.length)
    let s := if d.nwork ≤ 16384 then s else shootGranules s d g
    modPart s p fun q => { q with domain := q.domain.map fun d =>
      { d.setSlot t { x with valid := false, segs := segs } with
        prev := d.cur, cur := []
        commit := some { seq := seq, slot := t, granules := g, poisoned := bad, todo := g }
        held := d.held ++ if d.nwork ≤ 16384 then g.map fun k => (k, s.mod.time + stallTime g.length) else [] } }

end Sys2Proof.Machine
end

