-- ==== Sys2Proof/Machine/Access.lean ====
section
/-!
DEFINITION. The access stream, queues and memory (R98-R121): loads, stores, queue transfers, tile transfers, gathers,
scatters, spill, atomics, and release, acquire and fence; with LOAD_RETURN, STORE_PAIRING and TILE_TRANSFER_COMPLETION.
-/

namespace Sys2Proof.Machine

/-! ### Scalar loads (R100, R101) -/

/-- A load issues: the checks of R98, poison (R358), then it is in flight. -/
def issueLoad (s : State) (dst : LoadDst) (b : Reg) (o : BitVec 12) (size : Nat) (sgn : Bool) : State :=
  let ea := effective s b o size
  withAddress s .load ea size fun pa _ =>
    if poisonFor s s.thr pa size then raiseHere s 0x0A ea
    else whenRequest s fun s =>
      let q : LoadReq := { dst := dst, ea := ea, pa := pa, size := size, signed := sgn, marks := axMarks s.thr, pc := s.pc }
      complete (modThr s fun t =>
        let qs := { t.qs with loads := t.qs.loads ++ [q] }
        match dst with
        | .hreg _ => { t with qs := qs }
        | .ldq n => { t with qs := { qs with ldq := upd qs.ldq n (nth qs.ldq n [] ++ [none])
                                             pushed := { qs.pushed with ldq := upd qs.pushed.ldq n (nth qs.pushed.ldq n 0 + 1) } } })

/-- ld: into an H register. -/
def loadH (d b : Reg) (o : BitVec 12) (size : Nat) (sgn : Bool) (s : State) : State :=
  withRegs s [d, b] fun s => unlessHeld s fun s => issueLoad s (.hreg d) b o size sgn

/-- lq: into a load queue; it stalls while the queue is full. -/
def loadQ (q : BitVec 2) (b : Reg) (o : BitVec 12) (size : Nat) (sgn : Bool) (s : State) : State :=
  withRegs s [b] fun s => unlessHeld s fun s =>
    if Config.queueDepth ≤ (nth s.thr.qs.ldq q.toNat []).length then stall s .queue
    else issueLoad s (.ldq q.toNat) b o size sgn

/-- ldb (R100). -/
def execLdb (d b : Reg) (o : BitVec 12) (s : State) : Result := .next (loadH d b o 1 true s)

/-- ldbu (R100). -/
def execLdbu (d b : Reg) (o : BitVec 12) (s : State) : Result := .next (loadH d b o 1 false s)

/-- ldh (R100). -/
def execLdh (d b : Reg) (o : BitVec 12) (s : State) : Result := .next (loadH d b o 2 true s)

/-- ldhu (R100). -/
def execLdhu (d b : Reg) (o : BitVec 12) (s : State) : Result := .next (loadH d b o 2 false s)

/-- ldw (R100). -/
def execLdw (d b : Reg) (o : BitVec 12) (s : State) : Result := .next (loadH d b o 4 true s)

/-- ldwu (R100). -/
def execLdwu (d b : Reg) (o : BitVec 12) (s : State) : Result := .next (loadH d b o 4 false s)

/-- ldd (R100). -/
def execLdd (d b : Reg) (o : BitVec 12) (s : State) : Result := .next (loadH d b o 8 false s)

/-- lqb (R100). -/
def execLqb (q : BitVec 2) (b : Reg) (o : BitVec 12) (s : State) : Result := .next (loadQ q b o 1 true s)

/-- lqbu (R100). -/
def execLqbu (q : BitVec 2) (b : Reg) (o : BitVec 12) (s : State) : Result := .next (loadQ q b o 1 false s)

/-- lqh (R100). -/
def execLqh (q : BitVec 2) (b : Reg) (o : BitVec 12) (s : State) : Result := .next (loadQ q b o 2 true s)

/-- lqhu (R100). -/
def execLqhu (q : BitVec 2) (b : Reg) (o : BitVec 12) (s : State) : Result := .next (loadQ q b o 2 false s)

/-- lqw (R100). -/
def execLqw (q : BitVec 2) (b : Reg) (o : BitVec 12) (s : State) : Result := .next (loadQ q b o 4 true s)

/-- lqwu (R100). -/
def execLqwu (q : BitVec 2) (b : Reg) (o : BitVec 12) (s : State) : Result := .next (loadQ q b o 4 false s)

/-- lqd (R100). -/
def execLqd (q : BitVec 2) (b : Reg) (o : BitVec 12) (s : State) : Result := .next (loadQ q b o 8 false s)

/-- The oldest unfilled entry of a queue takes a value (R101). -/
def fillFirst : List (Option Word) → Word → List (Option Word)
  | [], _ => []
  | none :: r, v => some v :: r
  | x :: r, v => x :: fillFirst r v

/-- The bytes of a load, extended (R100). -/
def extendLoad (size : Nat) (sgn : Bool) (bs : List Byte) : Word :=
  if sgn then sextW (leNat bs) (8 * size) else BitVec.ofNat 64 (leNat bs)

/-- The access that reads a poisoned unit raises poison consumed when it is performed, as an instruction of the region it was issued in
(R223, R358); a cause of the access stream that is pending already was raised by an earlier one or gives way to this (R119, log 59). -/
def latePoison (s : State) (pc ea : Word) (marks : Nat) : State :=
  let t := s.thr
  let q : TrapInfo := { stream := .access, cause := 0x0A, tpc := pc, taddr := ea }
  if t.inRegion && decide (t.regionMark ≤ marks) then unwindPair s 0x0A
  else match t.trap with
    | some p => if p.cause == 0x0A then s else modThr s fun t => { t with trap := some q, countOff := true }
    | none => modThr s fun t => { t with trap := some q, countOff := true }

/-- The oldest unfilled entry of a queue is given back. -/
def dropFirst : List (Option Word) → List (Option Word)
  | [] => []
  | none :: r => r
  | x :: r => x :: dropFirst r

/-- The oldest load of the selected thread leaves without a result (R118). -/
def Thread.dropLoad (t : Thread) (q : LoadReq) : Thread :=
  let qs := { t.qs with loads := t.qs.loads.drop 1 }
  match q.dst with
  | .hreg _ => { t.stir with qs := qs }
  | .ldq n =>
    let pu := { qs.pushed with ldq := upd qs.pushed.ldq n (nth qs.pushed.ldq n 0 - 1) }
    { t.stir with qs := { qs with ldq := upd qs.ldq n (dropFirst (nth qs.ldq n [])), pushed := pu } }

/-- The oldest load in flight of the selected thread is performed (R100, R101, R105), or meets poison (R358). -/
def performLoad (s : State) (q : LoadReq) : State :=
  if poisonFor s s.thr q.pa q.size then latePoison (modThr s fun t => t.dropLoad q) q.pc q.ea q.marks else
  let v := extendLoad q.size q.signed (loadBytes s s.thr q.pa q.size)
  countAccess (modThr s fun t =>
    let qs := { t.qs with loads := t.qs.loads.drop 1 }
    match q.dst with
    | .hreg d => lateH { t.stir with qs := qs } q.marks d.toNat v
    | .ldq n => { t.stir with qs := { qs with ldq := upd qs.ldq n (fillFirst (nth qs.ldq n []) v) } }) q.pa

/-- An event of a thread: the thread is selected, and moved back to nothing when it does not exist. -/
def onThread (s : State) (tid : Nat) (k : State → State) : State :=
  match focus s tid with
  | some s' => if s'.thr.live && s'.thr.resident then k s' else s
  | none => s

/-! ### Stores (R102, R103) -/

/-- A store address: checked as a store kind, then into SAQ. -/
def storeAddress (b : Reg) (o : BitVec 12) (size : Nat) (s : State) : State :=
  withRegs s [b] fun s =>
    if Config.queueDepth ≤ s.thr.qs.saq.length then stall s .queue
    else
      let ea := effective s b o size
      withAddress s .store ea size fun pa pte =>
        complete (modThr (setDirty s pte) fun t =>
          { t with qs := { t.qs with saq := t.qs.saq ++ [{ ea := ea, pa := pa, size := size, marks := axMarks t, sup := t.sys.tstat.lvl }]
                                     saqTot := t.qs.saqTot + 1 } })

/-- sab (R102). -/
def execSab (b : Reg) (o : BitVec 12) (s : State) : Result := .next (storeAddress b o 1 s)

/-- sah (R102). -/
def execSah (b : Reg) (o : BitVec 12) (s : State) : Result := .next (storeAddress b o 2 s)

/-- saw (R102). -/
def execSaw (b : Reg) (o : BitVec 12) (s : State) : Result := .next (storeAddress b o 4 s)

/-- sad (R102). -/
def execSad (b : Reg) (o : BitVec 12) (s : State) : Result := .next (storeAddress b o 8 s)

/-- sdq (R102, R104). -/
def execSdq (a : Reg) (s : State) : Result :=
  .next (withRegs s [a] fun s =>
    if Config.queueDepth ≤ s.thr.qs.sdq.length then stall s .queue
    else
      let v := readReg s a
      complete (modThr s fun t => { t with qs := { t.qs with sdq := t.qs.sdq ++ [v], sdqTot := t.qs.sdqTot + 1 } }))

/-- The next store of the thread can be performed: both entries are present (R103), the marks before it have paired and
what lies before them is done (R106), it lies behind no crc that has not completed (R300), and no commit holds its granule (R406). -/
def storeReady (s : State) : Option (SaqEntry × Word) :=
  let t := s.thr
  match t.qs.saq, t.qs.sdq with
  | a :: _, v :: _ =>
    if a.marks ≤ t.qs.pairsFormed && !earlierPending t a.marks && !behindCrc t a.marks && !commitHolds s a.pa a.size
        && !storeHeld s a.pa a.size (regionStore t a.marks a.sup) && !t.forced then some (a, v)
    else none
  | _, _ => none

/-- The store of the oldest pair is performed. -/
def performStore (s : State) (a : SaqEntry) (v : Word) : State :=
  match storeUnit s a.ea a.pa (leBytes a.size v.toNat) (regionStore s.thr a.marks a.sup) false (some s.thr.qs.paired) a.marks with
  | none => modThr s fun t => { t with forced := true, pointAt := s.mod.time }
  | some s => modThr s fun t =>
      { t.stir with qs := { t.qs with saq := t.qs.saq.drop 1, sdq := t.qs.sdq.drop 1, paired := t.qs.paired + 1 } }

/-- STORE_PAIRING: the k-th SAQ entry meets the k-th SDQ entry and the store is performed (R103). -/
def execStorePairing (tid : Nat) (s : State) : Result :=
  .next (onThread s tid fun s => match storeReady s with
    | none => s
    | some (a, v) => performStore s a v)

/-! ### Queue transfers (R104) -/

/-- qpop waits until the head of the queue is filled. -/
def execQpop (d : Reg) (q : BitVec 2) (s : State) : Result :=
  .next (withRegs s [d] fun s =>
    match nth s.thr.qs.ldq q.toNat [] with
    | some v :: rest =>
      complete (writeReg (modThr s fun t =>
        { t with qs := { t.qs with ldq := upd t.qs.ldq q.toNat rest
                                   popped := { t.qs.popped with ldq := upd t.qs.popped.ldq q.toNat (nth t.qs.popped.ldq q.toNat 0 + 1) } } }) d v)
    | _ => stall s .queue)

/-- xqput (R104). -/
def execXqput (a : Reg) (s : State) : Result :=
  .next (withRegs s [a] fun s =>
    if Config.xqDepth ≤ s.thr.qs.xq.length then stall s .queue
    else
      let v := readReg s a
      complete (modThr s fun t =>
        { t with qs := { t.qs with xq := t.qs.xq ++ [v], pushed := { t.qs.pushed with xq := t.qs.pushed.xq + 1 } } }))

/-- xqget (R104). -/
def execXqget (d : Reg) (s : State) : Result :=
  .next (withRegs s [d] fun s =>
    match s.thr.qs.xq with
    | [] => stall s .queue
    | v :: rest => complete (writeReg (modThr s fun t =>
        { t with qs := { t.qs with xq := rest, popped := { t.qs.popped with xq := t.qs.popped.xq + 1 } } }) d v))

/-- bqput (R104). -/
def execBqput (a : Reg) (s : State) : Result :=
  .next (withRegs s [a] fun s =>
    if Config.queueDepth ≤ s.thr.qs.bq.length then stall s .queue
    else
      let x := readReg s a != 0
      complete (modThr s fun t =>
        { t with qs := { t.qs with bq := t.qs.bq ++ [x], pushed := { t.qs.pushed with bq := t.qs.pushed.bq + 1 } } }))

/-- mark (R106, R107). -/
def execMark (s : State) : Result := .next (issueMark s .mark 0 complete)

/-! ### Tile transfers, gathers and scatters (R108-R111) -/

/-- What the checks before the first unit say. -/
inductive XferCheck where
  /-- A zero size completes at once. -/
  | nothing
  | bad (cause : Byte) (taddr : Word)
  | go
  deriving DecidableEq, Repr

/-- The checks of R110. -/
def checkTile (s : State) (x : Xfer) : XferCheck :=
  let bytes := 64 * tdUnits x.desc * tdRows x.desc
  if tdReserved x.desc then .bad 0x09 x.desc
  else if bytes == 0 then .nothing
  else if 65536 < bytes then .bad 0x09 x.desc
  else if (extentAt s s.thr x.spa bytes 64).isNone then .bad 0x09 x.spa
  else if x.mem.toNat % 64 != 0 then .bad 0x04 x.mem
  else .go

/-- The checks of R111; a gather's two extents must not overlap. DESIGN CHOICE (log 10): TADDR of the index extent is the offset that ISPA
gives, with WIN and TIX 0. -/
def checkGather (s : State) (x : Xfer) : XferCheck :=
  let c := gdCount x.desc
  let n := gdSize x.desc
  let ispa := BitVec.ofNat 64 (gdIndex x.desc)
  if gdReserved x.desc || 4096 < c then .bad 0x09 x.desc
  else if c == 0 then .nothing
  else match extentAt s s.thr ispa (4 * c) 4 with
    | none => .bad 0x09 ispa
    | some i => match extentAt s s.thr x.spa (n * c) n with
      | none => .bad 0x09 x.spa
      | some d => if x.kind == .gth && d.overlaps i then .bad 0x09 x.spa else .go

def checkXfer (s : State) (x : Xfer) : XferCheck :=
  match x.kind with
  | .tld | .tst => checkTile s x
  | .gth | .sct => checkGather s x

/-- Load kind or store kind of a transfer (R98). -/
def XferKind.kind : XferKind → Kind
  | .tld | .gth => .load
  | .tst | .sct => .store

/-- The units of a transfer, translated in loop order through the TLB: those that may move, and the first fault (R98, R118, R358). -/
def translateUnits (s : State) (x : Xfer) : List (Word × Nat × Nat) → List XferUnit × Option (Word × Byte) × State
  | [] => ([], none, s)
  | u :: r =>
    match translateUnit s x.kind.kind u.1 u.2.2 with
    | (.ok pa pte, s) =>
      let (us, f, s') := translateUnits s x r
      if x.kind == .gth && poisonFor s s.thr pa u.2.2 then (us, some (u.1, 0x0A), s')
      else ({ ea := u.1, off := u.2.1, size := u.2.2, pa := pa, pte := pte } :: us, f, s')
    | (.fault c, s) =>
      let (us, _, s') := translateUnits s x r
      (us, some (u.1, c), s')
    | (.miss, s) => translateUnits s x r

/-- One unit moves, at the address it was translated to (R110, R111); a tile transfer carries poison with the data (R358); a store
sets DIRTY first (R285). None: it waits for a forced agreement point. -/
def moveUnit (s : State) (x : Xfer) (u : XferUnit) : Option State :=
  match spaTarget s s.thr x.spa with
  | none => some s
  | some w =>
    match x.kind with
    | .tld | .gth => some (countAccess (writeSpad s w.tid u.off (loadBytes s s.thr u.pa u.size) (poisonFor s s.thr u.pa u.size)) u.pa)
    | .tst | .sct =>
      let e : Extent := { tid := w.tid, off := u.off, len := u.size }
      storeUnit (setDirty s u.pte) u.ea u.pa (readSpad s e) (regionStore s.thr x.marks x.sup) (!(spadPoisonIn s e).isEmpty) none x.marks

/-- At the fault of a transfer some of its other units have moved, the spec does not say which (R118, log 10). -/
def moveSome (s : State) (x : Xfer) (us : List XferUnit) : State :=
  let (n, s) := fresh s
  ((List.range us.length).filter (Config.unitMoved n)).foldl (fun s k =>
    match us[k]? with
    | some u => (moveUnit s x u).getD s
    | none => s) s

/-- The transfer takes its locks and is in flight, or stops at a fault with the banks locked (R109, R118). Of several faults it
reports the first in loop order: the model's choice (log 10). -/
def startXfer (s : State) (x : Xfer) : State :=
  match translateUnits s x (xferUnits s s.thr x) with
  | (us, none, s) => complete (modThr s fun t => { t with lockWait := none, qs := { t.qs with xfers := t.qs.xfers ++ [{ x with units := us }] } })
  | (us, some (ea, c), s) =>
    let s := moveSome s x us
    let s := modThr s fun t => { t with lockWait := none, qs := { t.qs with xfers := t.qs.xfers ++ [{ x with faulted := true }] } }
    if c == 0x05 || c == 0x06 then faultAt s c ea x.kind.kind else raiseHere s c ea

/-- A transfer that stopped at a fault holds its locks until it is issued again: it waits for no one's turn (R118). -/
def reissued (t : Thread) (pc : Word) : Bool := t.qs.xfers.any fun y => y.faulted && y.pc == pc

/-- The transfer waits for a bank: it keeps its place in the issue order (R109). -/
def waitBank (s : State) (x : Xfer) : State :=
  let n := xferPlace s
  let s := if s.thr.lockWait.isSome then s else { s with stamp := s.stamp + 1 }
  stall (modThr s fun t => { t with lockWait := some (n, x) }) .other

/-- The registers D, A and B give the SPA, the memory address and the descriptor. A transfer that stopped at a fault at this
address is issued again from its first unit (R118). -/
def issueXfer (k : XferKind) (d a b : Reg) (s : State) : State :=
  withRegs s [d, a, b] fun s => unlessHeld s fun s =>
    let x : Xfer := { kind := k, spa := readReg s d, mem := readReg s a, desc := readReg s b, pc := s.pc, faulted := false
                      marks := axMarks s.thr, sup := s.thr.sys.tstat.lvl }
    let pc := s.pc
    let s' := modThr s fun t => { t with qs := { t.qs with xfers := t.qs.xfers.filter fun y => !(y.faulted && y.pc == pc) } }
    match checkXfer s x with
    | .nothing => complete (modThr s' fun t => { t with lockWait := none })
    | .bad c ta => raiseHere s c ta
    | .go =>
      if x.kind.kind == .store && behindCrc s.thr x.marks then stall s .other
      else if (xferExtents s' s'.thr x).any fun e => if reissued s.thr pc then lockedBy s' s'.thr x.sup e else xferBusy s' s'.thr e then waitBank s x
      else startXfer s' x

/-- tld (R110). -/
def execTld (d a b : Reg) (s : State) : Result := .next (issueXfer .tld d a b s)

/-- tst (R110). -/
def execTst (d a b : Reg) (s : State) : Result := .next (issueXfer .tst d a b s)

/-- gth (R111). -/
def execGth (d a b : Reg) (s : State) : Result := .next (issueXfer .gth d a b s)

/-- sct (R111). -/
def execSct (d a b : Reg) (s : State) : Result := .next (issueXfer .sct d a b s)

/-- The units are moved in order, up to one that waits: what is left, and the state. -/
def moveUnits (s : State) (x : Xfer) : List XferUnit → List XferUnit × State
  | [] => ([], s)
  | u :: r =>
    if x.kind == .gth && poisonFor s s.thr u.pa u.size then (u :: r, s)
    else if x.kind.kind == .store && (commitHolds s u.pa u.size || storeHeld s u.pa u.size (regionStore s.thr x.marks x.sup)) then (u :: r, s)
    else match moveUnit s x u with
      | some s => moveUnits s x r
      | none => (u :: r, modThr s fun t => { t with forced := true, pointAt := s.mod.time })

/-- Two units of a store transfer share bytes of memory. -/
def XferUnit.overlaps (a b : XferUnit) : Bool := a.pa < b.pa + b.size && b.pa < a.pa + a.size

/-- The units that move in one step, and those left behind: all, or by the oracle's choice one, which no earlier unit of a store
transfer overlaps, so that the contents at the end are those of the loop order (R110, R111). -/
def chooseUnits (s : State) (x : Xfer) : (List XferUnit × List XferUnit) × State :=
  let (k, s) := pick s (x.units.length + 1)
  match k with
  | 0 => ((x.units, []), s)
  | k + 1 => match x.units[k]? with
    | none => ((x.units, []), s)
    | some u =>
      let k := if x.kind.kind == .store && (x.units.take k).any u.overlaps then 0 else k
      (((x.units.drop k).take 1, x.units.eraseIdx k), s)

/-- A store transfer of a P2 replica may put lines into the Wings: a unit of it lies in a page that is not shadowed, or in an open
region. Both replicas fill their lines at the same store (R365), so its units move in loop order, and such transfers in issue order. -/
def fillsLines (s : State) (x : Xfer) : Bool :=
  s.thr.sys.tstat.pclass == 2 && x.kind.kind == .store && (s.thr.sys.tstat.cropen || match findTeam s s.thr.team with
    | some u => x.units.any fun m => (shadowOf u (m.pa / 4096)).isNone
    | none => false)

/-- The number of the transfer that moves, and whether its units keep their order. -/
def chooseXfer (s : State) (live : List Nat) : (Nat × Bool) × State :=
  let at_ (k : Nat) : Bool := match s.thr.qs.xfers[k]? with | some x => fillsLines s x | none => false
  let (i, s) := pick s live.length
  let k := live.getD i 0
  if at_ k then (((live.find? at_).getD k, true), s) else ((k, false), s)

/-- TILE_TRANSFER_COMPLETION: units of a transfer in flight move, and the transfer whose last unit has moved completes and releases
its locks (R109-R111). The memory sides of transfers and units keep no order (R105, R292): the oracle chooses among them. -/
def execTileTransferCompletion (tid : Nat) (s : State) : Result :=
  .next (onThread s tid fun s =>
    let live := (List.range s.thr.qs.xfers.length).filter fun k => match s.thr.qs.xfers[k]? with | some x => !x.faulted | none => false
    if live.isEmpty || s.thr.forced then s
    else
      let ((k, keeps), s) := chooseXfer s live
      match s.thr.qs.xfers[k]? with
      | none => s
      | some x =>
        let ((now, later), s) := if keeps then ((x.units, []), s) else chooseUnits s x
        let (left, s) := moveUnits s x now
        let bad := if x.kind == .gth then left.head?.filter fun u => poisonFor s s.thr u.pa u.size else none
        let left := left ++ later
        match bad with
        | some u => latePoison (modThr s fun t => { t.stir with qs := { t.qs with xfers := t.qs.xfers.set k { x with units := left, faulted := true } } }) x.pc u.ea x.marks
        | none =>
        modThr (if left.isEmpty then lineUp s else s) fun t => { t.stir with qs := { t.qs with xfers := if left.isEmpty then t.qs.xfers.eraseIdx k else t.qs.xfers.set k { x with units := left } } })

/-! ### Spill (R112) -/

/-- A spill access of either stream keeps the order of the marks (R106). -/
def whenSpill (s : State) (k : State → State) : State :=
  match s.cur with
  | .access => unlessHeld s k
  | .execute => if s.thr.ex.marks.isEmpty then k s else stall s .other

/-- spld (R112). -/
def execSpld (d : Reg) (o : BitVec 9) (s : State) : Result :=
  .next (withRegs s [d] fun s => whenSpill s fun s =>
    complete (writeReg s d (BitVec.ofNat 64 (getLe s.thr.spill (8 * o.toNat) 8))))

/-- spst (R112). -/
def execSpst (d : Reg) (o : BitVec 9) (s : State) : Result :=
  .next (withRegs s [d] fun s => whenSpill s fun s =>
    let v := readReg s d
    complete (modThr s fun t => { t with spill := setCells t.spill (8 * o.toNat) (leBytes 8 v.toNat) }))

/-! ### Atomics (R113-R115) -/

/-- The new value, or none for a failed compare and swap (R113). -/
def atomNew (op : AtomOp) (n old b cmp : Nat) : Option Nat :=
  match op with
  | .madd => some ((old + b) % 2 ^ n)
  | .mmin => some (if signed old n ≤ signed b n then old else b)
  | .mmax => some (if signed b n ≤ signed old n then old else b)
  | .mand => some (old &&& b)
  | .mor => some (old ||| b)
  | .mxor => some (old ^^^ b)
  | .mswp => some b
  | .mcas => if old == cmp then some b else none

/-- Bytes leave the shadow frames of a replica. -/
def Team.dropBytes (u : Team) (pa n : Nat) : Team :=
  { u with shadow := u.shadow.map fun h => { h with cells := h.cells.filter fun c => !(pa ≤ c.1 && c.1 < pa + n) } }

/-- The bytes a P2 atomic covers leave both replicas' shadow frames (R301). -/
def dropShadowBytes (s : State) (t : Thread) (pa n : Nat) : State :=
  { s with teams := s.teams.map fun u => if u.task == t.task && u.ix == t.teamIx && u.rep < 2 then u.dropBytes pa n else u }

/-- One indivisible step at the far unit: the old value and the state after it. At RCV scope the new value is durable (R114). -/
def performAtomic (s : State) (pa : Nat) (m : AtomReq) : Word × State :=
  let old := getLe s.mem pa (m.n / 8)
  let s := if s.thr.sys.tstat.pclass == 2 then dropShadowBytes s s.thr pa (m.n / 8) else s
  let s := match atomNew m.op m.n old m.b m.cmp with
    | none => s
    | some v =>
      let s := writePhys (setDirty s m.pte) (some s.thr.part) pa (leBytes (m.n / 8) v) (some s.thr.tid)
      if m.scope == .rcv then cover s s.thr.part fun w => w.old.any fun c => decide (pa ≤ c.1) && decide (c.1 < pa + m.n / 8) else s
  (BitVec.ofNat 64 old, s)

/-- The number of an operation (R58). -/
def AtomOp.code : AtomOp → Nat
  | .madd => 0
  | .mmin => 1
  | .mmax => 2
  | .mand => 3
  | .mor => 4
  | .mxor => 5
  | .mswp => 6
  | .mcas => 7

/-- The number of a scope (R58). -/
def Scope.code : Scope → Nat
  | .thr => 0
  | .ens => 1
  | .dev => 2
  | .sys => 3
  | .rcv => 4

/-- The request of an atomic, which the replicas of a pair compare (R115). -/
def AtomReq.key (m : AtomReq) (ea : Word) : List Nat :=
  [2, m.op.code, m.n, ea.toNat, m.b, (if m.op = AtomOp.mcas then m.cmp else 0), Scope.code m.scope]

/-- The atomic leaves the thread's access stream. -/
def Thread.sendAtomic (t : Thread) (q : LoadReq) : Thread :=
  let t := t.advance .access 1
  { t with axReq := none, axIx := t.axIx + 1, qs := { t.qs with loads := t.qs.loads ++ [{ q with marks := axMarks t }] } }

/-- An atomic issues (R115, R368): under P2 both replicas send it in the step in which both present it; an Understudy sends it with
the result that the log holds for it. -/
def issueAtomic (s : State) (q : LoadReq) (m : AtomReq) : State :=
  let t := s.thr
  let req := m.key q.ea
  let q := { q with atom := some m }
  if t.sys.tstat.pclass != 2 then modThr s fun t => t.sendAtomic q
  else
    let waits := stall (modThr s fun t => { t with axReq := some req }) .other
    if t.rep == 2 then
      match primaryOf s t with
      | none => waits
      | some u => match (u.log.filter fun e => e.thrIx == t.thrIx && e.kind == 1)[t.axIx]? with
        | none => waits
        | some e =>
          if e.req == req then modThr s fun t => t.sendAtomic { q with atom := some { m with res := some e.res } }
          else understudyEnds (addScore s t.core)
    else match twinOf s t with
      | none => waits
      | some w => match w.axReq with
        | none => waits
        | some r =>
          if r == req then modThr (modTid s w.tid fun w => w.sendAtomic q) fun t => t.sendAtomic q
          else comparisonFails (modThr s fun t => { t with axReq := some req }) (requestPos t.thrIx 1 t.axIx)

/-- An atomic (R98, R113-R115, R358): checked, after promotion of an open region, then in flight. -/
def atomic (op : AtomOp) (d a b : Reg) (c : Scope) (z : Bool) (s : State) : State :=
  withRegs s [d, a, b] fun s => unlessHeld s fun s =>
    let n := if z then 64 else 32
    let ea := readReg s a
    let bv := bitsOf (readReg s b).toNat 0 n
    let cmp := bitsOf (readReg s d).toNat 0 n
    withAddress s .store ea (n / 8) fun pa pte =>
      if poisonedIn s pa (n / 8) then raiseHere s 0x0A ea
      else whenRequest s fun s => whenPromoted s fun s =>
        issueAtomic s { dst := .hreg d, ea := ea, pa := pa, size := n / 8, signed := false, marks := axMarks s.thr, pc := s.pc }
          { op := op, n := n, b := bv, cmp := cmp, scope := c, pte := pte, res := none }

/-- The oldest atomic in flight of the other replica has this result too. -/
def giveTwin (s : State) (v : Word) : State :=
  match twinOf s s.thr with
  | none => s
  | some w => modTid s w.tid fun w =>
      match w.qs.loads.findIdx? (fun q => match q.atom with | some m => m.res.isNone | none => false) with
      | none => w
      | some k => { w with qs := { w.qs with loads := w.qs.loads.zipIdx.map fun x =>
          if x.2 == k then { x.1 with atom := x.1.atom.map fun m => { m with res := some v } } else x.1 } }

/-- The pair has performed an atomic once: the log keeps it, and the other replica has its result (R115, R366). -/
def sharePair (s : State) (q : LoadReq) (m : AtomReq) (v : Word) : State :=
  let t := s.thr
  if t.sys.tstat.pclass != 2 then s
  else giveTwin (logPaired s t { thrIx := t.thrIx, req := m.key q.ea, res := v, kind := 1 }) v

/-- The oldest atomic in flight of the selected thread returns (R105, R113-R115): it is performed at the far unit, unless the pair
or the log has its result; an Understudy's own shadow bytes of the location go (R301). -/
def performAtom (s : State) (q : LoadReq) (m : AtomReq) : State :=
  let back (s : State) (v : Word) : State :=
    countAccess (modThr s fun t => match q.dst with
      | .hreg d => lateH { t.stir with qs := { t.qs with loads := t.qs.loads.drop 1 } } q.marks d.toNat v
      | .ldq _ => t) q.pa
  match m.res with
  | some v =>
    let t := s.thr
    back (if t.rep == 2 then modTeam s t.team fun u => u.dropBytes q.pa (m.n / 8) else s) v
  | none =>
    if poisonedIn s q.pa (m.n / 8) then latePoison (modThr s fun t => t.dropLoad q) q.pc q.ea q.marks
    else if commitHolds s q.pa q.size then s
    else
      let (v, s) := performAtomic s q.pa m
      back (sharePair s q m v) v

/-- LOAD_RETURN: the oldest load or atomic in flight is performed; they are performed in issue order (R101, R105). -/
def execLoadReturn (tid : Nat) (s : State) : Result :=
  .next (onThread s tid fun s => match s.thr.qs.loads with
    | [] => s
    | q :: _ => match q.atom with
      | none => performLoad s q
      | some m => performAtom s q m)

/-- amadd (R113). -/
def execAmadd (d a b : Reg) (c : Scope) (z : Bool) (s : State) : Result := .next (atomic .madd d a b c z s)

/-- ammin (R113). -/
def execAmmin (d a b : Reg) (c : Scope) (z : Bool) (s : State) : Result := .next (atomic .mmin d a b c z s)

/-- ammax (R113). -/
def execAmmax (d a b : Reg) (c : Scope) (z : Bool) (s : State) : Result := .next (atomic .mmax d a b c z s)

/-- amand (R113). -/
def execAmand (d a b : Reg) (c : Scope) (z : Bool) (s : State) : Result := .next (atomic .mand d a b c z s)

/-- amor (R113). -/
def execAmor (d a b : Reg) (c : Scope) (z : Bool) (s : State) : Result := .next (atomic .mor d a b c z s)

/-- amxor (R113). -/
def execAmxor (d a b : Reg) (c : Scope) (z : Bool) (s : State) : Result := .next (atomic .mxor d a b c z s)

/-- amswp (R113). -/
def execAmswp (d a b : Reg) (c : Scope) (z : Bool) (s : State) : Result := .next (atomic .mswp d a b c z s)

/-- amcas (R113). -/
def execAmcas (d a b : Reg) (c : Scope) (z : Bool) (s : State) : Result := .next (atomic .mcas d a b c z s)

/-! ### Release, acquire, fence (R116, R117, R295, R300) -/

/-- What a release of the access stream waits for: its loads, atomics and transfers, and the stores whose SAQ entry
precedes it. -/
def accessRelease (s : State) : Option Stall :=
  if !s.thr.qs.saq.isEmpty then some .queue
  else if heldStores s.thr then some .other
  else if !s.thr.qs.loads.isEmpty || s.thr.qs.xfers.any (fun x => !x.faulted) then some .other
  else none

/-- What an acquire of the access stream waits for: loads, atomics, tld and gth. -/
def accessAcquire (s : State) : Option Stall :=
  if !s.thr.qs.loads.isEmpty || s.thr.qs.xfers.any (fun x => !x.faulted && x.kind.kind == .load) then some .other else none

/-- What a release or a fence of the execute stream waits for: visibility too (R116). -/
def fenceWait (s : State) (c : Scope) : Option Stall :=
  match executeRelease s c with
  | some w => some w
  | none => if heldStores s.thr then some .listed else none

/-- A release or fence: at ENS scope or wider it promotes an open region first; at RCV scope it writes a journal entry. -/
def release (c : Scope) (s : State) : State :=
  let k (s : State) : State := match (match s.cur with | .access => accessRelease s | .execute => fenceWait s c) with
    | some w => stall s w
    | none => complete (releaseEntry s c)
  if c == .thr then k s else whenPromoted s k

/-- rel (R116). -/
def execRel (c : Scope) (s : State) : Result := .next (release c s)

/-- acq (R116): in the execute stream queue order already gives it. -/
def execAcq (_c : Scope) (s : State) : Result :=
  .next (match s.cur with
    | .execute => complete s
    | .access => match accessAcquire s with
      | some w => stall s w
      | none => complete s)

/-- fence (R116): both, and the acquire part of an access-stream fence is within what its release part waits for. -/
def execFence (c : Scope) (s : State) : Result := .next (release c s)

end Sys2Proof.Machine
end

