-- ==== Sys2Proof/Machine/Num.lean ====
section
/-!
DEFINITION. Number formats and arithmetic (R258-R269): exact values, the one rounding function, integer types, the
pairwise tree of R135.
-/

namespace Sys2Proof.Machine

/-- The floating formats of R258. -/
inductive Fmt where
  | fp32
  | bf16
  | fp16
  | e4m3
  | e5m2
  deriving DecidableEq, Repr

/-- The rounding modes of R52. -/
inductive Mode where
  | rne
  | rz
  | rd
  | ru
  deriving DecidableEq, Repr

/-- RND (R52). -/
def Mode.ofRnd (r : BitVec 2) : Mode := if r == 0 then .rne else if r == 1 then .rz else if r == 2 then .rd else .ru

/-- Fraction bits f; the precision is f + 1. -/
def Fmt.frac : Fmt → Nat
  | .fp32 => 23
  | .bf16 => 7
  | .fp16 => 10
  | .e4m3 => 3
  | .e5m2 => 2

/-- Exponent bits e. -/
def Fmt.expo : Fmt → Nat
  | .fp32 => 8
  | .bf16 => 8
  | .fp16 => 5
  | .e4m3 => 4
  | .e5m2 => 5

def Fmt.width (f : Fmt) : Nat := f.frac + f.expo + 1
def Fmt.bias (f : Fmt) : Nat := 2 ^ (f.expo - 1) - 1

/-- Largest exponent in use. -/
def Fmt.emax (f : Fmt) : Int := if f = .e4m3 then 8 else f.bias

/-- Smallest exponent. -/
def Fmt.emin (f : Fmt) : Int := 1 - (f.bias : Int)

/-- Significand of the largest finite value, in units of 2^(emax - f). -/
def Fmt.top (f : Fmt) : Nat := if f = .e4m3 then 14 else 2 ^ (f.frac + 1) - 1

/-- The canonical NaN (R258). -/
def Fmt.nan : Fmt → Nat
  | .fp32 => 0x7FC00000
  | .bf16 => 0x7FC0
  | .fp16 => 0x7E00
  | .e4m3 => 0x7F
  | .e5m2 => 0x7E

/-- The pattern of the largest finite value, positive. -/
def Fmt.largest (f : Fmt) : Nat := if f = .e4m3 then 0x7E else (2 ^ f.expo - 1) * 2 ^ f.frac - 1

/-- The pattern of +infinity. -/
def Fmt.inf (f : Fmt) : Nat := (2 ^ f.expo - 1) * 2 ^ f.frac

/-- A sign bit above a pattern. -/
def Fmt.sign (f : Fmt) (neg : Bool) : Nat := if neg then 2 ^ (f.width - 1) else 0

/-- A number as arithmetic sees it: NaN, an infinity, or the exact value plus or minus mag * 2^e, with a sign on zero. -/
inductive Fp where
  | nan
  | inf (neg : Bool)
  | fin (neg : Bool) (mag : Nat) (e : Int)
  deriving DecidableEq, Repr

/-- The value of a pattern (R258). -/
def decodeFp (f : Fmt) (v : Nat) : Fp :=
  let neg := v.testBit (f.width - 1)
  let e := bitsOf v f.frac f.expo
  let m := bitsOf v 0 f.frac
  if f = .e4m3 && e == 15 && m == 7 then .nan
  else if f ≠ .e4m3 && e == 2 ^ f.expo - 1 then (if m == 0 then .inf neg else .nan)
  else if e == 0 then .fin neg m (f.emin - f.frac)
  else .fin neg (2 ^ f.frac + m) (e - (f.bias : Int) - f.frac)

/-- overflow(fmt, mode, sign) of R263. -/
def overflow (f : Fmt) (mode : Mode) (neg sat : Bool) : Nat :=
  if f = .e4m3 then (if sat then f.sign neg + f.largest else f.nan)
  else if f = .e5m2 && sat then f.sign neg + f.largest
  else
    let toInf := match mode with
      | .rne => true
      | .rz => false
      | .rd => neg
      | .ru => !neg
    f.sign neg + if toInf then f.inf else f.largest

/-- Whether the magnitude lo + rem / 2^sh goes up to lo + 1 (R262). -/
def roundsUp (mode : Mode) (neg : Bool) (lo rem sh : Nat) : Bool :=
  match mode with
  | .rne => decide (2 ^ sh < 2 * rem) || (2 * rem == 2 ^ sh && lo % 2 == 1)
  | .rz => false
  | .rd => neg && rem != 0
  | .ru => !neg && rem != 0

/-- x = mag * 2^e as an integer in units of 2^q, rounded. -/
def roundUnits (mode : Mode) (neg : Bool) (mag : Nat) (e q : Int) : Nat :=
  if q ≤ e then mag * 2 ^ (e - q).toNat
  else
    let sh := (q - e).toNat
    let lo := mag / 2 ^ sh
    lo + if roundsUp mode neg lo (mag % 2 ^ sh) sh then 1 else 0

/-- The pattern of n units of 2^q, which n * 2^q or the overflow of R263 decides; n = 0 keeps its sign. -/
def packFp (f : Fmt) (mode : Mode) (sat neg : Bool) (n : Nat) (q : Int) : Nat :=
  let qmin := f.emin - f.frac
  if f.top * 2 ^ (f.emax - f.emin).toNat < n * 2 ^ (q - qmin).toNat then overflow f mode neg sat
  else if n < 2 ^ f.frac then f.sign neg + n
  else
    let k := n.log2
    f.sign neg + ((k + q + f.bias).toNat * 2 ^ f.frac + (n / 2 ^ (k - f.frac) - 2 ^ f.frac))

/-- Exponent of the spacing u of R262 at the magnitude mag * 2^e. -/
def spacing (f : Fmt) (mag : Nat) (e : Int) : Int := max ((mag.log2 : Int) + e) f.emin - f.frac

/-- round(x, fmt, mode) of R262 on the exact value of sign neg and magnitude mag * 2^e, as a pattern. -/
def roundFp (f : Fmt) (mode : Mode) (sat neg : Bool) (mag : Nat) (e : Int) : Nat :=
  if mag = 0 then f.sign neg
  else packFp f mode sat neg (roundUnits mode neg mag e (spacing f mag e)) (spacing f mag e)

/-- A number as a pattern of a format (R262, R263, R266). -/
def Fp.toBits (f : Fmt) (mode : Mode) (sat : Bool) : Fp → Nat
  | .nan => f.nan
  | .inf neg => if f = .e4m3 || (f = .e5m2 && sat) then overflow f mode neg sat else f.sign neg + f.inf
  | .fin neg mag e => roundFp f mode sat neg mag e

/-- Signed integer value of a finite number in units of 2^q, for q at most its exponent. -/
def finUnits (neg : Bool) (mag : Nat) (e q : Int) : Int :=
  (if neg then -1 else 1) * (mag * 2 ^ (e - q).toNat : Nat)

/-- Exact sum with the zero signs of R265. -/
def Fp.add (mode : Mode) : Fp → Fp → Fp
  | .nan, _ => .nan
  | _, .nan => .nan
  | .inf a, .inf b => if a == b then .inf a else .nan
  | .inf a, .fin .. => .inf a
  | .fin .., .inf b => .inf b
  | .fin na ma ea, .fin nb mb eb =>
    let q := min ea eb
    let x := finUnits na ma ea q + finUnits nb mb eb q
    if x = 0 then .fin (if ma = 0 && mb = 0 && na == nb then na else decide (mode = .rd)) 0 0
    else .fin (decide (x < 0)) x.natAbs q

/-- Exact product with the sign of R265. -/
def Fp.mul : Fp → Fp → Fp
  | .nan, _ => .nan
  | _, .nan => .nan
  | .inf a, .inf b => .inf (a != b)
  | .inf a, .fin b m _ => if m = 0 then .nan else .inf (a != b)
  | .fin a m _, .inf b => if m = 0 then .nan else .inf (a != b)
  | .fin na ma ea, .fin nb mb eb => .fin (na != nb) (ma * mb) (ea + eb)

def Fp.neg : Fp → Fp
  | .nan => .nan
  | .inf a => .inf (!a)
  | .fin a m e => .fin (!a) m e

def Fp.isNan : Fp → Bool
  | .nan => true
  | _ => false

/-- Strict order of two numbers, neither NaN; zeros are equal. -/
def Fp.lt : Fp → Fp → Bool
  | .nan, _ => false
  | _, .nan => false
  | .inf a, .inf b => a && !b
  | .inf a, .fin .. => a
  | .fin .., .inf b => !b
  | .fin na ma ea, .fin nb mb eb =>
    let q := min ea eb
    decide (finUnits na ma ea q < finUnits nb mb eb q)

/-- A negative sign, of a zero or of any number that is not NaN. -/
def Fp.signed : Fp → Bool
  | .nan => false
  | .inf a => a
  | .fin a _ _ => a

/-- Equality of two numbers, neither NaN; zeros are equal (R132). -/
def Fp.eq (a b : Fp) : Bool := !a.isNan && !b.isNan && !a.lt b && !b.lt a

/-! ### Element types of the vector engine (R50, R51) -/

/-- An element type: a floating format, or an integer of so many bits, signed or not. -/
inductive Ty where
  | fp (f : Fmt)
  | int (bits : Nat) (u : Bool)
  deriving DecidableEq, Repr

def Ty.bits : Ty → Nat
  | .fp f => f.width
  | .int n _ => n

/-- Value of an integer pattern. -/
def intVal (n : Nat) (u : Bool) (v : Nat) : Int := if u then (v % 2 ^ n : Nat) else signed v n

/-- Least and greatest value of an integer type. -/
def intMin (n : Nat) (u : Bool) : Int := if u then 0 else -(2 ^ (n - 1) : Nat)
def intMax (n : Nat) (u : Bool) : Int := if u then (2 ^ n : Nat) - 1 else (2 ^ (n - 1) : Nat) - 1

/-- Clamped to the type and written as a pattern. -/
def clampInt (n : Nat) (u : Bool) (x : Int) : Nat := wrapInt (max (intMin n u) (min (intMax n u) x)) n

/-- round(a + b), or the wrapped sum (R130). -/
def tyAdd (t : Ty) (mode : Mode) (a b : Nat) : Nat :=
  match t with
  | .fp f => ((decodeFp f a).add mode (decodeFp f b)).toBits f mode false
  | .int n _ => (a + b) % 2 ^ n

def tySub (t : Ty) (mode : Mode) (a b : Nat) : Nat :=
  match t with
  | .fp f => ((decodeFp f a).add mode (decodeFp f b).neg).toBits f mode false
  | .int n _ => wrapInt ((a : Int) - b) n

def tyMul (t : Ty) (mode : Mode) (a b : Nat) : Nat :=
  match t with
  | .fp f => ((decodeFp f a).mul (decodeFp f b)).toBits f mode false
  | .int n _ => a * b % 2 ^ n

/-- round(a * b + c) with one rounding, and a * b - c when minus (R130). -/
def tyFma (t : Ty) (mode : Mode) (minus : Bool) (a b c : Nat) : Nat :=
  match t with
  | .fp f =>
    let z := decodeFp f c
    (((decodeFp f a).mul (decodeFp f b)).add mode (if minus then z.neg else z)).toBits f mode false
  | .int n _ => wrapInt ((a : Int) * b + if minus then -(c : Int) else c) n

/-- Smaller or larger (R130, R131): NaN gives the canonical NaN, and -0 lies below +0. -/
def tyMinMax (t : Ty) (larger : Bool) (a b : Nat) : Nat :=
  match t with
  | .fp f =>
    let x := decodeFp f a
    let y := decodeFp f b
    if x.isNan || y.isNan then f.nan
    else
      let less := x.lt y || (!y.lt x && x.signed && !y.signed)
      if less != larger then a else b
  | .int n u => if decide (intVal n u a < intVal n u b) != larger then a % 2 ^ n else b % 2 ^ n

/-- Absolute value and negation (R130, R131). -/
def tyAbs (t : Ty) (a : Nat) : Nat :=
  match t with
  | .fp f => if (decodeFp f a).isNan then f.nan else a % 2 ^ (f.width - 1)
  | .int n _ => wrapInt (signed a n).natAbs n

def tyNeg (t : Ty) (a : Nat) : Nat :=
  match t with
  | .fp f => if (decodeFp f a).isNan then f.nan else a ^^^ 2 ^ (f.width - 1)
  | .int n _ => wrapInt (-(a : Int)) n

/-- Saturating sum and difference of integers (R130). -/
def tyAddSat (t : Ty) (a b : Nat) : Nat :=
  match t with
  | .fp _ => 0
  | .int n u => clampInt n u (intVal n u a + intVal n u b)

def tySubSat (t : Ty) (a b : Nat) : Nat :=
  match t with
  | .fp _ => 0
  | .int n u => clampInt n u (intVal n u a - intVal n u b)

/-- The compares of R132, by FN5 0-5. -/
inductive Rel where
  | eq
  | ne
  | lt
  | le
  | gt
  | ge
  deriving DecidableEq, Repr

def Rel.holds (r : Rel) (lt eq : Bool) : Bool :=
  match r with
  | .eq => eq
  | .ne => !eq
  | .lt => lt
  | .le => lt || eq
  | .gt => !(lt || eq)
  | .ge => !lt

def tyCompare (t : Ty) (r : Rel) (a b : Nat) : Bool :=
  match t with
  | .fp f =>
    let x := decodeFp f a
    let y := decodeFp f b
    if x.isNan || y.isNan then decide (r = .ne) else r.holds (x.lt y) (x.eq y)
  | .int n u => r.holds (decide (intVal n u a < intVal n u b)) (decide (intVal n u a = intVal n u b))

/-- Shifts by s; s of the width or more shifts everything out (R134). -/
def shlElem (n a s : Nat) : Nat := if s < n then a * 2 ^ s % 2 ^ n else 0
def shrElem (n a s : Nat) : Nat := if s < n then a % 2 ^ n / 2 ^ s else 0
def sraElem (n a s : Nat) : Nat :=
  if s < n then wrapInt (signed a n / (2 ^ s : Nat)) n else if signed a n < 0 then 2 ^ n - 1 else 0

/-! ### The pairwise tree (R135) -/

/-- One level: neighbours are combined, an odd last element passes up. -/
def treeLevel {α : Type} (op : α → α → α) : List α → List α
  | a :: b :: r => op a b :: treeLevel op r
  | r => r

/-- tree(x, op) for at most 2^16 elements; d when the list is empty. -/
def treeFold {α : Type} (op : α → α → α) (d : α) (x : List α) : α := (iterate 16 (treeLevel op) x).headD d

/-- The identity that fills an inactive position. -/
def tySumIdentity (t : Ty) (mode : Mode) : Nat :=
  match t with
  | .fp f => f.sign (decide (mode ≠ .rd))
  | .int _ _ => 0

def tyMaxIdentity : Ty → Nat
  | .fp f => f.sign true + f.inf
  | .int n u => wrapInt (intMin n u) n

def tyMinIdentity : Ty → Nat
  | .fp f => f.inf
  | .int n u => wrapInt (intMax n u) n

end Sys2Proof.Machine
end

