-- ==== Sys2Proof/Machine/Engine.lean ====
section
/-!
DEFINITION. Engine commands, semaphores, user-level interrupts and ensembles (R180-R206), with SEMAPHORE_NOTICE,
SEMAPHORE_POLL and ULI_DELIVERY.
-/

namespace Sys2Proof.Machine

/-! ### Records (R185, R186, R189) -/

def recKind (w : List Word) : Nat := bitsOf (w.getD 0 0).toNat 0 8
def recSeme (w : List Word) : Bool := (w.getD 0 0).getLsbD 8
def recSwe (w : List Word) : Bool := (w.getD 0 0).getLsbD 9
def recUli (w : List Word) : Bool := (w.getD 0 0).getLsbD 10
def recTag (w : List Word) : Nat := bitsOf (w.getD 0 0).toNat 16 16
def recTmo (w : List Word) : Nat := bitsOf (w.getD 0 0).toNat 32 32
def recDword (w : List Word) (k : Nat) : Nat := (w.getD k 0).toNat

/-- COPY, COPY2D and FILL are the stagehands' kinds, 0x10-0x14 the collective engine's (R183, R185). -/
def isCopy (k : Nat) : Bool := 1 ≤ k && k ≤ 3
def isColl (k : Nat) : Bool := 0x10 ≤ k && k ≤ 0x14

def cdPeer (c : Nat) : Nat := bitsOf c 56 8
def cdOp (c : Nat) : Nat := bitsOf c 52 4
def cdDt (c : Nat) : Nat := bitsOf c 48 4
def cdCount (c : Nat) : Nat := bitsOf c 0 40

/-- Bytes of an element (R189): SEND and RECV move bytes. -/
def cdSize (k c : Nat) : Nat := if k == 0x13 || k == 0x14 then 1 else if cdDt c == 1 then 2 else 4

/-- CDESC breaks a rule of R189. -/
def cdBad (k c : Nat) : Bool :=
  let pair := k == 0x13 || k == 0x14
  (if pair then 63 < cdPeer c else cdPeer c != 0)
    || (if k == 0x10 || k == 0x11 then 2 < cdOp c else cdOp c != 0)
    || (if pair then cdDt c != 0 else 2 < cdDt c) || bitsOf c 40 8 != 0

/-- Register r of the record breaks a rule of its kind and engine. -/
def recBad (w : List Word) (eng r : Nat) : Bool :=
  let k := recKind w
  let d := recDword w r
  let c := recDword w 3
  let size := if k == 0x10 || k == 0x11 || k == 0x12 then (if 2 < cdDt c then 1 else cdSize k c) else 1
  match r with
  | 0 => !((eng == 40 && isColl k) || (eng != 40 && isCopy k)) || bitsOf d 11 5 != 0 || (isCopy k && recTmo w != 0)
  | 1 => if k == 0x14 then d != 0 else isColl k && d % size != 0
  | 2 => if k == 0x13 then d != 0 else isColl k && d % size != 0
  | 3 => if k == 1 || k == 3 then bitsOf d 48 16 != 0 else isColl k && cdBad k d
  | 4 => if k == 1 || k == 3 then d != 0 else isColl k && d % 64 != 0
  | 5 => if recSeme w then d % 8 != 0 else d != 0
  | 6 => !recSeme w && d != 0
  | _ => if recSwe w then d % 32 != 0 else d != 0

/-- Index of the first register that breaks a rule (R181). -/
def recFirstBad (w : List Word) (eng : Nat) : Option Nat := (List.range 8).find? (recBad w eng)

/-- Places of a partition's queue for an engine number (R183). -/
def queueRoom (eng : Nat) : Nat := if eng == 0 then 64 else if eng == 40 then 32 else 16

/-- Records that occupy the queue: those whose completion actions are not done (log 25), those in images (R392), and the slots that regions reserve (R205). -/
def queueUsed (s : State) (p eng : Nat) : Nat :=
  (s.eng.filter fun r => r.part == p && r.eng == eng).length

/-! ### Push (R181, R182, R204, R205) -/

/-- What the arrival of an ebar waits for: a release that also covers the marks before it. No wait in ebar counts toward R26 (R26, R203)
but that of a P2 agreement point for its stores to be paired (R204, R355, log 47). -/
def markRelease (s : State) (c : Scope) : Option Stall :=
  match executeRelease s c with
  | some w => some (if s.thr.sys.tstat.pclass == 2 then w else .listed)
  | none => if !s.thr.ex.marks.isEmpty || earlierPending s.thr s.thr.qs.pairsFormed then some .listed else none

/-- The release of a record's push has completed: its engine may take it (R182, R296). -/
def recordReady (s : State) (r : EngRec) : Bool :=
  match r.gate with
  | none => true
  | some g => match s.threads.find? (fun t => t.tid == r.tid) with
    | some t => t.gateOpen g
    | none => true

/-- The record takes a place in its queue, or a reserved slot inside a region; twice its number, or 1 when the queue is
full. -/
def enqueueRecord (s : State) (eng : Nat) (w : List Word) (region : Bool) : Word × State :=
  let t := s.thr
  if queueRoom eng ≤ queueUsed s t.part eng then (1, s)
  else
    let id := s.nextId
    let r : EngRec :=
      { id := id, part := t.part, eng := eng, tid := t.tid, owner := (t.task, t.teamIx, t.thrIx), words := w, seq := nextSeq s t.part eng, bytes := 0
        status := if region then .held else .queued, faulted := false, faddr := 0, code := 0, detail := 0, coll := none
        gate := some (t.gate t.qs.execMarks) }
    (BitVec.ofNat 64 (2 * id), { s with eng := s.eng ++ [r], nextId := id + 1 })

/-- The end of push: G[D] := 0 or 1, and inside a region the request is held. -/
def finishPush (d : Reg) (region : Bool) (v : Word) (s : State) : State :=
  let full := v == 1
  let s := if region && !full then modThr s fun t => { t with held := t.held ++ [.push (v.toNat / 2)] } else s
  complete (clearWait (writeReg s d (if full then 1 else 0)))

/-- push after its checks: the record enters its queue at once, and its engine takes it when the release has completed (R182). -/
def sendRecord (d : Reg) (eng : Nat) (w : List Word) (s : State) : State :=
  let region := regionHolds s.thr
  agreeThen s fun s =>
    paired s (3 :: eng :: w.map BitVec.toNat) (fun s => enqueueRecord s eng w region) (finishPush d region)

/-- push (R181): the record's rules, then SEMA and STATA, then the queue. -/
def execPush (d a : Reg) (e : BitVec 6) (s : State) : Result :=
  .next (withRegs s (d :: (List.range 8).map fun k => a + BitVec.ofNat 5 k) fun s =>
    let w := (List.range 8).map fun k => readG s.thr (a.toNat + k)
    match recFirstBad w e.toNat with
    | some r => modTeam (raiseHere s 0x13 (BitVec.ofNat 64 r)) s.thr.team fun u =>
        { u with trapRec := u.trapRec.map fun r => if r.engine == 3 then { r with engNum := e.toNat } else r }
    | none =>
      let stata (s : State) : State :=
        if recSwe w then withAddress s .store (w.getD 7 0) 32 fun _ _ => sendRecord d e.toNat w s else sendRecord d e.toNat w s
      if recSeme w then withAddress s .store (w.getD 5 0) 8 fun _ _ => stata s else stata s)

/-! ### Semaphores (R194-R198) -/

/-- The watches of a thread are freed, and what the far units have sent to them is lost. -/
def unarm (s : State) (tid : Nat) : State :=
  dropNotices { s with cores := s.cores.map fun c => { c with watches := c.watches.filter fun w => w.tid != tid } } (.thread tid)

/-- A watch is armed when the core's semaphore cache has a free entry; it holds the value just read (R197). -/
def arm (s : State) (t : Thread) (pa : Nat) (v : Word) : State :=
  modCore s t.core fun c =>
    if c.watches.length < Config.semaphoreEntries then { c with watches := c.watches ++ [{ pa := pa, tid := t.tid, value := v }] } else c

/-- The swait of the thread has read a value that satisfies it. -/
def finishSwait (d : Reg) (v : Word) (s : State) : State := complete (clearWait (writeReg (unarm s s.thr.tid) d v))

/-- Under P2 a waiting replica shows its request, and unequal requests are a check mismatch (R204). -/
def showRequest (s : State) (req : List Nat) : State :=
  if s.thr.sys.tstat.pclass != 2 || s.thr.rep == 2 then stall s .listed
  else
    let s := modThr s fun t => { t with pairReq := some req }
    match (twinOf s s.thr).bind (·.pairReq) with
    | some r => if r == req then stall s .listed else comparisonFails s (requestPos s.thr.thrIx 0 s.thr.logIx)
    | none => stall s .listed

/-- The counter's value at the far unit. -/
def readCounter (s : State) (pa : Nat) : Word := BitVec.ofNat 64 (getLe s.mem pa 8)

/-- The first read of a swait: it completes at once or arms a watch. -/
def startSwait (d : Reg) (req : List Nat) (pa : Nat) (ea want : Word) (s : State) : State :=
  let v := readCounter s pa
  let ready := decide (want.toNat ≤ v.toNat)
  let s := countAccess (modThr s fun t => { t with wait := .swait pa ea want (if ready then some v else none) }) pa
  if ready then paired s req (fun s => (v, s)) (finishSwait d)
  else showRequest (arm s s.thr pa v) req

/-- swait (R194). -/
def execSwait (d a b : Reg) (s : State) : Result :=
  .next (withRegs s [d, a, b] fun s =>
    let ea := readReg s a
    let want := readReg s b
    let req := [5, ea.toNat, want.toNat]
    match s.thr.wait with
    | .swait _ ea' want' got =>
      if (dueUnwind s.thr).isSome then unwind s ((dueUnwind s.thr).getD 0)
      else if ea' != ea || want' != want then first d req ea want s
      else match got with
      | some v => paired s req (fun s => (v, s)) (finishSwait d)
      | none => if s.thr.pairRes.isSome then paired s req (fun s => (0, s)) (finishSwait d) else stall s .listed
    | _ => first d req ea want s)
where
  /-- Nothing of it has begun, or its handler has changed its operands. -/
  first (d : Reg) (req : List Nat) (ea want : Word) (s : State) : State :=
    withAddress s .load ea 8 fun pa _ =>
      if poisonedIn s pa 8 then raiseHere s 0x0A ea
      else if s.thr.rep == 2 then paired s req (fun s => (0, s)) (finishSwait d)
      else startSwait d req pa ea want (unarm s s.thr.tid)

/-- ssig (R195): as rel.sys, then one far-atomic add. -/
def execSsig (d a b : Reg) (s : State) : Result :=
  .next (withRegs s [d, a, b] fun s =>
    let ea := readReg s a
    let v := readReg s b
    withAddress s .store ea 8 fun pa pte =>
      if poisonedIn s pa 8 then raiseHere s 0x0A ea
      else whenPromoted s fun s =>
        match executeRelease s .sys with
        | some w => stall s w
        | none =>
          if commitHolds s pa 8 then stall s .other
          else agreeThen s fun s =>
            paired s [4, ea.toNat, v.toNat]
              (fun s => performAtomic s pa { op := .madd, n := 64, b := v.toNat, cmp := 0, scope := .sys, pte := pte, res := none })
              (fun old s => complete (clearWait (writeReg (countAccess s pa) d old))))

/-- srd (R196). -/
def execSrd (d a : Reg) (s : State) : Result :=
  .next (withRegs s [d, a] fun s =>
    let ea := readReg s a
    withAddress s .load ea 8 fun pa _ =>
      if poisonedIn s pa 8 then raiseHere s 0x0A ea
      else paired s [6, ea.toNat] (fun s => (readCounter s pa, s)) (fun v s => complete (clearWait (writeReg (countAccess s pa) d v))))

/-- A value of a counter reaches a thread that waits on it. -/
def tellThread (pa : Nat) (v : Word) (t : Thread) : Thread :=
  match t.wait with
  | .swait q ea want none => if q == pa && want.toNat ≤ v.toNat then { t with wait := .swait q ea want (some v) } else t
  | _ => t

/-- A swait without a watch, or one whose watch was armed afresh, rereads its counter. -/
def pollThread (s : State) (tid : Nat) : State :=
  match s.threads.find? fun t => t.tid == tid with
  | none => s
  | some t => match t.wait with
    | .swait pa _ _ none => modTid s tid (tellThread pa (readCounter s pa))
    | _ => s

/-- SEMAPHORE_POLL: a swait that found the semaphore cache full rereads its counter (R197). -/
def execSemaphorePoll (tid : Nat) (s : State) : Result :=
  .next (if s.cores.any fun c => c.watches.any fun w => w.tid == tid then s else pollThread s tid)

/-! ### User-level interrupts (R199, R200, R204) -/

/-- An interrupt can be delivered to the thread now: the next instruction of its execute stream has not issued, or stalls in swait
or at an agreement point (R199, R204); not in an ebar that has arrived (R199), not in a wfi, which completes first (R235), not while
a region is open (R229), not at supervisor level, not in rpwait (log 21). -/
def uliReady (t : Thread) : Bool :=
  t.live && t.resident && !t.uli.isEmpty && !t.sys.tstat.uim && t.sys.ulivec != 0 && !t.ex.ended && !t.ex.stopped && !t.halted
    && !t.sys.tstat.lvl && !t.sys.tstat.cropen && t.pairRes.isNone && match t.wait with | .none | .swait .. | .sigchk => true | _ => false

/-- Delivery (R199). -/
def deliverUli (s : State) (tid : Nat) : State :=
  unarm (modTid s tid fun t =>
    match t.uli with
    | [] => t
    | u :: rest =>
      let y := t.sys
      let gi := upd (upd (upd t.gi 0 u.status) 1 (BitVec.ofNat 64 (u.engine + if t.ovf then 2 ^ 63 else 0))) 2 u.bytes
      { t with uli := rest, ovf := false, gi := gi, wait := .none, pairReq := none
               ex := { t.ex with pc := y.ulivec, stall := .no }
               sys := { y with uliret := t.ex.pc, tstat := { y.tstat with ulih := true, uim := true } } }) tid

/-- Under P2 an interrupt is delivered only at swait, ebar, yield and sigchk (R204). -/
def uliPoint (s : State) (tid : Nat) : Bool :=
  match focus s tid with
  | none => false
  | some s => match fetch { s with cur := .execute } with
    | .swait .. | .ebar .. | .yield | .sigchk => true
    | _ => false

/-- The interrupt of the thread is due, and the threads that take it: for a P2 pair both copies, at the same instruction (R204). -/
def uliDue (s : State) (t : Thread) : Option (List Nat) :=
  if !uliReady t || (debugHeld s t && t.stepping != some .execute) then none
  else if t.sys.tstat.pclass != 2 then some [t.tid]
  else match twinOf s t with
    | none => none
    | some w =>
      if uliReady w && w.ex.pc == t.ex.pc && w.ordinal == t.ordinal && w.uli.head? == t.uli.head? && uliPoint s t.tid
      then some [t.tid, w.tid] else none

/-- ULI_DELIVERY: the oldest pending interrupt, before the next execute-stream instruction. -/
def execUliDelivery (tid : Nat) (s : State) : Result :=
  .next (match s.threads.find? fun t => t.tid == tid with
    | none => s
    | some t => ((uliDue s t).getD []).foldl deliverUli s)

/-- uret (R200): outside a handler it is illegal. -/
def execUret (s : State) : Result :=
  .next (if s.thr.sys.tstat.ulih then
      let back := s.thr.sys.uliret
      transfer (modThr s fun t => { t with sys := { t.sys with tstat := { t.sys.tstat with ulih := false, uim := false } } }) back
    else illegal s .uret)

/-- uimask (R200). -/
def execUimask (d a : Reg) (s : State) : Result :=
  .next (withRegs s [d, a] fun s =>
    let old : Word := if s.thr.sys.tstat.uim then 1 else 0
    let new := (readReg s a).getLsbD 0
    complete (modThr (writeReg s d old) fun t => { t with sys := { t.sys with tstat := { t.sys.tstat with uim := new } } }))

/-! ### Ensembles (R29-R33, R201-R203) -/

/-- A member is a thread of a task; the replicas of a P2 pair are one member (R204). -/
def memberOf (t : Thread) : Nat × Nat × Nat := (t.task, t.teamIx, t.thrIx)

def Ensemble.has (e : Ensemble) (m : Nat × Nat × Nat) : Bool := e.members.any fun x => x.1 == m

def Ensemble.handle (e : Ensemble) : Word := BitVec.ofNat 64 (e.gen * 2 ^ 16 + e.part * 2 ^ 12 + e.slot)

/-- The ensemble of a valid handle of the thread's partition (R201). -/
def findEnsemble (s : State) (t : Thread) (h : Word) : Option Ensemble :=
  s.ensembles.find? fun e => e.part == t.part && e.handle == h

def modEnsemble (s : State) (slot : Nat) (f : Ensemble → Ensemble) : State :=
  { s with ensembles := s.ensembles.map fun e => if e.slot == slot then f e else e }

/-- The open barrier completes in the step after which every member has arrived (R30). -/
def Ensemble.settle (e : Ensemble) : Ensemble :=
  if e.members.any (fun x => x.2) && e.members.all (fun x => x.2) then
    { e with members := e.members.map fun x => (x.1, false), done := e.done + 1 }
  else e

def membershipsOf (s : State) (m : Nat × Nat × Nat) : Nat := (s.ensembles.filter fun e => e.has m).length

/-- A member leaves; an ensemble without members is freed (R31). -/
def leaveEnsemble (s : State) (slot : Nat) (m : Nat × Nat × Nat) : State :=
  let s := modEnsemble s slot fun e => Ensemble.settle { e with members := e.members.filter fun x => x.1 != m }
  { s with ensembles := s.ensembles.filter fun e => !e.members.isEmpty }

/-- The slot that ecreate takes: from an unspecified start, the first that is free (R201, log 13). -/
def freeSlot (s : State) (start : Nat) : Option Nat :=
  ((List.range Config.maxEnsembles).map fun k => (start + k) % Config.maxEnsembles).find? fun k =>
    !s.ensembles.any fun e => e.slot == k

/-- Times a slot has been used since the module's start. -/
def slotUses (s : State) (slot : Nat) : Nat := ((s.ensUses.find? fun u => u.1 == slot).map Prod.snd).getD 0

/-- GEN of the n-th use of a slot: never 0, no repeat in 2^32 - 1 uses (R201, log 13). -/
def genAt (slot n : Nat) : Nat := (Config.ensembleGen slot + n) % (2 ^ 32 - 1) + 1

/-- The next use of a slot whose GEN no import has put into it (R201, R393). -/
def nextUse (s : State) (slot : Nat) : Nat :=
  let n := slotUses s slot
  ((List.range (s.ensGens.length + 1)).map (n + ·)).find? (fun k => !s.ensGens.contains (slot, genAt slot k)) |>.getD n

def nextGen (s : State) (slot : Nat) : Nat := genAt slot (nextUse s slot)

/-- ecreate at the ensemble unit. -/
def createEnsemble (s : State) (t : Thread) : Word × State :=
  if Config.maxMemberships ≤ membershipsOf s (memberOf t) then (0, s)
  else
    let (n, s) := fresh s
    match freeSlot s (Config.ensembleSlot n) with
    | none => (0, s)
    | some k =>
      let e : Ensemble := { slot := k, gen := nextGen s k, part := t.part, members := [(memberOf t, false)], done := 0 }
      (e.handle, { s with ensembles := s.ensembles ++ [e]
                          ensUses := (k, nextUse s k + 1) :: s.ensUses.filter fun u => u.1 != k })

/-- ejoin at the ensemble unit. -/
def joinEnsemble (s : State) (t : Thread) (h : Word) : Word × State :=
  match findEnsemble s t h with
  | none => (2, s)
  | some e =>
    if e.has (memberOf t) then (1, s)
    else if Config.maxMemberships ≤ membershipsOf s (memberOf t) then (3, s)
    else if Config.maxMembers ≤ e.members.length then (4, s)
    else (0, modEnsemble s e.slot fun e => { e with members := e.members ++ [(memberOf t, false)] })

/-- eleave at the ensemble unit. -/
def quitEnsemble (s : State) (t : Thread) (h : Word) : Word × State :=
  match findEnsemble s t h with
  | none => (2, s)
  | some e => if e.has (memberOf t) then (0, leaveEnsemble s e.slot (memberOf t)) else (1, s)

/-- equery at the ensemble unit. -/
def askEnsemble (s : State) (t : Thread) (h q : Word) : Word :=
  match findEnsemble s t h with
  | none => Word.ones
  | some e =>
    if q == 0 then BitVec.ofNat 64 e.members.length
    else if q == 1 then BitVec.ofNat 64 (e.members.filter fun x => x.2).length
    else if q == 2 then BitVec.ofNat 64 e.done
    else if q == 3 then (if e.has (memberOf t) then 1 else 0)
    else Word.ones

/-- An ensemble request: a region is promoted first, the pair makes it once, G[D] takes the answer (R204, R205). -/
def ensembleRequest (d : Reg) (req : List Nat) (perform : State → Word × State) (s : State) : State :=
  whenPromoted s fun s => paired s req perform (fun v s => complete (clearWait (writeReg s d v)))

/-- ecreate (R202). -/
def execEcreate (d : Reg) (s : State) : Result :=
  .next (withRegs s [d] fun s => ensembleRequest d [7] (fun s => createEnsemble s s.thr) s)

/-- ejoin (R202). -/
def execEjoin (d a : Reg) (s : State) : Result :=
  .next (withRegs s [d, a] fun s =>
    let h := readReg s a
    ensembleRequest d [8, h.toNat] (fun s => joinEnsemble s s.thr h) s)

/-- eleave (R202). -/
def execEleave (d a : Reg) (s : State) : Result :=
  .next (withRegs s [d, a] fun s =>
    let h := readReg s a
    ensembleRequest d [9, h.toNat] (fun s => quitEnsemble s s.thr h) s)

/-- equery (R202). -/
def execEquery (d a b : Reg) (s : State) : Result :=
  .next (withRegs s [d, a, b] fun s =>
    let h := readReg s a
    let q := readReg s b
    ensembleRequest d [10, h.toNat, q.toNat] (fun s => (askEnsemble s s.thr h q, s)) s)

/-- An arrival at the ensemble unit (R30): 1 not a member, 2 invalid handle, and for a member 4 times the number of
barriers completed before it, modulo 2^64. -/
def arrive (s : State) (t : Thread) (h : Word) : Word × State :=
  match findEnsemble s t h with
  | none => (2, s)
  | some e =>
    if e.has (memberOf t) then
      (BitVec.ofNat 64 (4 * e.done), modEnsemble s e.slot fun e =>
        Ensemble.settle { e with members := e.members.map fun x => if x.1 == memberOf t then (x.1, true) else x })
    else (1, s)

/-- The barrier at which the thread arrived has completed (R30, R32). -/
def barrierDone (s : State) (t : Thread) (h : Word) (done : Nat) : Bool :=
  match findEnsemble s t h with
  | none => true
  | some e => e.done != done

/-- Barriers that the ensemble of a handle has completed. -/
def barriersDone (s : State) (t : Thread) (h : Word) : Nat := ((findEnsemble s t h).map (·.done)).getD 0

/-- ebar has been answered: it waits until its barrier completes; an Understudy does not wait (R368). -/
def finishEbar (d : Reg) (h : Word) (v : Word) (s : State) : State :=
  let now := barriersDone s s.thr h
  let past := (findEnsemble s s.thr h).isNone || 4 * now % 2 ^ 64 != v.toNat
  if v.toNat % 4 != 0 || s.thr.rep == 2 || past then
    complete (clearWait (writeReg s d (BitVec.ofNat 64 (v.toNat % 4))))
  else stall (modThr (clearWait s) fun t => { t with wait := .ebar h now }) .listed

/-- ebar (R202, R203): a release at its arrival; its wait is kept over traps and stops. -/
def execEbar (d a : Reg) (s : State) : Result :=
  .next (withRegs s [d, a] fun s =>
    match s.thr.wait with
    | .ebar h done =>
      if barrierDone s s.thr h done then complete (clearWait (writeReg s d 0)) else stall s .listed
    | _ =>
      let h := readReg s a
      whenPromoted s fun s => match markRelease s .ens with
        | some w => stall s w
        | none => agreeThen s fun s =>
            paired s [11, h.toNat] (fun s => arrive s s.thr h) (finishEbar d h))

end Sys2Proof.Machine
end

