-- ==== Sys2Proof/Machine/System.lean ====
section
/-!
DEFINITION. System, containment and recovery-point instructions (R207-R236).
-/

namespace Sys2Proof.Machine

/-! ### System registers (R208-R217) -/

/-- User access is "—": naming the register at user level raises privileged (R208, R209). -/
def supervisorOnly (n : Nat) : Bool := n ≤ 3 || (5 ≤ n && n ≤ 9) || (0x110 ≤ n && n ≤ 0x11F)

/-- The registers a supervisor alone may write, read-only for a user (R209). -/
def supervisorWrites (n : Nat) : Bool := (0x20 ≤ n && n ≤ 0x22) || (0x100 ≤ n && n ≤ 0x10F)

/-- A system register's value. -/
def sysReg (s : State) (n : Nat) : Word :=
  let t := s.thr
  let y := t.sys
  let r := (s.part t.part).rp
  if n == 0 then y.tcause
  else if n == 1 then y.taddr
  else if n == 2 then y.tpc
  else if n == 3 then y.txpc
  else if n == 4 then y.tstat.bits
  else if n == 5 then y.tvec
  else if n ≤ 9 then nth y.tscr (n - 6) 0
  else if n == 0x10 then y.crhnd
  else if n == 0x11 then y.ulivec
  else if n == 0x12 then y.uliret
  else if n == 0x20 then y.hbase
  else if n == 0x21 then y.hlimit
  else if n == 0x22 then y.hoff
  else if n == 0x30 then r.rpseq
  else if n == 0x31 then r.rpdur
  else if n == 0x32 then r.rppar
  else if n == 0x33 then r.bits
  else if n == 0x40 then locationOf s t
  else if n == 0x41 then BitVec.ofNat 64 t.teamIx
  else if n == 0x42 then BitVec.ofNat 64 t.thrIx
  else if n == 0x43 then y.dbase
  else if n == 0x44 then BitVec.ofNat 64 s.mod.time
  else if n == 0x50 then y.sigv
  else if n == 0x51 then y.sigs
  else if n < 0x110 then nth y.pcnt (n - 0x100) 0
  else nth y.psel (n - 0x110) 0

/-- Writable fields of the registers that have reserved or read-only bits (R210, R211, R213, R216). -/
def mask (lo n : Nat) : Word := BitVec.ofNat 64 ((2 ^ n - 1) * 2 ^ lo)

/-- A system register takes the RW fields of a word; read-only registers keep their value (R6, R7). -/
def setSysReg (y : SysRegs) (n : Nat) (v : Word) : SysRegs :=
  if n == 0 then { y with tcause := v &&& mask 0 9 }
  else if n == 1 then { y with taddr := v }
  else if n == 2 then { y with tpc := v }
  else if n == 3 then { y with txpc := v }
  else if n == 5 then { y with tvec := v &&& mask 9 48 }
  else if 6 ≤ n && n ≤ 9 then { y with tscr := upd y.tscr (n - 6) v }
  else if n == 0x11 then { y with ulivec := v &&& mask 2 62 }
  else if n == 0x12 then { y with uliret := v &&& mask 2 62 }
  else if n == 0x20 then { y with hbase := v &&& mask 12 45 }
  else if n == 0x21 then { y with hlimit := v &&& mask 12 45 }
  else if n == 0x22 then { y with hoff := v &&& mask 12 45 }
  else if n == 0x50 then { y with sigv := v }
  else if n == 0x51 then { y with sigs := v }
  else if 0x100 ≤ n && n ≤ 0x10F then { y with pcnt := upd y.pcnt (n - 0x100) v }
  else if 0x110 ≤ n && n ≤ 0x11F then { y with psel := upd y.psel (n - 0x110) (v &&& mask 0 8) }
  else y

/-- Reads of TCAUSE and TADDR at supervisor level make RDY (R212, R217). -/
def noteRead (t : Thread) (n : Nat) : Thread :=
  if t.sys.tstat.lvl && n ≤ 1 then
    let c := t.sys.sawCause || n == 0
    let a := t.sys.sawAddr || n == 1
    { t with sys := { t.sys with sawCause := c, sawAddr := a, tstat := { t.sys.tstat with rdy := t.sys.tstat.rdy || (c && a) } } }
  else t

/-- The primary replica's copy of the selected thread (R234). -/
def primaryThread (s : State) : Thread :=
  if s.thr.sys.tstat.pclass == 2 && s.thr.rep == 1 then (twinOf s s.thr).getD s.thr else s.thr

/-- sysrd of register n; under P2 TIME is read once for the pair, and LOCID is the primary's (R217, R234). -/
def readSys (d : Reg) (n : Nat) (i : Instr) (s : State) : State :=
  if supervisorOnly n && !s.thr.sys.tstat.lvl then privileged s i
  else withRegs s [d] fun s =>
    if n == 0x44 then paired s [14] (fun s => (sysReg s n, s)) (fun v s => complete (writeReg s d v))
    else if n == 0x40 then paired s [15] (fun s => (locationOf s (primaryThread s), s)) (fun v s => complete (writeReg s d v))
    else
      let v := sysReg s n
      complete (writeReg (modThr s fun t => noteRead t n) d v)

/-- sysrd (R217). -/
def execSysrd (d : Reg) (n : BitVec 12) (s : State) : Result := .next (readSys d n.toNat (.sysrd d n) s)

/-- sysrd of TCAUSE and TADDR (R212, R217). -/
def execSysrdTrapInfo (d : Reg) (n : BitVec 1) (s : State) : Result := .next (readSys d n.toNat (.sysrdTrapInfo d n) s)

/-- sysrd of SIGV waits for every earlier vector command (R217). -/
def execSysrdSigv (d : Reg) (s : State) : Result :=
  .next (if s.thr.vq.isEmpty then readSys d 0x50 (.sysrdSigv d) s else stall s .other)

/-- sysrd of SIGS waits until every store whose SDQ entry precedes it has been paired (R217). -/
def execSysrdSigs (d : Reg) (s : State) : Result :=
  .next (if s.thr.qs.sdq.isEmpty then readSys d 0x51 (.sysrdSigs d) s else stall s .queue)

/-- syswr (R6, R208, R217): in program order, so a write of SIGV or SIGS follows the folds of what precedes it (log 22). -/
def execSyswr (a : Reg) (n : BitVec 12) (s : State) : Result :=
  .next (if supervisorOnly n.toNat && !s.thr.sys.tstat.lvl then privileged s (.syswr a n)
    else withRegs s [a] fun s =>
      let v := readReg s a
      if supervisorWrites n.toNat && !s.thr.sys.tstat.lvl then complete s
      else if n == 0x50 && !s.thr.vq.isEmpty then stall s .other
      else if n == 0x51 && !s.thr.qs.sdq.isEmpty then stall s .queue
      else complete (modThr s fun t => { t with sys := setSysReg t.sys n.toNat v }))

/-- Some partition's durable granule lies in a range (R276, R401). -/
def durableIn (s : State) (a n : Nat) : Bool :=
  s.parts.toList.any fun q => match q.domain with
    | none => false
    | some d => (d.granules ++ d.pbGranules).any fun b => b < a + n && a < b + 0x200000

/-- The window that a syswr would leave (R279): closed, or inside the grant, clear of the image area and of durable
granules. -/
def windowOk (s : State) (y : SysRegs) : Bool :=
  let q := s.part s.thr.part
  let hb := y.hbase.toNat
  let hl := y.hlimit.toNat
  let a := (hb + y.hoff.toNat) % Config.vaEnd
  !decide (hb < hl) ||
    (q.heapPA ≤ a && a + (hl - hb) ≤ q.heapPA + q.heapLen && hl ≤ Config.imageArea && !durableIn s a (hl - hb))

/-- syswr of HBASE, HLIMIT or HOFF (R213, R279): every access unit issued before it has been checked at its issue. -/
def execSyswrHeapWindow (a : Reg) (n : BitVec 2) (s : State) : Result :=
  .next (withRegs s [a] fun s =>
    let v := readReg s a
    if !s.thr.sys.tstat.lvl then complete s
    else
      let y := setSysReg s.thr.sys (0x20 + n.toNat) v
      if windowOk s y then complete (modThr s fun t => { t with sys := y }) else raiseHere s 0x07 v)

/-! ### Traps (R218, R222) -/

/-- trap (R218, R220): TPC is the address of the next instruction. -/
def execTrap (n : BitVec 12) (s : State) : Result := .next (raise s s.cur 0x12 (s.pc + 4) (n.zeroExtend 64))

/-- A debugger halts the team of the thread, both replicas of a pair (R399). -/
def haltTeam (s : State) (t : Thread) : State :=
  { s with teams := s.teams.map fun u => if u.task == t.task && u.ix == t.teamIx then { u with dbgHalt := true } else u }

/-- brk (R218, R399). -/
def execBrk (n : BitVec 12) (s : State) : Result :=
  .next (if (s.part s.thr.part).debugger then
      let s := record s s.cur 0x11 s.pc (n.zeroExtend 64) none 0 0
      haltTeam (modThr s fun t => { t with brkAt := some s.cur, stepping := none }) s.thr
    else raiseHere s 0x11 (n.zeroExtend 64))

/-- eret (R208, R222). Of two misaligned resume addresses it reports TPC: the model's choice (log 58). -/
def execEret (s : State) : Result :=
  .next (if !s.thr.sys.tstat.lvl then privileged s .eret
    else
      let y := s.thr.sys
      if y.tpc.toNat % 4 != 0 then raiseHere s 0x04 y.tpc
      else if y.txpc.toNat % 4 != 0 then raiseHere s 0x04 y.txpc
      else trapReturn (lineUp s))

/-! ### Regions (R223-R229) -/

/-- cro (R223, R224). -/
def execCro (o : BitVec 12) (s : State) : Result :=
  .next (let y := s.thr.sys.tstat
    if y.ulih || y.lvl then illegal s (.cro o)
    else if y.cropen then raiseHere s 0x0D 0
    else if regionPending s.thr then stall s .queue
    else issueMark s .cro (s.pc + 4 * o.signExtend 64) complete)

/-- The region is over: its crc completes (R226), and no unwind of it is due. -/
def closeRegion (s : State) : State :=
  complete (clearWait (modThr s fun t =>
    { t with snapG := [], snapH := [], crcMark := none, unwindDue := t.unwindDue.drop 1, sys := { t.sys with tstat := { t.sys.tstat with cropen := false } } }))

/-- Every region store has been paired. -/
def regionPaired (t : Thread) : Bool :=
  t.ex.marks.isEmpty && t.qs.sdq.isEmpty && !t.qs.saq.any (fun a => a.marks < t.qs.pairsFormed)
    && !t.qs.xfers.any (fun x => !x.faulted && x.marks < t.qs.pairsFormed)

/-- The drain begins, or has nothing to do. A P2 pair drains in one step. -/
def beginDrain (s : State) : State :=
  if s.thr.sys.tstat.pclass != 2 && s.thr.held.isEmpty && s.thr.late.isEmpty && !s.thr.wings.any (fun l => !l.held) then closeRegion s
  else stall (modThr s fun t => { t with wait := .drain }) .other

/-- crc (R224, R226): its mark issues, its pair forms, the region's stores are paired, a P2 pair agrees, the region drains
(WINGS_DRAIN), and it completes. Until then an unwind of the other replica is taken (R227). -/
def execCrc (s : State) : Result :=
  .next (let t := s.thr
    let go (k : State) : State := match dueUnwind t with
      | some c => unwind s c
      | none => k
    match t.wait with
    | .crc =>
      go (if !regionPaired t then stall s .queue
        else if t.sys.tstat.pclass == 2 then
          (if t.vq.isEmpty then stall (modThr s fun t => t.atAgreement s.mod.time) .listed else stall s .listed)
        else beginDrain s)
    | .sigchk => go (stall s .listed)
    | .agreed => go (beginDrain s)
    | .drain => go (stall s .other)
    | _ =>
      if regionPending t then stall s .queue
      else if !t.sys.tstat.cropen then raiseHere s 0x0D 0
      else issueMark s .crc 0 fun s => stall (modThr s fun t => { t with wait := .crc }) .queue)

/-- What a region held leaves the thread (R96, R205, R226, R300). -/
def drainRegion (s : State) (tid : Nat) : State := releaseHeld (drainLines s tid false) tid

/-- The crc of the selected thread completes when no mbput of its region still waits to take effect (R96, R226). -/
def endDrain (s : State) : State := if s.thr.late.isEmpty then closeRegion { s with cur := .execute } else s

/-- The other replica's crc, which has agreed with this one's. -/
def drainTwin (s : State) : Option Thread :=
  (twinOf s s.thr).bind fun w => if w.crcMark.isSome && (w.wait == .drain || w.wait == .agreed) then some w else none

/-- The region of the selected thread drains and its crc completes; under P2 those of both replicas, replica 0's lines first (R226,
R227, R300). -/
def drainRegions (s : State) : State :=
  let t := s.thr
  if t.sys.tstat.pclass != 2 || t.rep == 2 then (if mayDrain s t false then endDrain (settleLate (drainRegion s t.tid)) else s)
  else match drainTwin s with
    | none => s
    | some w =>
      if (dueUnwind w).isSome || !mayDrain s t false || !mayDrain s w false then s
      else
        let (a, b) := if t.rep == 0 then (t.tid, w.tid) else (w.tid, t.tid)
        let s := settleLate (drainRegion (drainRegion s a) b)
        let both := s.thr.late.isEmpty && (twinOf s s.thr).all fun w => w.late.isEmpty
        if both then onThread (onThread { s with cur := .execute } w.tid closeRegion) t.tid closeRegion else s

/-- WINGS_DRAIN: the lines of a region whose crc has begun to drain leave, then what the region held, and the crc completes, in a
team that stops too (R96, R205, R225, R226, R229, R300). The mbputs that wait for what they cover take effect when it is visible
(R94). -/
def execWingsDrain (tid : Nat) (s : State) : Result :=
  .next (onThread s tid fun s =>
    let s := settleLate s
    if s.thr.wait != .drain then s
    else match dueUnwind s.thr with
      | some c => unwind s c
      | none => drainRegions s)

/-! ### Agreement points and recovery points (R230-R233) -/

/-- sigchk (R230): no effect under P0 and P1. -/
def execSigchk (s : State) : Result := .next (agreeThen s fun s => complete (clearWait s))

/-- rpopen (R231-R233): once for a P2 pair; it promotes an open region. -/
def execRpopen (d : Reg) (s : State) : Result :=
  .next (withRegs s [d] fun s =>
    whenPromoted s fun s => paired s [12] (fun s => openPoint s s.thr.part) (fun v s => complete (clearWait (writeReg s d v))))

/-- The request of rpcommit: 0 when the commit begins. -/
def requestCommit (s : State) (seq : Word) : Word × State :=
  let s := releaseEntry s .rcv
  let r := (s.part s.thr.part).rp
  if r.state == 1 && seq == r.rpseq then (0, beginCommit s s.thr.part seq) else (1, s)

/-- rpcommit (R232, R233): as fence.rcv in the execute stream, then the request. -/
def execRpcommit (d a : Reg) (s : State) : Result :=
  .next (withRegs s [d, a] fun s =>
    let seq := readReg s a
    whenPromoted s fun s => match fenceWait s .rcv with
    | some w => stall s w
    | none => paired s [13, seq.toNat] (fun s => requestCommit s seq) (fun v s => complete (clearWait (writeReg s d v))))

/-- rpwait (R233). -/
def execRpwait (d a : Reg) (w : Bool) (s : State) : Result :=
  .next (withRegs s [d, a] fun s =>
    let r := (s.part s.thr.part).rp
    let seq := readReg s a
    let v := if w then r.rppar else r.rpdur
    if (r.cfail && decide (r.rpdur.toNat < seq.toNat)) || (w && r.feed) then complete (clearWait (writeReg s d Word.ones))
    else if seq.toNat ≤ v.toNat then complete (clearWait (writeReg s d v))
    else stall (modThr s fun t => { t with wait := .rpwait seq w }) .listed)

/-! ### Location, halting and waiting (R234, R235) -/

/-- What locq answers, for the primary replica's thread (R234). -/
def locationBits (s : State) (n : Bool) (ea : Word) : Word :=
  if n then
    match translate s (primaryThread s) .load ea 1 1 false with
    | .ok pa _ => addrBits s s.thr.part pa
    | _ => BitVec.ofNat 64 (2 ^ 63)
  else locationOf s (primaryThread s)

/-- The walk of locq that meets a malformed entry is logged (R281). -/
def noteLocate (s : State) (n : Bool) (ea : Word) : State :=
  if n then
    match translate s (primaryThread s) .load ea 1 1 false with
    | .fault _ => logMalformed s s.thr.part ea.toNat
    | _ => s
  else s

/-- locq (R234): it never faults; under P2 both replicas receive the primary's value. -/
def execLocq (d a : Reg) (n : Bool) (s : State) : Result :=
  .next (withRegs s [d, a] fun s =>
    let ea := if n then readReg s a else 0
    paired s [16, n.toNat, ea.toNat] (fun s => (locationBits s n ea, noteLocate s n ea)) (fun v s => complete (writeReg s d v)))

/-- halt (R28, R224, R235). -/
def execHalt (s : State) : Result :=
  .next (match s.cur with
    | .execute =>
      if s.thr.sys.tstat.cropen then raiseHere s 0x0D 0
      else if regionPending s.thr then stall s .queue
      else { s with thr := (s.thr.issued .execute).modSt .execute fun x => { x with ended := true } }
    | .access => { s with thr := (s.thr.issued .access).modSt .access fun x => { x with ended := true } })

/-- yield (R235). -/
def execYield (s : State) : Result := .next (complete s)

/-- wfi (R235): until the thread has a pending user-level interrupt. -/
def execWfi (s : State) : Result :=
  .next (if s.thr.uli.isEmpty then stall (modThr s fun t => { t with wait := .wfi }) .listed else complete (clearWait s))

end Sys2Proof.Machine
end

