-- ==== Sys2Proof/Machine/Tile.lean ====
section
/-!
DEFINITION. Tiles and the vector engine's operands (R122-R128, R147): the shape register, element types, names after
rotation, reading and writing tiles and predicates, what a command folds into SIGV, and how a command enters its queue
(R55, R62-R65, R144, R150, R323).
-/

namespace Sys2Proof.Machine

/-! ### Shape (R123) -/

/-- The tests of R123 on a shape word without reserved bits. -/
def shapeValid (shp : Word) : Bool :=
  let x := shapeOf shp
  bitsOf shp.toNat 17 2 != 3 && x.nc * x.w ≤ 512 && x.nr * x.nc * x.w ≤ 8192

/-! ### Types (R51, R129) -/

/-- The element type of a TYPE code and U; none for U on a floating type. -/
def tyOf (ty : BitVec 3) (u : Bool) : Option Ty :=
  match ty.toNat with
  | 0 => if u then none else some (.fp .fp32)
  | 1 => if u then none else some (.fp .bf16)
  | 2 => if u then none else some (.fp .fp16)
  | 3 => if u then none else some (.fp .e4m3)
  | 4 => if u then none else some (.fp .e5m2)
  | 5 => some (.int 8 u)
  | 6 => some (.int 16 u)
  | _ => some (.int 32 u)

/-- The type of a command that was accepted. -/
def wideType (f : Wide) (hasU : Bool) : Ty := (tyOf f.ty (hasU && f.u)).getD (.fp .fp32)

/-- The sets FP, INT and ALL of R129. -/
def isFP : Ty → Bool
  | .fp .fp32 => true
  | .fp .bf16 => true
  | .fp .fp16 => true
  | _ => false

def isINT : Ty → Bool
  | .int .. => true
  | _ => false

def isNUM (t : Ty) : Bool := isFP t || isINT t

/-- The format codes are accepted (R63, R129): the type is in the set, RND is 00 unless a floating type rounds, and the
width agrees with SHP. -/
def accept (f : Wide) (shp : Word) (set : Ty → Bool) (hasU rounds : Bool) : Bool :=
  match tyOf f.ty (hasU && f.u) with
  | none => false
  | some t => set t && (f.rnd == 0 || (rounds && !isINT t)) && t.bits == 8 * (shapeOf shp).w

/-- TYPE 000 and RND 00, and U 0 where the instruction has a U bit. -/
def accept000 (f : Wide) (hasU : Bool) : Bool := f.ty == 0 && f.rnd == 0 && !(hasU && f.u)

/-! ### Names (R50, R55, R91) -/

/-- A specifier after rotation. -/
def physName (t : Thread) (k : Spec) (x : BitVec 7) : BitVec 7 :=
  match k with
  | .v | .vdst => BitVec.ofNat 7 (physV t x.toNat)
  | .p => BitVec.ofNat 7 (physP t x.toNat)
  | _ => x

/-- R55 on a specifier after rotation. -/
def allocated (t : Thread) (k : Spec) (x : BitVec 7) : Bool :=
  match k with
  | .v | .vdst => 96 ≤ x.toNat || x.toNat < t.vregs
  | .a => x.toNat < t.accs
  | _ => true

/-- The kinds of VD, VA, VB and VC. -/
structure Kinds where
  d : Spec
  a : Spec
  b : Spec
  c : Spec

/-- The fields of a command with V and P names rotated. -/
def rename (t : Thread) (k : Kinds) (f : Wide) : Wide :=
  { f with vd := physName t k.d f.vd, va := physName t k.a f.va, vb := physName t k.b f.vb, vc := physName t k.c f.vc
           pred := BitVec.ofNat 4 (physP t f.pred.toNat) }

def allAllocated (t : Thread) (k : Kinds) (f : Wide) : Bool :=
  allocated t k.d f.vd && allocated t k.a f.va && allocated t k.b f.vb && allocated t k.c f.vc

/-! ### Queues (R144, R150, R323) -/

/-- Entries that the threads of a core hold, and what the other resident threads' reservations still need. -/
def queueFree (s : State) (entries reserve : Nat) (q : Thread → List Cmd) : Bool :=
  let here := s.threads.filter fun w => w.live && w.resident && w.core == s.thr.core
  let used := here.foldl (fun n w => n + (q w).length) 0
  let owed := here.foldl (fun n w => n + if w.tid == s.thr.tid then 0 else reserve - (q w).length) 0
  used + 1 + owed ≤ entries

/-- The G fields of an instruction as registers. -/
def gRegs (k : Kinds) (f : Wide) : List Reg :=
  [(k.d, f.vd), (k.a, f.va), (k.b, f.vb), (k.c, f.vc)].filterMap fun x => if x.1 = .g then some (x.2.setWidth 5) else none

/-- The command that an instruction queues. -/
def newCmd (s : State) (mk : Wide → Instr) (k : Kinds) (f : Wide) : Cmd :=
  let t := s.thr
  { i := mk (rename t k f), cmdix := t.cmdix, shp := t.shp
    g1 := if k.a = .g then readG t f.va.toNat else 0, g2 := if k.b = .g then readG t f.vb.toNat else 0
    marks := t.qs.execMarks, pc := s.pc, vd := f.vd, bank := t.irqBank, words := wordsValue (mk f), stamp := s.stamp, sup := t.sys.tstat.lvl }

/-- An engine instruction issues (R55, R62-R65, R144, R150): the tests in the order of R65, then `op`, the faults of the
operation itself made at issue, then its place in the queue. -/
def issueEngine (s : State) (mk : Wide → Instr) (k : Kinds) (f : Wide) (qx fmtOk : Bool) (op : Option (Byte × Word))
    (room : Bool) (push : Cmd → Thread → Thread) : State :=
  if atLoopEnd s || !allAllocated s.thr k (rename s.thr k f) then illegal s (mk f)
  else if qx && !Config.nClass (s.thr.core / 16) then migrate s (mk f)
  else withRegs s (gRegs k f) fun s =>
    if !fmtOk then formatFault s (mk f)
    else match op with
      | some (c, ta) => raiseHere s c ta
      | none =>
        if !room then stall s .listed
        else
          let c := newCmd s mk k f
          complete (modThr { s with stamp := s.stamp + 1 } fun t => push c { t with cmdix := t.cmdix + 1 }) 2

/-- An instruction of the vector command queue. -/
def issueVector (mk : Wide → Instr) (k : Kinds) (f : Wide) (fmtOk : Bool) (s : State) (qx : Bool := false) : Result :=
  .next (issueEngine s mk k f qx fmtOk none (queueFree s Config.vectorEntries 4 (·.vq)) fun c t => { t with vq := t.vq ++ [c] })

/-! ### Tiles as lists of elements -/

/-- The elements of a V, Q or Z name as a tile of nr rows, nc columns and width w (R122, R125). -/
def readTile (t : Thread) (name : BitVec 7) (nr nc w : Nat) : List Nat :=
  let k := name.toNat
  (List.range (nr * nc)).map fun e =>
    if k < 96 then getLe t.v (k * 8192 + e * w) w
    else if k < 112 then getLe t.q ((k - 96) * 512 + e % nc * w) w
    else getLe t.z ((k - 112) * 8192 + e * w) w

/-- Elements written from a base upward; none leaves the element alone. -/
def putElems (m : Cells) (base w : Nat) (vals : List (Option Nat)) : Cells :=
  (vals.zipIdx).foldl (fun m x => match x.1 with
    | some v => setCells m (base + x.2 * w) (leBytes w v)
    | none => m) m

/-- The last-result file shifts (R128): Z0 takes the whole of a V register. -/
def shiftZ (t : Thread) (k : Nat) : Thread :=
  let old := (t.z.filter fun c => c.1 < 24576).map fun c => (c.1 + 8192, c.2)
  let new := (t.v.filter fun c => k * 8192 ≤ c.1 && c.1 < (k + 1) * 8192).map fun c => (c.1 - k * 8192, c.2)
  { t with z := new ++ old }

/-- SIGV folds bytes (R147). -/
def foldSig (t : Thread) (bs : List Byte) : Thread := { t with sys := { t.sys with sigv := crc64 t.sys.sigv bs } }

/-- What a command writes to its destination: elements in the order of the result, the length of a row of the result, and the
width. -/
structure TileOut where
  f : Wide
  cols : Nat
  w : Nat
  vals : List (Option Nat)

/-- A tile is written to a V or Q name (R125, R126, R128) and folded into SIGV (R147). DESIGN CHOICE (log 27): the width of the fold of
cvt and cvtsr is the destination's; a Q destination of vtrans takes all nr elements of row 0, and nc * w bytes are folded; a command
with no active element still shifts the last-result file and folds. -/
def writeTile (t : Thread) (c : Cmd) (o : TileOut) (extra : List Byte := []) : Thread :=
  let k := o.f.vd.toNat
  let vals := if o.f.zm then o.vals.map fun x => some (x.getD 0) else o.vals
  let head : Byte := c.vd.setWidth 8
  if k < 96 then
    let t := shiftZ { t with v := putElems t.v (k * 8192) o.w vals } k
    foldSig t (head :: getCells t.v (k * 8192) (vals.length * o.w) ++ extra)
  else
    let t := { t with q := putElems t.q ((k - 96) * 512) o.w (vals.take o.cols) }
    foldSig t (head :: getCells t.q ((k - 96) * 512) ((shapeOf c.shp).nc * o.w) ++ extra)

/-- A tile of the shape of a command that no element of changes. -/
def TileOut.kept (f : Wide) (x : Shape) : TileOut := { f := f, cols := x.nc, w := x.w, vals := List.replicate x.n none }

/-! ### Predicates -/

/-- Bit e of the governing predicate (R126). -/
def activeAt (t : Thread) (f : Wide) (e : Nat) : Bool := (readP t f.pred.toNat).getLsbD e

/-- Some element of the tile is active (R127). -/
def anyActive (t : Thread) (f : Wide) (n : Nat) : Bool := (List.range n).any (activeAt t f)

/-- The number whose bit e is f e, for e below n. -/
def bitsNat (n : Nat) (f : Nat → Bool) : Nat := (List.range n).foldl (fun v e => if f e then v + 2 ^ e else v) 0

/-- Bits 0 to n - 1 of a predicate as the bytes pst writes (R143). -/
def predBytes (p : BitVec 8192) (n : Nat) : List Byte := leBytes ((n + 7) / 8) (p.toNat % 2 ^ n)

/-- A predicate result is written (R126, R127) and folded (R147): bits n and up become false. -/
def writePred (t : Thread) (c : Cmd) (f : Wide) (n : Nat) (v : Nat → Bool) : Thread :=
  let old := readP t f.vd.toNat
  let t := if f.zm || anyActive t f n then
      writeP t f.vd.toNat (BitVec.ofNat 8192 (bitsNat n fun e => if activeAt t f e then v e else !f.zm && old.getLsbD e))
    else t
  foldSig t ((0x80#8 + c.vd.setWidth 8) :: predBytes (readP t f.vd.toNat) n)

end Sys2Proof.Machine
end

