-- ==== Sys2Proof/Machine/Command.lean ====
section
/-!
DEFINITION. What the vector engine does with a command of R130-R143 and R169-R176, and VECTOR_COMMAND (R144-R148, R324).
-/

namespace Sys2Proof.Machine

/-- The outcome of a command at the head of its queue. -/
inductive CmdOut where
  | done (s : State)
  /-- It writes a tile. -/
  | tile (o : TileOut)
  | fault (cause : Byte) (taddr : Word)
  /-- It waits for a bank lock (R109). -/
  | wait

/-! ### Order between the engines (R145, R164, R324) -/

/-- The accumulator a command names, for the range checker (R145, R164). -/
def cmdAcc (c : Cmd) : Option Nat :=
  match c.i with
  | .vldac f => some f.va.toNat
  | .mclr f => some f.vd.toNat
  | .mswap f => some f.vd.toNat
  | .mmac f => some f.vd.toNat
  | _ => none

/-- The range checker orders two commands of the two engines: their extents overlap and one writes, or both name one
accumulator (R145, R164). -/
def ordered (s : State) (t : Thread) (a b : Cmd) : Bool :=
  ((cmdAcc a).isSome && cmdAcc a == cmdAcc b) ||
    match cmdExtent s t a, cmdExtent s t b with
    | some x, some y => (x.2 || y.2) && x.1.overlaps y.1
    | _, _ => false

/-- The instruction of a STEP has queued a command, and the engines run up to it (R399). -/
def stepRuns (t : Thread) (c : Cmd) : Bool :=
  match t.stepFrom with
  | some n => n < t.cmdix && c.cmdix ≤ n
  | none => false

/-- A head command waits for the lock of its bank, or behind what waits there since before it (R109); with no active element it
accesses nothing (R127). -/
def bankHeld (s : State) (t : Thread) (c : Cmd) : Bool :=
  (match c.i with | .vld f | .vst f => anyActive t f (shapeOf c.shp).n | _ => true)
    && match cmdExtent s t c with | some e => bankBusy s t c e.1 | none => false

/-- No transfer that would lie before an unpaired execute-stream mark can come any more (R106): the access stream has ended; or both
streams stand, neither for another agent, and nothing of the thread is under way, so that only a queued command can let one go on
(log 10). -/
def marksIdle (s : State) (t : Thread) : Bool :=
  t.ax.ended || (t.ax.stall == .queue && !t.ax.stopped && !t.ex.stopped && t.wait == .none && !t.inFlight && t.walk.isEmpty && t.pf.isEmpty
    && t.trap.isNone && t.pairReq.isNone && t.lockWait.isNone && !t.forced && (t.ex.ended || t.ex.stall != .no)
    && s.parts.toList.all fun q => match q.domain with | some d => d.held.isEmpty | none => true)

/-- A command waits for the mark pairs before it: a transfer before one of them may still come that shares its extent (R106). -/
def marksHold (s : State) (t : Thread) (c : Cmd) (other : List Cmd) : Bool :=
  (cmdExtent s t c).isSome && decide (t.qs.pairsFormed < c.marks)
    && !(marksIdle s t && other.head?.all fun d => (cmdExtent s t d).isSome && decide (t.qs.pairsFormed < d.marks))

/-- A head command is ready: no fault or stop holds it, the mark pairs before it let it, and no earlier command of the other engine
comes before it (R106, R324). -/
def cmdReady (s : State) (t : Thread) (c : Cmd) (other : List Cmd) : Bool :=
  (match t.cmdHold with | some (n, _) => n ≤ c.cmdix | none => true)
    && (match findTeam s t.team with
        | some u => (u.status == .resident || u.status == .ended) && (!u.dbgHalt || stepRuns t c)
        | none => false)
    && !marksHold s t c other
    && !(other.any fun d => decide (d.cmdix < c.cmdix) && ordered s t c d) && !bankHeld s t c

/-- The head command of a queue of a context of a core is ready. -/
def headReady (s : State) (core : Nat) (q other : Thread → List Cmd) (ctx : Nat) : Bool :=
  s.threads.any fun t => t.live && t.resident && t.core == core && t.ctx == ctx && match (q t).head? with
    | some c => cmdReady s t c (other t)
    | none => false

/-- The first of the four contexts that a test holds for, in rotating order from the one after the last (R324). -/
def nextContext (last : Nat) (ok : Nat → Bool) : Option Nat := ((List.range 4).map fun k => (last + 1 + k) % 4).find? ok

/-- The context that the vector engine of a core takes at this boundary (R324). -/
def vectorChoice (s : State) (core : Nat) : Option Nat := nextContext (s.core core).vecLast (headReady s core (·.vq) (·.mq))

/-- The context that the matrix engine takes: the one whose latch is in the array keeps it for at most 16 commands (R324). -/
def matrixChoice (s : State) (core : Nat) : Option Nat :=
  let k := s.core core
  let ok := headReady s core (·.mq) (·.vq)
  if decide (0 < k.matRun) && decide (k.matRun < 16) && ok k.matLast then some k.matLast else nextContext k.matLast ok

/-- The engine has run a command of the selected thread. -/
def ranVector (s : State) : State := modCore s s.thr.core fun k => { k with vecLast := s.thr.ctx }
def ranMatrix (s : State) : State :=
  modCore s s.thr.core fun k => { k with matLast := s.thr.ctx, matRun := if k.matLast == s.thr.ctx && decide (k.matRun < 16) then k.matRun + 1 else 1 }

/-! ### Elementwise commands -/

/-- Every active element takes a value. -/
def lanes (t : Thread) (f : Wide) (x : Shape) (v : Nat → Nat) : TileOut :=
  { f := f, cols := x.nc, w := x.w, vals := (List.range x.n).map fun e => if activeAt t f e then some (v e) else none }

/-- Element e of a list. -/
def elem (l : List Nat) (e : Nat) : Nat := l.getD e 0

/-- One, two and three V sources. -/
def lanes1 (t : Thread) (c : Cmd) (f : Wide) (op : Nat → Nat) : TileOut :=
  let x := shapeOf c.shp
  let a := readTile t f.va x.nr x.nc x.w
  lanes t f x fun e => op (elem a e)

def lanes2 (t : Thread) (c : Cmd) (f : Wide) (op : Nat → Nat → Nat) : TileOut :=
  let x := shapeOf c.shp
  let a := readTile t f.va x.nr x.nc x.w
  let b := readTile t f.vb x.nr x.nc x.w
  lanes t f x fun e => op (elem a e) (elem b e)

def lanes3 (t : Thread) (c : Cmd) (f : Wide) (op : Nat → Nat → Nat → Nat) : TileOut :=
  let x := shapeOf c.shp
  let a := readTile t f.va x.nr x.nc x.w
  let b := readTile t f.vb x.nr x.nc x.w
  let d := readTile t f.vc x.nr x.nc x.w
  lanes t f x fun e => op (elem a e) (elem b e) (elem d e)

/-- A compare (R132). -/
def compareTile (t : Thread) (c : Cmd) (f : Wide) (r : Rel) : Thread :=
  let x := shapeOf c.shp
  let a := readTile t f.va x.nr x.nc x.w
  let b := readTile t f.vb x.nr x.nc x.w
  writePred t c f x.n fun e => tyCompare (wideType f true) r (elem a e) (elem b e)

/-- Predicate logic (R132). -/
def predLogic (t : Thread) (c : Cmd) (f : Wide) (op : Bool → Bool → Bool) : Thread :=
  let a := readP t f.va.toNat
  let b := readP t f.vb.toNat
  writePred t c f (shapeOf c.shp).n fun e => op (a.getLsbD e) (b.getLsbD e)

/-- pset (R133). -/
def psetTile (t : Thread) (c : Cmd) (f : Wide) : Thread :=
  let x := shapeOf c.shp
  let k := min (f.imm.toNat % 8192 + c.g1.toNat) 8192
  let mode := f.imm.toNat / 8192
  writePred t c f x.n fun e => decide ((if mode = 0 then e else if mode = 1 then e % x.nc else e / x.nc) < k)

/-! ### Reductions (R127, R135) -/

/-- A NaN becomes the canonical one (R266). -/
def tyCanon (ty : Ty) (v : Nat) : Nat :=
  match ty with
  | .fp f => if (decodeFp f v).isNan then f.nan else v
  | .int .. => v

/-- A reduction: active sources, the identity elsewhere; with no active element the destination keeps its value (R127). A tree of one
element canonicalises as a larger one does (R266). -/
def reduce (t : Thread) (c : Cmd) (f : Wide) (byRow : Bool) (op : Ty → Nat → Nat → Nat) (unit : Ty → Nat) : TileOut :=
  let x := shapeOf c.shp
  let ty := (wideType f true)
  let a := readTile t f.va x.nr x.nc x.w
  if !anyActive t f x.n then .kept f x
  else
    let src (e : Nat) : Nat := if activeAt t f e then elem a e else unit ty
    let tree (l : List Nat) : Nat := tyCanon ty (treeFold (op ty) 0 l)
    let val (e : Nat) : Nat :=
      let i := e / x.nc
      let j := e % x.nc
      if byRow then (if j = 0 then tree ((List.range x.nc).map fun k => src (i * x.nc + k)) else 0)
      else if i = 0 then tree ((List.range x.nr).map fun k => src (k * x.nc + j)) else 0
    { f := f, cols := x.nc, w := x.w, vals := (List.range x.n).map fun e => some (val e) }

/-! ### Data movement (R136-R140) -/

/-- vbcast (R136). -/
def bcastTile (t : Thread) (c : Cmd) (f : Wide) : TileOut :=
  let x := shapeOf c.shp
  let src := f.mod.toNat / 4096
  if src = 3 then lanes t f x fun _ => c.g1.toNat % 2 ^ (8 * x.w)
  else
    let a := readTile t f.va x.nr x.nc x.w
    lanes t f x fun e => elem a (if src = 0 then e % x.nc else if src = 1 then e / x.nc * x.nc else 0)

/-- vtrans (R137): the predicate is indexed by the destination. -/
def transTile (t : Thread) (c : Cmd) (f : Wide) : TileOut :=
  let x := shapeOf c.shp
  let a := readTile t f.va x.nr x.nc x.w
  { f := f, cols := x.nr, w := x.w, vals := (List.range x.n).map fun d =>
      if activeAt t f d then some (elem a (d % x.nr * x.nc + d / x.nr)) else none }

/-- A move within rows (R138): the source index of element (i, j), taken from a or from b; it counts only when it lies in
the row and is active. -/
def moveInRow (t : Thread) (f : Wide) (x : Shape) (src : Nat → Nat → Bool × Nat) : TileOut :=
  let a := readTile t f.va x.nr x.nc x.w
  let b := readTile t f.vb x.nr x.nc x.w
  { f := f, cols := x.nc, w := x.w, vals := (List.range x.n).map fun e =>
      let i := e / x.nc
      let (fromB, k) := src i (e % x.nc)
      if activeAt t f e && k < x.nc && activeAt t f (i * x.nc + k) then
        some (elem (if fromB then b else a) (i * x.nc + k)) else none }

/-- vperm (R138). -/
def permTile (t : Thread) (c : Cmd) (f : Wide) : TileOut :=
  let x := shapeOf c.shp
  let b := readTile t f.vb x.nr x.nc x.w
  moveInRow t f x fun i j => (false, elem b (i * x.nc + j))

/-- vshuf (R138). -/
def shufTile (t : Thread) (c : Cmd) (f : Wide) : TileOut :=
  let x := shapeOf c.shp
  let op := f.mod.toNat / 2048
  let k := f.mod.toNat % 1024
  let h := x.nc / 2
  moveInRow t f x fun _ j =>
    if op = 0 then (j % 2 == 1, j / 2)
    else if op = 1 then (j % 2 == 1, h + j / 2)
    else if op = 2 then (if j < h then (false, 2 * j) else (true, 2 * (j - h)))
    else if op = 3 then (if j < h then (false, 2 * j + 1) else (true, 2 * (j - h) + 1))
    else (false, (j + k) % x.nc)

/-- vcomp (R139): the count goes to G[VC]. -/
def compTile (t : Thread) (c : Cmd) (f : Wide) : Thread :=
  let x := shapeOf c.shp
  let a := readTile t f.va x.nr x.nc x.w
  let got := ((List.range x.n).filter (activeAt t f)).map (elem a)
  let vals := (got ++ List.replicate (x.n - got.length) 0).map some
  lateG (writeTile t c { f := f, cols := x.nc, w := x.w, vals := vals } (leBytes 8 got.length)) c f.vc.toNat (BitVec.ofNat 64 got.length)

/-- vexpd (R139). -/
def expdTile (t : Thread) (c : Cmd) (f : Wide) : TileOut :=
  let x := shapeOf c.shp
  let a := readTile t f.va x.nr x.nc x.w
  lanes t f x fun e => elem a ((List.range e).filter (activeAt t f)).length

/-- vsel (R140): the predicate selects, and every element is written. -/
def selTile (t : Thread) (c : Cmd) (f : Wide) : TileOut :=
  let x := shapeOf c.shp
  let a := readTile t f.va x.nr x.nc x.w
  let b := readTile t f.vb x.nr x.nc x.w
  { f := f, cols := x.nc, w := x.w, vals := (List.range x.n).map fun e => some (if activeAt t f e then elem a e else elem b e) }

/-- vmovi (R136). -/
def moviTile (t : Thread) (c : Cmd) (f : Wide) : TileOut :=
  let x := shapeOf c.shp
  let v := match (wideType f false) with
    | .fp .fp32 => f.imm.toNat * 2 ^ 17
    | .fp _ => f.imm.toNat * 2
    | .int n _ => wrapInt (signed f.imm.toNat 15) n
  lanes t f x fun _ => v

/-! ### Scratchpad and accumulator access (R141-R143) -/

/-- The SPA of an offset with the WIN and TIX of another (R141). -/
def spaAt (spa : Word) (off : Nat) : Word := BitVec.ofNat 64 (spa.toNat / 0x80000 * 0x80000 + off)

/-- The lowest poisoned unit of an extent that holds one of the offsets. -/
def firstPoison (s : State) (e : Extent) (offs : List Nat) : Option Nat :=
  (spadPoisonIn s e).find? fun u => offs.any fun o => u ≤ o && o < u + 64

/-- Offsets of the bytes of the active elements of a tile at OFF with a pitch. -/
def tileOffsets (t : Thread) (f : Wide) (x : Shape) (off rows : Nat) : List Nat :=
  ((List.range (rows * x.nc)).filter (activeAt t f)).flatMap fun e =>
    (List.range x.w).map fun b => off + e / x.nc * pitchOf f x + e % x.nc * x.w + b

/-- vld (R127, R141). -/
def vldTile (s : State) (c : Cmd) (f : Wide) : CmdOut :=
  let t := s.thr
  let x := shapeOf c.shp
  let rows := vldRows f x
  if !anyActive t f x.n then .tile (.kept f x)
  else match extentAt s t c.g1 (tileExtentLen f x rows) x.w with
    | none => .fault 0x09 c.g1
    | some e =>
      if bankBusy s t c e then .wait
      else match firstPoison s e (tileOffsets t f x e.off rows) with
        | some u => .fault 0x0A (spaAt c.g1 u)
        | none =>
          let bytes := readSpad s e
          let val (k : Nat) : Nat :=
            leNat ((bytes.drop (k / x.nc * pitchOf f x + k % x.nc * x.w)).take x.w)
          .tile { f := f, cols := x.nc, w := x.w, vals := (List.range (rows * x.nc)).map fun k =>
            if activeAt t f k then some (val k) else none }

/-- Bytes of the active elements into a scratchpad; a unit written whole loses its mark (R141). -/
def storeTile (s : State) (e : Extent) (f : Wide) (x : Shape) (vals : List Nat) : State :=
  let t := s.thr
  let on := (List.range x.n).filter (activeAt t f)
  let offs := tileOffsets t f x e.off x.nr
  modTid s e.tid fun w =>
    { w with spad := on.foldl (fun m k => setCells m (e.off + k / x.nc * pitchOf f x + k % x.nc * x.w) (leBytes x.w (elem vals k))) w.spad
             spadPoison := w.spadPoison.filter fun u => !(List.range 64).all fun b => offs.contains (u + b) }

/-- vst (R141). -/
def vstTile (s : State) (c : Cmd) (f : Wide) : CmdOut :=
  let t := s.thr
  let x := shapeOf c.shp
  if !anyActive t f x.n then .done s
  else match extentAt s t c.g1 (tileExtentLen f x x.nr) x.w with
    | none => .fault 0x09 c.g1
    | some e => if bankBusy s t c e then .wait else .done (storeTile s e f x (readTile t f.vb x.nr x.nc x.w))

/-- vldac (R142): the limits were checked at issue. -/
def vldacTile (s : State) (c : Cmd) (f : Wide) : CmdOut :=
  let t := s.thr
  let x := shapeOf c.shp
  let row0 := f.imm.toNat / 128
  let col0 := f.imm.toNat % 128
  let a := nth t.acc f.va.toNat Acc.zero
  if !anyActive t f x.n then .tile (.kept f x)
  else
    let rows := ((List.range x.n).filter (activeAt t f)).map fun e => row0 + e / x.nc
    match a.visPoison.find? fun r => rows.contains r with
    | some r => .fault 0x0A (BitVec.ofNat 64 (f.va.toNat * 256 + r))
    | none => .tile (lanes t f x fun e => (getCell32 a.vis (128 * (row0 + e / x.nc) + col0 + e % x.nc)).toNat)

/-- pst and pld (R143). -/
def pstTile (s : State) (c : Cmd) (f : Wide) : CmdOut :=
  let t := s.thr
  let x := shapeOf c.shp
  match extentAt s t c.g1 ((x.n + 7) / 8) 8 with
  | none => .fault 0x09 c.g1
  | some e => if bankBusy s t c e then .wait else .done (writeSpad s e.tid e.off (predBytes (readP t f.vb.toNat) x.n))

def pldTile (s : State) (c : Cmd) (f : Wide) : CmdOut :=
  let t := s.thr
  let x := shapeOf c.shp
  match extentAt s t c.g1 ((x.n + 7) / 8) 8 with
  | none => .fault 0x09 c.g1
  | some e =>
    if bankBusy s t c e then .wait
    else match (spadPoisonIn s e).head? with
      | some u => .fault 0x0A (spaAt c.g1 u)
      | none =>
        let v := leNat (readSpad s e)
        .done (modThr s fun t => writePred t c f x.n fun k => v.testBit k)

/-! ### Conversion, random words, interpolation (R169-R176) -/

/-- STYPE, SU and SAT of cvt (R168). -/
def cvtSType (f : Wide) : Option Ty := tyOf (f.imm.extractLsb' 11 3) (f.imm.getLsbD 10)
def cvtSat (f : Wide) : Bool := f.imm.getLsbD 9

/-- A floating value rounded to an integer and clamped (R170). -/
def fpToInt (mode : Mode) (n : Nat) (u : Bool) : Fp → Nat
  | .nan => 0
  | .inf neg => wrapInt (if neg then intMin n u else intMax n u) n
  | .fin neg mag e =>
    let m : Int := (roundUnits mode neg mag e 0 : Nat)
    clampInt n u (if neg then -m else m)

/-- One element converted (R169, R170). DEDUCED (log 27): an E5M2 infinity that cvt.e5m2 with SAT = 1 reads as E5M2 becomes the largest
finite value, as R170 and R263 have it for every infinite source of such a conversion; R169 says copied. -/
def convert (src dst : Ty) (mode : Mode) (sat : Bool) (v : Nat) : Nat :=
  match src, dst with
  | .fp f, .fp g =>
    if f = g && !(f = .e5m2 && sat) then tyCanon src v else (decodeFp f v).toBits g mode sat
  | .fp f, .int n u => fpToInt mode n u (decodeFp f v)
  | .int m su, .int n u => clampInt n u (intVal m su v)
  | .int m su, .fp g =>
    let x := intVal m su v
    roundFp g mode sat (decide (x < 0)) x.natAbs 0

/-- A pair that never rounds (R171). -/
def neverRounds (src dst : Ty) : Bool :=
  match src, dst with
  | .int .., .int .. => true
  | .fp f, .fp g => f = g || g = .fp32 || ((g = .bf16 || g = .fp16) && (f = .e4m3 || f = .e5m2))
  | .int n _, .fp g => (g = .fp32 && n != 32) || ((g = .bf16 || g = .fp16) && n == 8)
  | .fp _, .int .. => false

/-- cvt (R169): the source is read and the destination written at their own widths. -/
def cvtTile (t : Thread) (c : Cmd) (f : Wide) : TileOut :=
  let x := shapeOf c.shp
  let src := (cvtSType f).getD (.fp .fp32)
  let dst := (wideType f true)
  let a := readTile t f.va x.nr x.nc (src.bits / 8)
  lanes t f { x with w := dst.bits / 8 } fun e => convert src dst (Mode.ofRnd f.rnd) (cvtSat f) (elem a e)

/-- Stochastic rounding of one element (R172). -/
def stochastic (g : Fmt) (sat : Bool) (v r : Nat) : Nat :=
  match decodeFp .fp32 v with
  | .fin neg mag e =>
    if mag = 0 then g.sign neg
    else
      let q := spacing g mag e
      let (lo, dd) :=
        if q ≤ e then (mag * 2 ^ (e - q).toNat, 0)
        else
          let sh := (q - e).toNat
          (mag / 2 ^ sh, mag % 2 ^ sh * 65536 / 2 ^ sh)
      packFp g .rne sat neg (if 65536 ≤ dd + r then lo + 1 else lo) q
  | x => x.toBits g .rne sat

/-- cvtsr (R172). -/
def cvtsrTile (t : Thread) (c : Cmd) (f : Wide) : TileOut :=
  let x := shapeOf c.shp
  let g : Fmt := match (wideType f true) with | .fp g => g | .int .. => .bf16
  let a := readTile t f.va x.nr x.nc 4
  let b := readTile t f.vb x.nr x.nc 4
  lanes t f { x with w := g.width / 8 } fun e => stochastic g (cvtSat f) (elem a e) (elem b e % 65536)

/-- One round of R173. -/
def rngRound (k0 k1 : Word32) (i : Nat) (p : Word32 × Word32) : Word32 × Word32 :=
  let x := p.1 + (p.2.rotateLeft 5 ^^^ (k0 + BitVec.ofNat 32 (i * 0x61C88647)))
  (x, p.2 ^^^ (x.rotateLeft 11 + (k1 ^^^ BitVec.ofNat 32 (i * 0x2545F491))))

/-- The word of index e (R173). -/
def rngWord (ga gb : Word) (e : Nat) : Word32 :=
  let k0 := ga.extractLsb' 0 32
  let k1 := ga.extractLsb' 32 32
  let p := (List.range 6).foldl (fun p i => rngRound k0 k1 i p) (gb.extractLsb' 0 32 + BitVec.ofNat 32 e, gb.extractLsb' 32 32)
  p.1 ^^^ p.2.rotateLeft 16

/-- rng (R173). -/
def rngTile (t : Thread) (c : Cmd) (f : Wide) : TileOut :=
  lanes t f (shapeOf c.shp) fun e => (rngWord c.g1 c.g2 e).toNat

/-- V(i) and S(i) of a table, widened (R175, R176). -/
def tabV (b : Table) (i : Nat) : Fp := decodeFp .bf16 (getLe b.segs (4 * i) 2)
def tabS (b : Table) (i : Nat) : Fp := decodeFp .bf16 (getLe b.segs (4 * i + 2) 2)

/-- floor of a finite value. -/
def Fp.floor : Fp → Int
  | .fin neg mag e => if 0 ≤ e then finUnits neg mag e 0 else finUnits neg mag e e / (2 ^ (-e).toNat : Nat)
  | _ => 0

/-- tint on one element (R176). -/
def interpolate (b : Table) (g : Fmt) (mode : Mode) (v : Nat) : Nat :=
  let x := decodeFp g v
  if x.isNan then g.nan
  else
    let t := (x.add .rne (decodeFp .fp32 b.lo.toNat).neg).mul (decodeFp .fp32 b.scale.toNat)
    let low := t.lt (.fin false 0 0)
    let high := !t.lt (.fin false b.nseg 0)
    let sel := if low then bitsOf b.ctl.toNat 8 2 else bitsOf b.ctl.toNat 10 2
    let eval (i : Nat) (fr : Fp) : Nat :=
      let r := ((tabS b i).mul fr).add .rne (tabV b i)
      (decodeFp .fp32 (r.toBits .fp32 .rne false)).toBits g mode false
    if low || high then
      if sel = 1 then v
      else if sel = 2 then 0
      else if low then eval 0 (.fin false 0 0) else eval (b.nseg - 1) (.fin false 1 0)
    else
      let i := t.floor
      eval i.toNat (decodeFp .fp32 ((t.add .rne (.fin (decide (0 < i)) i.natAbs 0)).toBits .fp32 .rne false))

/-- tint (R176): an empty table is a format fault. -/
def tintTile (s : State) (c : Cmd) (f : Wide) : CmdOut :=
  let x := shapeOf c.shp
  if !anyActive s.thr f x.n then .tile (.kept f x)
  else if s.thr.table.nseg == 0 then .fault 0x16 c.words
  else
    let g : Fmt := match (wideType f true) with | .fp g => g | .int .. => .fp32
    let t := s.thr
    let a := readTile t f.va x.nr x.nc x.w
    .tile (lanes t f x fun e => interpolate t.table g (Mode.ofRnd f.rnd) (elem a e))

/-- The tests of R175 on a header. -/
def headerBad (h : List Byte) : Bool :=
  let lo := decodeFp .fp32 (leNat (h.take 4))
  let sc := decodeFp .fp32 (leNat ((h.drop 4).take 4))
  let ctl := leNat ((h.drop 8).take 4)
  let finite (x : Fp) : Bool := match x with | .fin .. => true | _ => false
  !finite lo || !finite sc || !(Fp.fin false 0 0).lt sc || bitsOf ctl 10 2 == 3 || bitsOf ctl 8 2 == 3 || bitsOf ctl 12 20 != 0
    || leNat ((h.drop 12).take 4) != 0

/-- tload (R175): its checks in their order. -/
def tloadTile (s : State) (c : Cmd) (f : Wide) : CmdOut :=
  let t := s.thr
  match extentAt s t c.g1 16 16 with
  | none => .fault 0x09 c.g1
  | some e =>
    if bankBusy s t c e then .wait
    else match (spadPoisonIn s e).head? with
      | some u => .fault 0x0A (spaAt c.g1 u)
      | none =>
        let h := readSpad s e
        if headerBad h then .fault 0x16 c.words
        else
          let nseg := leNat ((h.drop 8).take 1) + 1
          match extentAt s t c.g1 (16 + 4 * nseg) 16 with
          | none => .fault 0x09 c.g1
          | some e =>
            if bankBusy s t c e then .wait
            else match (spadPoisonIn s { e with off := e.off + 16, len := 4 * nseg }).head? with
              | some u => .fault 0x0A (spaAt c.g1 u)
              | none =>
                let segs := setCells [] 0 ((readSpad s e).drop 16)
                .done (modThr s fun t => { t with table :=
                  { lo := BitVec.ofNat 32 (leNat (h.take 4)), scale := BitVec.ofNat 32 (leNat ((h.drop 4).take 4))
                    ctl := BitVec.ofNat 32 (leNat ((h.drop 8).take 4)), nseg := nseg, segs := segs } })

/-! ### The engine -/

/-- What a command does when its turn comes. -/
def performVector (s : State) (c : Cmd) : CmdOut :=
  let thr (k : Thread → Thread) : CmdOut := .done (modThr s k)
  let tile (k : Thread → TileOut) : CmdOut := .tile (k s.thr)
  let mode (f : Wide) := Mode.ofRnd f.rnd
  let bits (f : Wide) (u : Bool) := (wideType f u).bits
  match c.i with
  | .vadd f => tile fun t => lanes2 t c f (tyAdd (wideType f true) (mode f))
  | .vsub f => tile fun t => lanes2 t c f (tySub (wideType f true) (mode f))
  | .vmul f => tile fun t => lanes2 t c f (tyMul (wideType f true) (mode f))
  | .vfma f => tile fun t => lanes3 t c f (tyFma (wideType f true) (mode f) false)
  | .vfms f => tile fun t => lanes3 t c f (tyFma (wideType f true) (mode f) true)
  | .vmin f => tile fun t => lanes2 t c f (tyMinMax (wideType f true) false)
  | .vmax f => tile fun t => lanes2 t c f (tyMinMax (wideType f true) true)
  | .vabs f => tile fun t => lanes1 t c f (tyAbs (wideType f true))
  | .vneg f => tile fun t => lanes1 t c f (tyNeg (wideType f true))
  | .vaddsat f => tile fun t => lanes2 t c f (tyAddSat (wideType f true))
  | .vsubsat f => tile fun t => lanes2 t c f (tySubSat (wideType f true))
  | .vceq f => thr fun t => compareTile t c f .eq
  | .vcne f => thr fun t => compareTile t c f .ne
  | .vclt f => thr fun t => compareTile t c f .lt
  | .vcle f => thr fun t => compareTile t c f .le
  | .vcgt f => thr fun t => compareTile t c f .gt
  | .vcge f => thr fun t => compareTile t c f .ge
  | .pand f => thr fun t => predLogic t c f and
  | .por f => thr fun t => predLogic t c f or
  | .pxor f => thr fun t => predLogic t c f xor
  | .pnot f => thr fun t => predLogic t c f fun a _ => !a
  | .pset f => thr fun t => psetTile t c f
  | .vand f => tile fun t => lanes2 t c f Nat.land
  | .vor f => tile fun t => lanes2 t c f Nat.lor
  | .vxor f => tile fun t => lanes2 t c f Nat.xor
  | .vandn f => tile fun t => lanes2 t c f fun a b => a &&& (2 ^ bits f true - 1 - b)
  | .vnot f => tile fun t => lanes1 t c f fun a => 2 ^ bits f true - 1 - a
  | .vshl f => tile fun t => lanes2 t c f (shlElem (bits f true))
  | .vshr f => tile fun t => lanes2 t c f (shrElem (bits f true))
  | .vsra f => tile fun t => lanes2 t c f (sraElem (bits f true))
  | .vshli f => tile fun t => lanes1 t c f fun a => shlElem (bits f false) a f.imm.toNat
  | .vshri f => tile fun t => lanes1 t c f fun a => shrElem (bits f false) a f.imm.toNat
  | .vsrai f => tile fun t => lanes1 t c f fun a => sraElem (bits f false) a f.imm.toNat
  | .vrsumr f => tile fun t => reduce t c f true (fun ty => tyAdd ty (mode f)) fun ty => tySumIdentity ty (mode f)
  | .vrsumc f => tile fun t => reduce t c f false (fun ty => tyAdd ty (mode f)) fun ty => tySumIdentity ty (mode f)
  | .vrmaxr f => tile fun t => reduce t c f true (tyMinMax · true) tyMaxIdentity
  | .vrmaxc f => tile fun t => reduce t c f false (tyMinMax · true) tyMaxIdentity
  | .vrminr f => tile fun t => reduce t c f true (tyMinMax · false) tyMinIdentity
  | .vrminc f => tile fun t => reduce t c f false (tyMinMax · false) tyMinIdentity
  | .vbcast f => tile fun t => bcastTile t c f
  | .vtrans f => tile fun t => transTile t c f
  | .vperm f => tile fun t => permTile t c f
  | .vshuf f => tile fun t => shufTile t c f
  | .vcomp f => thr fun t => compTile t c f
  | .vexpd f => tile fun t => expdTile t c f
  | .vsel f => tile fun t => selTile t c f
  | .vmov f => tile fun t => lanes1 t c f id
  | .vmovi f => tile fun t => moviTile t c f
  | .vld f => vldTile s c f
  | .vst f => vstTile s c f
  | .vldac f => vldacTile s c f
  | .pst f => pstTile s c f
  | .pld f => pldTile s c f
  | .cvt f => tile fun t => cvtTile t c f
  | .cvtsr f => tile fun t => cvtsrTile t c f
  | .rng f => tile fun t => rngTile t c f
  | .tint f => tintTile s c f
  | .tload f => tloadTile s c f
  | _ => .done s

/-- Results that a residue covers: majors 0x30 and 0x33, and cvt, cvtsr, rng and tint (R146, R179). -/
def residueCovers : Instr → Bool
  | .vadd _ | .vsub _ | .vmul _ | .vfma _ | .vfms _ | .vmin _ | .vmax _ | .vabs _ | .vneg _ | .vaddsat _ | .vsubsat _
  | .vrsumr _ | .vrsumc _ | .vrmaxr _ | .vrmaxc _ | .vrminr _ | .vrminc _ | .cvt _ | .cvtsr _ | .rng _ | .tint _ => true
  | _ => false

/-- The bits that flip in a result. -/
def flips (e : CheckErr) (pass col : Nat) : Nat :=
  e.upsets.foldl (fun n u => match u with | .result p k m => if p = pass ∧ k = col then n ^^^ m else n | _ => n) 0

/-- The residue, exponent or sign that is compared differs between the result b and what it should be, a (R272): the exponent and the
sign are compared as they are, the significand by its residue mod 7, and an integer by the residue of its
unsigned bit pattern and nothing else (DESIGN CHOICE, log 66). -/
def residueDiffers (ty : Ty) (a b : Nat) : Bool :=
  match ty with
  | .fp g => a / 2 ^ g.frac != b / 2 ^ g.frac || a % 2 ^ g.frac % 7 != b % 2 ^ g.frac % 7
  | .int .. => a % 7 != b % 7

/-- The results of a tile with the bits that flip. -/
def TileOut.struck (o : TileOut) (e : CheckErr) : TileOut :=
  { o with vals := o.vals.zipIdx.map fun x => x.1.map fun v => v ^^^ flips e 0 x.2 % 2 ^ (8 * o.w) }

/-- Some result fails its check. -/
def TileOut.fails (o b : TileOut) : Bool :=
  (o.vals.zip b.vals).any fun x => match x with
    | (some a, some b) => residueDiffers (wideType o.f true) a b
    | _ => false

/-- A command raises a cause at its boundary: it leaves the queue, later ones do not start (R159), and the cause is raised
with the command (R219, R221, R381). A pending access-stream cause is entered instead, and the command stays (R388). -/
def commandFault (s : State) (c : Cmd) (cause : Byte) (taddr : Word) (drop : Thread → Thread) : State :=
  let check := cause == 0x0B || cause == 0x0C
  let entered := match s.thr.trap with | some q => !deferred s.thr q | none => false
  let kept := entered && !check && !(cause == 0x0A && (s.thr.inRegion || behindMark s.thr .execute (some c)))
  let s := modThr s fun t => settleP { (if kept then t else drop t) with cmdHold := some (t.cmdix, check) }
  raise s .execute cause c.pc taddr (some c)

/-- VECTOR_COMMAND: the head command of a thread's vector queue, when the engine takes it (R144, R146, R272, R324). -/
def execVectorCommand (tid : Nat) (e : CheckErr) (s : State) : Result :=
  .next (onThread s tid fun s =>
    match s.thr.vq with
    | [] => s
    | c :: rest =>
      if vectorChoice s s.thr.core != some s.thr.ctx then s
      else
        let s := ranVector (modThr s settleP)
        let drop (t : Thread) : Thread := { t with vq := rest }
        let done (s : State) : State := modThr s fun t => settleP (bump { t with vq := rest } 0x06 1)
        let checked := s.thr.sys.tstat.pclass != 0
        if checked && e.prompter then commandFault s c 0x0C 0 drop
        else match performVector s c with
          | .wait => s
          | .fault cause ta => commandFault s c cause ta drop
          | .done s => done s
          | .tile o =>
            let b := if residueCovers c.i then o.struck e else o
            if checked && o.fails b then commandFault s c 0x0B 0 drop else done (modThr s fun t => writeTile t c b))

end Sys2Proof.Machine
end

