-- ==== Sys2Proof/Machine/Vector.lean ====
section
/-!
DEFINITION. The 55 vector instructions as they issue (R122-R129, R144): the format codes each accepts and its place in the
vector command queue. What the engine then does with a command is Command.lean's.
-/

namespace Sys2Proof.Machine

/-! ### Type sets of R129 -/

def isALL : Ty → Bool := fun _ => true

def isSignedNUM : Ty → Bool
  | .int _ u => !u
  | t => isFP t

def isMoviType : Ty → Bool
  | .fp .fp32 => true
  | .fp .bf16 => true
  | .fp _ => false
  | .int .. => true

def is32 : Ty → Bool
  | .fp .fp32 => true
  | .int 32 u => !u
  | _ => false

/-- The rows and columns of vldac lie in the accumulator (R142). -/
def vldacFits (f : Wide) (shp : Word) : Bool :=
  decide (f.imm.toNat / 128 + (shapeOf shp).nr ≤ 256) && decide (f.imm.toNat % 128 + (shapeOf shp).nc ≤ 128)

/-! ### Kinds of VD, VA, VB, VC -/

def kVV : Kinds := { d := .vdst, a := .v, b := .unused, c := .unused }
def kVVV : Kinds := { d := .vdst, a := .v, b := .v, c := .unused }
def kVVVV : Kinds := { d := .vdst, a := .v, b := .v, c := .v }
def kPVV : Kinds := { d := .p, a := .v, b := .v, c := .unused }
def kPPP : Kinds := { d := .p, a := .p, b := .p, c := .unused }
def kPP : Kinds := { d := .p, a := .p, b := .unused, c := .unused }
def kPG : Kinds := { d := .p, a := .g, b := .unused, c := .unused }

/-! ### The queued instructions -/

/-- vadd (R129, R130). -/
def execVadd (f : Wide) (s : State) : Result :=
  issueVector .vadd kVVV f (accept f s.thr.shp isNUM true true) s

/-- vsub (R129, R130). -/
def execVsub (f : Wide) (s : State) : Result :=
  issueVector .vsub kVVV f (accept f s.thr.shp isNUM true true) s

/-- vmul (R129, R130). -/
def execVmul (f : Wide) (s : State) : Result :=
  issueVector .vmul kVVV f (accept f s.thr.shp isNUM true true) s

/-- vfma (R129, R130). -/
def execVfma (f : Wide) (s : State) : Result :=
  issueVector .vfma kVVVV f (accept f s.thr.shp isNUM true true) s

/-- vfms (R129, R130). -/
def execVfms (f : Wide) (s : State) : Result :=
  issueVector .vfms kVVVV f (accept f s.thr.shp isNUM true true) s

/-- vmin (R129, R130). -/
def execVmin (f : Wide) (s : State) : Result :=
  issueVector .vmin kVVV f (accept f s.thr.shp isNUM true false) s

/-- vmax (R129, R130). -/
def execVmax (f : Wide) (s : State) : Result :=
  issueVector .vmax kVVV f (accept f s.thr.shp isNUM true false) s

/-- vabs (R129, R130: INT with U = 0 only). -/
def execVabs (f : Wide) (s : State) : Result :=
  issueVector .vabs kVV f (accept f s.thr.shp isSignedNUM true false) s

/-- vneg (R129, R130: INT with U = 0 only). -/
def execVneg (f : Wide) (s : State) : Result :=
  issueVector .vneg kVV f (accept f s.thr.shp isSignedNUM true false) s

/-- vaddsat (R129, R130). -/
def execVaddsat (f : Wide) (s : State) : Result :=
  issueVector .vaddsat kVVV f (accept f s.thr.shp isINT true false) s

/-- vsubsat (R129, R130). -/
def execVsubsat (f : Wide) (s : State) : Result :=
  issueVector .vsubsat kVVV f (accept f s.thr.shp isINT true false) s

/-- vceq (R129, R132). -/
def execVceq (f : Wide) (s : State) : Result :=
  issueVector .vceq kPVV f (accept f s.thr.shp isNUM true false) s

/-- vcne (R129, R132). -/
def execVcne (f : Wide) (s : State) : Result :=
  issueVector .vcne kPVV f (accept f s.thr.shp isNUM true false) s

/-- vclt (R129, R132). -/
def execVclt (f : Wide) (s : State) : Result :=
  issueVector .vclt kPVV f (accept f s.thr.shp isNUM true false) s

/-- vcle (R129, R132). -/
def execVcle (f : Wide) (s : State) : Result :=
  issueVector .vcle kPVV f (accept f s.thr.shp isNUM true false) s

/-- vcgt (R129, R132). -/
def execVcgt (f : Wide) (s : State) : Result :=
  issueVector .vcgt kPVV f (accept f s.thr.shp isNUM true false) s

/-- vcge (R129, R132). -/
def execVcge (f : Wide) (s : State) : Result :=
  issueVector .vcge kPVV f (accept f s.thr.shp isNUM true false) s

/-- pand (R129, R132). -/
def execPand (f : Wide) (s : State) : Result :=
  issueVector .pand kPPP f (accept000 f true) s

/-- por (R129, R132). -/
def execPor (f : Wide) (s : State) : Result :=
  issueVector .por kPPP f (accept000 f true) s

/-- pxor (R129, R132). -/
def execPxor (f : Wide) (s : State) : Result :=
  issueVector .pxor kPPP f (accept000 f true) s

/-- pnot (R129, R132). -/
def execPnot (f : Wide) (s : State) : Result :=
  issueVector .pnot kPP f (accept000 f true) s

/-- pset (R129, R133). -/
def execPset (f : Wide) (s : State) : Result :=
  issueVector .pset kPG f (accept000 f false) s

/-- vand (R129, R134). -/
def execVand (f : Wide) (s : State) : Result :=
  issueVector .vand kVVV f (accept f s.thr.shp isINT true false) s

/-- vor (R129, R134). -/
def execVor (f : Wide) (s : State) : Result :=
  issueVector .vor kVVV f (accept f s.thr.shp isINT true false) s

/-- vxor (R129, R134). -/
def execVxor (f : Wide) (s : State) : Result :=
  issueVector .vxor kVVV f (accept f s.thr.shp isINT true false) s

/-- vandn (R129, R134). -/
def execVandn (f : Wide) (s : State) : Result :=
  issueVector .vandn kVVV f (accept f s.thr.shp isINT true false) s

/-- vnot (R129, R134). -/
def execVnot (f : Wide) (s : State) : Result :=
  issueVector .vnot kVV f (accept f s.thr.shp isINT true false) s

/-- vshl (R129, R134). -/
def execVshl (f : Wide) (s : State) : Result :=
  issueVector .vshl kVVV f (accept f s.thr.shp isINT true false) s

/-- vshr (R129, R134). -/
def execVshr (f : Wide) (s : State) : Result :=
  issueVector .vshr kVVV f (accept f s.thr.shp isINT true false) s

/-- vsra (R129, R134). -/
def execVsra (f : Wide) (s : State) : Result :=
  issueVector .vsra kVVV f (accept f s.thr.shp isINT true false) s

/-- vshli (R129, R134). -/
def execVshli (f : Wide) (s : State) : Result :=
  issueVector .vshli kVV f (accept f s.thr.shp isINT false false) s

/-- vshri (R129, R134). -/
def execVshri (f : Wide) (s : State) : Result :=
  issueVector .vshri kVV f (accept f s.thr.shp isINT false false) s

/-- vsrai (R129, R134). -/
def execVsrai (f : Wide) (s : State) : Result :=
  issueVector .vsrai kVV f (accept f s.thr.shp isINT false false) s

/-- vrsumr (R129, R135). -/
def execVrsumr (f : Wide) (s : State) : Result :=
  issueVector .vrsumr kVV f (accept f s.thr.shp isNUM true true) s

/-- vrsumc (R129, R135). -/
def execVrsumc (f : Wide) (s : State) : Result :=
  issueVector .vrsumc kVV f (accept f s.thr.shp isNUM true true) s

/-- vrmaxr (R129, R135). -/
def execVrmaxr (f : Wide) (s : State) : Result :=
  issueVector .vrmaxr kVV f (accept f s.thr.shp isNUM true false) s

/-- vrmaxc (R129, R135). -/
def execVrmaxc (f : Wide) (s : State) : Result :=
  issueVector .vrmaxc kVV f (accept f s.thr.shp isNUM true false) s

/-- vrminr (R129, R135). -/
def execVrminr (f : Wide) (s : State) : Result :=
  issueVector .vrminr kVV f (accept f s.thr.shp isNUM true false) s

/-- vrminc (R129, R135). -/
def execVrminc (f : Wide) (s : State) : Result :=
  issueVector .vrminc kVV f (accept f s.thr.shp isNUM true false) s

/-- vbcast (R129, R136). -/
def execVbcast (f : Wide) (s : State) : Result :=
  issueVector .vbcast { kVV with a := bcastSrc f } f (accept f s.thr.shp isALL true false) s

/-- vtrans (R129, R137). -/
def execVtrans (f : Wide) (s : State) : Result :=
  issueVector .vtrans kVV f ((accept f s.thr.shp isALL true false) && decide ((shapeOf s.thr.shp).nr * (shapeOf s.thr.shp).w ≤ 512)) s

/-- vperm (R129, R138). -/
def execVperm (f : Wide) (s : State) : Result :=
  issueVector .vperm kVVV f (accept f s.thr.shp isALL true false) s

/-- vshuf (R129, R138). -/
def execVshuf (f : Wide) (s : State) : Result :=
  issueVector .vshuf { kVVV with b := shufSrc f } f ((accept f s.thr.shp isALL true false) && (decide (f.mod.toNat / 2048 = 4) || (shapeOf s.thr.shp).nc % 2 == 0)) s

/-- vcomp (R129, R139). -/
def execVcomp (f : Wide) (s : State) : Result :=
  issueVector .vcomp { kVV with c := .g } f (accept f s.thr.shp isALL true false) s

/-- vexpd (R129, R139). -/
def execVexpd (f : Wide) (s : State) : Result :=
  issueVector .vexpd kVV f (accept f s.thr.shp isALL true false) s

/-- vsel (R129, R140). -/
def execVsel (f : Wide) (s : State) : Result :=
  issueVector .vsel kVVV f (accept f s.thr.shp isALL true false) s

/-- vmov (R129, R136). -/
def execVmov (f : Wide) (s : State) : Result :=
  issueVector .vmov kVV f (accept f s.thr.shp isALL true false) s

/-- vmovi (R129, R136). -/
def execVmovi (f : Wide) (s : State) : Result :=
  issueVector .vmovi { kVV with a := .unused } f (accept f s.thr.shp isMoviType false false) s

/-- vld (R129, R141). -/
def execVld (f : Wide) (s : State) : Result :=
  issueVector .vld { kVV with a := .g } f (accept f s.thr.shp isALL true false) s

/-- vst (R129, R141). -/
def execVst (f : Wide) (s : State) : Result :=
  issueVector .vst { d := .unused, a := .g, b := .v, c := .unused } f (accept f s.thr.shp isALL true false) s

/-- vldac (R129, R142). -/
def execVldac (f : Wide) (s : State) : Result :=
  issueVector .vldac { kVV with a := .a } f ((accept f s.thr.shp is32 false false) && vldacFits f s.thr.shp) s

/-- pst (R129, R143). -/
def execPst (f : Wide) (s : State) : Result :=
  issueVector .pst { d := .unused, a := .g, b := .p, c := .unused } f (accept000 f true) s

/-- pld (R129, R143). -/
def execPld (f : Wide) (s : State) : Result :=
  issueVector .pld kPG f (accept000 f true) s

/-! ### The shape (R124): it changes at issue -/

/-- SHP takes a shape word that is valid; Gd, when the instruction names one, takes the old word. -/
def setShape (s : State) (i : Instr) (new : Word) (d : Option Reg) (ok : Bool) : State :=
  if !ok || bitsOf new.toNat 19 45 != 0 || !shapeValid new then formatFault s i
  else
    let old := s.thr.shp
    let s := match d with | some d => writeReg s d old | none => s
    complete (modThr s fun t => { t with shp := new }) 2

/-- The shape word that IMM15 of shp names. -/
def shpWord (imm : BitVec 15) : Word :=
  BitVec.ofNat 64 (imm.toNat / 8192 * 2 ^ 17 + imm.toNat / 128 % 64 * 512 + imm.toNat % 128)

/-- shp (R124). -/
def execShp (f : Wide) (s : State) : Result :=
  .next (if atLoopEnd s then illegal s (.shp f) else setShape s (.shp f) (shpWord f.imm) none (accept000 f false))

/-- shpr (R124). -/
def execShpr (f : Wide) (s : State) : Result :=
  .next (if atLoopEnd s then illegal s (.shpr f)
    else withRegs s [f.vd.setWidth 5, f.va.setWidth 5] fun s =>
      setShape s (.shpr f) (readReg s (f.va.setWidth 5)) (some (f.vd.setWidth 5)) (accept000 f true))

/-! ### Conversion, random words, interpolation (R167, R168) -/

/-- The wider width of cvt and cvtsr is SHP's (R168). -/
def widerOk (a b : Ty) (shp : Word) : Bool := max a.bits b.bits == 8 * (shapeOf shp).w

def isNarrow : Ty → Bool
  | .fp .e4m3 => true
  | .fp .e5m2 => true
  | _ => false

/-- The format codes of cvt (R168, R171). -/
def cvtOk (f : Wide) (shp : Word) : Bool :=
  match cvtSType f, tyOf f.ty f.u with
  | some src, some dst =>
    (!cvtSat f || isNarrow dst) && (f.rnd == 0 || !neverRounds src dst) && widerOk src dst shp
  | _, _ => false

/-- cvt (R168-R171). -/
def execCvt (f : Wide) (s : State) : Result := issueVector .cvt kVV f (cvtOk f s.thr.shp) s

/-- The format codes of cvtsr (R168). -/
def cvtsrOk (f : Wide) (shp : Word) : Bool :=
  match tyOf f.ty f.u with
  | some (.fp g) => decide (g ≠ .fp32) && f.rnd == 0 && (!cvtSat f || isNarrow (.fp g)) && decide ((shapeOf shp).w = 4)
  | _ => false

/-- cvtsr (R168, R172). -/
def execCvtsr (f : Wide) (s : State) : Result := issueVector .cvtsr kVVV f (cvtsrOk f s.thr.shp) s

/-- rng (R168, R173). -/
def execRng (f : Wide) (s : State) : Result :=
  issueVector .rng { d := .vdst, a := .g, b := .g, c := .unused } f
    (accept f s.thr.shp (fun t => decide (t.bits = 32) && isINT t) true false) s

/-- tint (R168, R176, R177). -/
def execTint (f : Wide) (s : State) : Result :=
  issueVector .tint kVV f (accept f s.thr.shp isFP true true) s true

/-- tload (R168, R175, R177). -/
def execTload (f : Wide) (s : State) : Result :=
  issueVector .tload { d := .unused, a := .g, b := .unused, c := .unused } f (accept000 f true) s true

end Sys2Proof.Machine
end

