-- ==== Sys2Proof/Machine/Matrix.lean ====
section
/-!
DEFINITION. The six matrix instructions as they issue (R150-R154) and MATRIX_COMMAND: weight loads, passes with their
exact sums and checks, poison, clear, swap and status (R152-R166, R260, R261).
-/

namespace Sys2Proof.Machine

/-! ### The latch -/

/-- The latch format of a TYPE of mwld. -/
def latchFmt (ty : BitVec 3) : LatchFmt :=
  match ty.toNat with
  | 1 => .bf16
  | 2 => .fp16
  | 3 => .e4m3
  | 4 => .e5m2
  | 5 => .int8
  | _ => .empty

/-- The types of mwld and mmac (R151). -/
def isWeight : Ty → Bool
  | .fp .fp32 => false
  | .fp _ => true
  | .int n u => n == 8 && !u

/-- Format and bank group of the latch that a later mmac is checked against: the latest mwld or mwldq still queued, else
the latch itself (R152, R154). DESIGN CHOICE (log 27): when an unwind has dropped an unstarted mwld or mwldq, that is again the latch
loaded last, since R166 has the unwind drop the command and restore no matrix state. -/
def latestLatch (t : Thread) : LatchFmt × Bool :=
  let set (c : Cmd) : Option (LatchFmt × Bool) := match c.i with
    | .mwld f => some (latchFmt f.ty, groupY (bitsOf c.g1.toNat 0 19))
    | .mwldq _ => some (.q4, groupY (bitsOf c.g1.toNat 0 19))
    | _ => none
  (t.mq.filterMap set).getLast?.getD (t.latch.fmt, t.latch.groupY)

/-- The activation types that a latched format accepts (R154). -/
def latchAccepts (l : LatchFmt) (ty : BitVec 3) : Bool :=
  match l with
  | .empty => false
  | .e4m3 | .e5m2 | .q4 => ty == 3 || ty == 4
  | .bf16 | .fp16 => ty == 1 || ty == 2
  | .int8 => ty == 5

/-! ### Issue (R150, R151) -/

/-- TYPE, U and RND of mwld and mmac (R151). -/
def weightTypeOk (f : Wide) : Bool :=
  match tyOf f.ty f.u with
  | some t => isWeight t && f.rnd == 0
  | none => false

/-- An instruction of the matrix command queue. -/
def issueMatrix (mk : Wide → Instr) (k : Kinds) (f : Wide) (fmtOk : Bool) (op : Option (Byte × Word)) (s : State)
    (qx : Bool := false) : Result :=
  .next (issueEngine s mk k f qx fmtOk op (queueFree s Config.matrixEntries 2 (·.mq)) fun c t => { t with mq := t.mq ++ [c] })

/-- The range fault of an extent at a G value (R108). -/
def extentFault (s : State) (spa : Word) (len : Nat) : Option (Byte × Word) :=
  if (extentAt s s.thr spa len 64).isNone then some (0x09, spa) else none

def kMat : Kinds := { d := .unused, a := .g, b := .unused, c := .unused }
def kAcc : Kinds := { d := .a, a := .unused, b := .unused, c := .unused }

/-- mwld (R151, R152). -/
def execMwld (f : Wide) (s : State) : Result :=
  issueMatrix .mwld kMat f (weightTypeOk f) (extentFault s (readG s.thr f.va.toNat) 32768) s

/-- mwldq (R151, R153). -/
def execMwldq (f : Wide) (s : State) : Result :=
  issueMatrix .mwldq kMat f (accept000 f true) (extentFault s (readG s.thr f.va.toNat) 16904) s true

/-- mclr (R151, R161). -/
def execMclr (f : Wide) (s : State) : Result := issueMatrix .mclr kAcc f (accept000 f true) none s

/-- mswap (R151, R162). -/
def execMswap (f : Wide) (s : State) : Result := issueMatrix .mswap kAcc f (accept000 f true) none s

/-- mcks (R151, R163). -/
def execMcks (f : Wide) (s : State) : Result := issueMatrix .mcks { kAcc with d := .g } f (accept000 f true) none s

/-- The faults of R154 after the format fault, in the order of the table. -/
def mmacFault (s : State) (spa md : Word) : Option (Byte × Word) :=
  if bitsOf md.toNat 32 32 != 0 || bitsOf md.toNat 16 16 % 64 != 0 || decide (256 < mdRow0 md + mdRows md) then some (0x09, md)
  else match extentFault s spa (mmacLen md) with
    | some x => some x
    | none => if groupY (bitsOf spa.toNat 0 19) == (latestLatch s.thr).2 then some (0x08, spa) else none

/-- mmac (R151, R154). -/
def execMmac (f : Wide) (s : State) : Result :=
  issueMatrix .mmac { d := .a, a := .g, b := .g, c := .unused } f
    (weightTypeOk f && latchAccepts (latestLatch s.thr).1 f.ty)
    (mmacFault s (readG s.thr f.va.toNat) (readG s.thr f.vb.toNat)) s

/-! ### Weights (R152, R153, R260, R261) -/

/-- q4(): the sixteen levels as BF16 patterns (R260). -/
def q4Pattern (code : Nat) : Nat :=
  [0xBF80, 0xBF30, 0xBF08, 0xBED0, 0xBE98, 0xBE48, 0xBDC8, 0x0000, 0x3DA0, 0x3E20, 0x3E70, 0x3EA4, 0x3ED8, 0x3F0C,
    0x3F38, 0x3F80].getD code 0

def q4 (code : Nat) : Fp := decodeFp .bf16 (q4Pattern code)

/-- F: S times c / 255, rounded once to FP32 (R153). The quotient keeps 64 more bits and a sticky bit, which is all that
one rounding to 24 bits can see. -/
def blockFactor (sc : Word32) (c : Nat) : Nat :=
  match decodeFp .fp32 sc.toNat with
  | .nan => Fmt.nan .fp32
  | .inf neg => if c = 0 then Fmt.nan .fp32 else Fmt.sign .fp32 neg + Fmt.inf .fp32
  | .fin neg mag e =>
    let n := mag * c * 2 ^ 64
    roundFp .fp32 .rne false neg (2 * (n / 255) + if n % 255 = 0 then 0 else 1) (e - 65)

/-- The 512 block factors of an extent read by mwldq. -/
def blockFactors (bytes : List Byte) : Cells32 :=
  let tail := bytes.drop 16384
  let s0 := BitVec.ofNat 32 (leNat ((tail.drop 512).take 4))
  let s1 := BitVec.ofNat 32 (leNat ((tail.drop 516).take 4))
  (List.range 512).foldl (fun m b =>
    setCell32 m b (BitVec.ofNat 32 (blockFactor (if b < 256 then s0 else s1) (tail.getD b 0).toNat))) []

/-- The exact value of an element of a TYPE of mmac: an integer counts as a finite number. -/
def matValue (ty : Ty) (v : Nat) : Fp :=
  match ty with
  | .fp f => decodeFp f v
  | .int n u =>
    let x := intVal n u v
    .fin (decide (x < 0)) x.natAbs 0

/-- The element type of a dense latch. -/
def LatchFmt.ty : LatchFmt → Ty
  | .bf16 => .fp .bf16
  | .fp16 => .fp .fp16
  | .e5m2 => .fp .e5m2
  | .int8 => .int 8 false
  | _ => .fp .e4m3

/-- W(k, n), exact (R152, R153, R261). -/
def weight (l : Latch) (k n : Nat) : Fp :=
  match l.fmt with
  | .q4 =>
    let b := (getCell l.bytes (k * 64 + n / 2)).toNat
    (q4 (if n % 2 = 0 then b % 16 else b / 16)).mul (decodeFp .fp32 (getCell32 l.factors (4 * n + k / 64)).toNat)
  | f =>
    let w := f.ty.bits / 8
    matValue f.ty (getLe l.bytes ((k * 128 + n) * w) w)

/-! ### Passes (R155-R160) -/

/-- The exact sum of x(k) times y(k), which -0 begins so that a sum of products that are all -0 is -0. -/
def dotProduct (x : List Fp) (y : Nat → Fp) : Fp := (x.zipIdx).foldl (fun s p => s.add .rne (p.1.mul (y p.2))) (.fin true 0 0)

/-- The exact sum of a list. -/
def sumOf (l : List Fp) : Fp := l.foldl (fun s x => s.add .rne x) (.fin true 0 0)

/-- A value that is struck by changes of delta times 2^exp. -/
def struckBy (x : Fp) (l : List (Int × Int)) : Fp := l.foldl (fun s d => s.add .rne (.fin (decide (d.1 < 0)) d.1.natAbs d.2)) x

/-- W(k, n) as the passes read it: an error in a latched weight changes it (R271). -/
def weightRead (l : Latch) (e : CheckErr) (k n : Nat) : Fp :=
  struckBy (weight l k n) (e.upsets.filterMap fun u => match u with | .weight j m d x => if j = k ∧ m = n then some (d, x) else none | _ => none)

/-- latch.rowsum[k]: the exact sum of the weights of row k (R152, R153). The weights do not change after the load, so that it need
not be held beside them; a team image leaves it out, and an installation computes it again (R391). -/
def rowsum (l : Latch) (k : Nat) : Fp := sumOf ((List.range 128).map (weight l k))

/-- The row sum as the row check reads it. -/
def rowsumRead (l : Latch) (e : CheckErr) (k : Nat) : Fp :=
  struckBy (rowsum l k) (e.upsets.filterMap fun u => match u with | .rowsum j d x => if j = k then some (d, x) else none | _ => none)

/-- s(n) of pass m (R155), as an error may change it (R271). -/
def columnSum (l : Latch) (e : CheckErr) (m : Nat) (a : List Fp) (n : Nat) : Fp :=
  struckBy (dotProduct a fun k => weightRead l e k n)
    (e.upsets.filterMap fun u => match u with | .sum p c d x => if p = m ∧ c = n then some (d, x) else none | _ => none)

/-- The row check of a pass: the sum of s(n) over n equals the sum of a(k) times rowsum(k), both exact (R158, R271). -/
def rowCheck (l : Latch) (e : CheckErr) (a sums : List Fp) : Bool := (sumOf sums).eq (dotProduct a (rowsumRead l e))

/-- The column check of a command: the sum of s(m, n) over its passes equals the sum of c(k) times W(k, n) (R158); an error in a
weight that the passes read changes the first sum only, so that each column of two that cancel in the row sum fails here (R271). -/
def columnCheck (l : Latch) (crow colSums : List Fp) (n : Nat) : Bool :=
  (colSums.getD n .nan).eq (dotProduct crow fun k => weight l k n)

def Fp.isFin : Fp → Bool
  | .fin .. => true
  | _ => false

/-- The add of one column into the working bank (R155, R156), as the pattern written. -/
def accumulate (ty : Ty) (acc : Word32) (s : Fp) : Word32 :=
  match ty with
  | .fp _ => BitVec.ofNat 32 (((decodeFp .fp32 acc.toNat).add .rne s).toBits .fp32 .rne false)
  | .int .. => match s with
    | .fin neg mag e => BitVec.ofNat 32 (clampInt 32 false (signed acc.toNat 32 + finUnits neg mag e 0))
    | _ => acc

/-- Whether the residue of one add is compared: its inputs and its result are finite (R158). -/
def addChecked (ty : Ty) (acc : Word32) (s : Fp) : Bool :=
  match ty with
  | .fp _ => s.isFin && (decodeFp .fp32 acc.toNat).isFin && (decodeFp .fp32 (accumulate ty acc s).toNat).isFin
  | .int .. => true

/-- Where a command stands after some of its passes. -/
structure PassState where
  acc : Acc
  mat : MatStatus
  /-- Columns of which some pass had a sum that is not finite. -/
  skipped : List Nat
  /-- The checksum row c(k), and the sum of s(m, n) over the passes for each n. -/
  crow : List Fp
  colSums : List Fp
  /-- Kind and row of the check that failed. -/
  failed : Option (Nat × Nat)
  passes : Nat

/-- Sums of two lists, element by element. -/
def addLists (a b : List Fp) : List Fp := if a.isEmpty then b else (a.zip b).map fun x => x.1.add .rne x.2

/-- One pass m (R155-R160). -/
def onePass (t : Thread) (ty : Ty) (row0 : Nat) (armed : Bool) (e : CheckErr) (rowBytes : Nat → List Byte) (rowPoison : Nat → Bool)
    (x : PassState) (m : Nat) : PassState :=
  if x.failed.isSome then x
  else
    let w := ty.bits / 8
    let bytes := rowBytes m
    let a := (List.range (256 / w)).map fun k => matValue ty (leNat ((bytes.drop (k * w)).take w))
    let sums := (List.range 128).map (columnSum t.latch e m a)
    let bad := (List.range 128).filter fun n => !(sums.getD n .nan).isFin
    let row := row0 + m
    let old (n : Nat) : Word32 := getCell32 x.acc.work (128 * row + n)
    let add (n : Nat) : Word32 := accumulate ty (old n) (sums.getD n .nan)
    let got (n : Nat) : Word32 := add n ^^^ BitVec.ofNat 32 (flips e m n)
    let acc : Ty := match ty with | .fp _ => .fp .fp32 | .int .. => .int 32 false
    let x := if !armed then { x with passes := x.passes + 1 }
      else
        { x with mat := if bad.isEmpty then { x.mat with passes := x.mat.passes + 1 }
                   else { x.mat with skips := if x.mat.skips = 0xFFFF then 0xFFFF else x.mat.skips + 1 }
                 skipped := bad.foldl insertNat x.skipped, passes := x.passes + 1
                 crow := addLists x.crow a, colSums := addLists x.colSums sums }
    if armed && bad.isEmpty && !rowCheck t.latch e a sums then { x with failed := some (1, row) }
    else if armed && (List.range 128).any (fun n => addChecked ty (old n) (sums.getD n .nan) && residueDiffers acc (add n).toNat (got n).toNat) then
      { x with failed := some (3, row) }
    else
      let work := (List.range 128).foldl (fun b n => setCell32 b (128 * row + n) (got n)) x.acc.work
      { x with acc := { x.acc with work := work
                                   workPoison := if t.latch.poison || rowPoison m then insertNat x.acc.workPoison row else x.acc.workPoison } }

/-- A scratchpad extent of a command whose limits were checked at issue (R150). -/
def withExtent (s : State) (c : Cmd) (spa : Word) (len : Nat) (k : Extent → CmdOut) : CmdOut :=
  match extentAt s s.thr spa len 64 with
  | none => .fault 0x09 spa
  | some x => if bankBusy s s.thr c x then .wait else k x

/-- mmac (R154-R160): the working bank, the status, and the check that failed. -/
def mmacTile (s : State) (c : Cmd) (f : Wide) (e : CheckErr) : CmdOut × State :=
  let t := s.thr
  let md := c.g2
  let ty := wideType f true
  let armed := t.sys.tstat.pclass != 0
  match extentAt s t c.g1 (mmacLen md) 64 with
  | none => (.fault 0x09 c.g1, s)
  | some x =>
    if bankBusy s t c x then (.wait, s)
    else
      let bytes := readSpad s x
      let marks := spadPoisonIn s x
      let row0 := mdRow0 md
      let a := nth t.acc f.vd.toNat Acc.zero
      let start : PassState := { acc := a, mat := t.mat, skipped := [], crow := [], colSums := [], failed := none, passes := 0 }
      let r := (List.range (mdRows md)).foldl (onePass t ty row0 armed e
        (fun m => (bytes.drop (m * mdPitch md)).take 256)
        (fun m => marks.any fun u => x.off + m * mdPitch md < u + 64 && u < x.off + m * mdPitch md + 256)) start
      let mat := if armed && r.failed.isNone && !r.skipped.isEmpty then { r.mat with cskip := true } else r.mat
      let failed := if r.failed.isNone && armed && ((List.range 128).any fun n => !r.skipped.contains n && !columnCheck t.latch r.crow r.colSums n)
        then some (2, row0) else r.failed
      let acc := match failed with
        | none => r.acc
        | some _ => { r.acc with workPoison := (List.range (mdRows md)).foldl (fun l m => insertNat l (row0 + m)) r.acc.workPoison }
      let s := modThr s fun t => bump { t with acc := upd t.acc f.vd.toNat acc, mat := mat } 0x05 r.passes
      match failed with
      | none => (.done s, s)
      | some (kind, row) => (.fault 0x0B (BitVec.ofNat 64 (kind * 65536 + f.vd.toNat * 256 + row)), s)

/-- mwld and mwldq (R152, R153). -/
def loadWeights (s : State) (c : Cmd) (spa : Word) (len : Nat) (fmt : LatchFmt) : CmdOut :=
  withExtent s c spa len fun x =>
    let bytes := readSpad s x
    .done (modThr s fun t => { t with latch :=
      { fmt := fmt, groupY := groupY x.off, poison := !(spadPoisonIn s x).isEmpty
        bytes := setCells [] 0 (if fmt == .q4 then bytes.take 16384 else bytes)
        factors := if fmt == .q4 then blockFactors bytes else [] } })

/-- What a matrix command does when its turn comes; the second state holds what a failing mmac leaves behind. -/
def performMatrix (s : State) (c : Cmd) (e : CheckErr) : CmdOut × State :=
  match c.i with
  | .mwld f => (loadWeights s c c.g1 32768 (latchFmt f.ty), s)
  | .mwldq _ => (loadWeights s c c.g1 16904 .q4, s)
  | .mclr f => (.done (modThr s fun t => { t with acc := modNth t.acc f.vd.toNat fun a => { a with work := [], workPoison := [] } }), s)
  | .mswap f => (.done (modThr s fun t => { t with acc := modNth t.acc f.vd.toNat fun a =>
      { vis := a.work, work := a.vis, visPoison := a.workPoison, workPoison := a.visPoison } }), s)
  | .mcks f => (.done (modThr s fun t =>
      let t' := lateG t c f.vd.toNat (t.mat.bits (t.sys.tstat.pclass != 0))
      if f.imm.getLsbD 0 then { t' with mat := MatStatus.zero } else t'), s)
  | .mmac f => mmacTile s c f e
  | _ => (.done s, s)

/-- MATRIX_COMMAND: the head command of a thread's matrix queue, when the engine takes it (R150, R157-R166, R324). -/
def execMatrixCommand (tid : Nat) (e : CheckErr) (s : State) : Result :=
  .next (onThread s tid fun s =>
    match s.thr.mq with
    | [] => s
    | c :: rest =>
      if matrixChoice s s.thr.core != some s.thr.ctx then s
      else
        let s := ranMatrix s
        let drop (t : Thread) : Thread := { t with mq := rest }
        if s.thr.sys.tstat.pclass != 0 && e.prompter then commandFault s c 0x0C 0 drop
        else match performMatrix s c e with
          | (.wait, _) => s
          | (.fault cause ta, s') => commandFault s' c cause ta drop
          | (.done s', _) => modThr s' fun t => { t with mq := rest }
          | (.tile _, _) => s)

end Sys2Proof.Machine
end

