-- ==== Sys2Proof/Machine/Firmware.lean ====
section
/-!
DEFINITION. What the firmware does for every family of steps: page mappings (R280, R283, R284, R288), messages to the hosts
(R331, R336), completion actions (R336), threads that leave, and engine records that are cancelled (R193, R322, R382).
-/

namespace Sys2Proof.Machine

/-! ### Page mappings -/

/-- The table that entry idx of a table names, made when the entry is not valid. -/
def nextTable (s : State) (p table idx : Nat) : Nat × State :=
  let ea := table + 8 * idx
  let e := getLe s.mem ea 8
  if pteValid e then (pteFrame e, s)
  else
    let (f, s) := takeTable s p
    (f, { s with mem := setCells s.mem ea (leBytes 8 (f + 1)) })

/-- The firmware maps a 4 KiB page: the tables above it are made, and the leaf is written (R280). -/
def mapPage (s : State) (p va leaf : Nat) : State :=
  let (root, s) := if (s.part p).ptRoot == 0 then
      let (f, s) := takeTable s p
      (f, modPart s p fun q => { q with ptRoot := f })
    else ((s.part p).ptRoot, s)
  let (t4, s) := nextTable s p root (bitsOf va 48 9)
  let (t3, s) := nextTable s p t4 (bitsOf va 39 9)
  let (t2, s) := nextTable s p t3 (bitsOf va 30 9)
  let (t1, s) := nextTable s p t2 (bitsOf va 21 9)
  { s with mem := setCells s.mem (t1 + 8 * bitsOf va 12 9) (leBytes 8 leaf) }

/-- A swait that waits on a counter of the range reads it through its new entry: it issues again. -/
def rereadWaits (s : State) (p va len : Nat) : State :=
  let hit (t : Thread) : Bool := t.live && t.part == p && match t.wait with
    | .swait _ ea _ none => decide (va ≤ ea.toNat) && decide (ea.toNat < va + len)
    | _ => false
  let tids := (s.threads.filter hit).map (·.tid)
  tids.foldl (fun s tid => modTid (unarm s tid) tid fun t => { t with wait := .none }) s

/-- Every TLB drops the pages of a partition that touch a range, and no wait uses the old entries (R283). -/
def shootDown (s : State) (p va len : Nat) : State :=
  rereadWaits { s with cores := s.cores.map fun c =>
      if c.owner == some p then { c with tlb := c.tlb.filter fun e => va + len ≤ e.va || e.va + e.size ≤ va } else c } p va len

/-- An access unit of some thread that was translated to an address that f names is still to be performed; a store in a shadow frame is
one until its task commits it (R283, R287, R301). -/
def unitPending (s : State) (f : Nat → Bool) : Bool :=
  (s.threads.any fun t => t.live &&
    (t.qs.loads.any (fun q => f q.pa) || t.qs.saq.any (fun a => f a.pa) || t.qs.xfers.any (fun x => !x.faulted && x.units.any fun u => f u.pa)
      || t.wings.any fun l => f l.unit))
    || s.teams.any fun u => u.rep < 2 && u.shadow.any fun h => h.wrote && f (h.page * 4096)

/-- The firmware rewrites the leaf of one page, when there is one. -/
def setLeaf (s : State) (p va : Nat) (f : Nat → Nat) : State :=
  match walkVA s p va with
  | some (e, ea, _) => { s with mem := setCells s.mem ea (leBytes 8 (f e)) }
  | none => s

/-- Bit k of an entry set or cleared. -/
def withBit (e k : Nat) (b : Bool) : Nat := e / 2 ^ (k + 1) * 2 ^ (k + 1) + bitAt b k + e % 2 ^ k

/-- The pages of a range, one address in each. -/
def pagesOf (va len : Nat) : List Nat := (List.range ((va + len + 4095) / 4096 - va / 4096)).map fun i => (va / 4096 + i) * 4096

/-- The firmware maps a zeroed frame at a demand-mapped address, when the quota holds one (R284). None: it cannot. -/
def demandMap (s : State) (p va : Nat) : Option State :=
  if (s.part p).demand.any (fun r => r.1 ≤ va && va < r.1 + r.2) && 1 ≤ freeQuota s p && (walkVA s p va).isNone then
    let (f, s) := takeFor s p
    some (mapPage s p va (f + 0x8F))
  else none

/-- A frame is copied ahead of the others of its commit, and may be written again; a poisoned unit makes the commit fail (R406,
R407). -/
def copyFrame (s : State) (pa : Nat) : State :=
  let f := pa / 4096 * 4096
  let bad := s.poison.any fun u => f ≤ u && u < f + 4096
  { s with parts := s.parts.map fun q => { q with domain := q.domain.map fun d => { d with commit := d.commit.map fun c =>
      if (c.todo.any fun g => d.granules.getD g 0 ≤ pa && pa < d.granules.getD g 0 + 0x200000) then
        { c with copied := insertNat c.copied f, poisoned := c.poisoned || bad }
      else c } } }

/-- A write to a page that a commit has write-protected has its frame copied first (R284, R406). None: the page is not one. -/
def copyOnTouch (s : State) (p : Nat) (k : Kind) (va : Nat) : Option State :=
  match k, walkVA s p va with
  | .store, some (e, _, size) => if leafAllows e .store && writeProtected s (leafPA e size va) then some (copyFrame s (leafPA e size va)) else none
  | _, _ => none

/-- The firmware's stagehands copy the next granule of a commit (R406). -/
def copyGranule (s : State) : State :=
  match (List.range 8).find? fun p => match (s.part p).domain.bind (·.commit) with | some c => !c.todo.isEmpty | none => false with
  | none => s
  | some p =>
    modPart s p fun q => { q with domain := q.domain.map fun d => { d with commit := d.commit.map fun c =>
      match c.todo with
      | [] => c
      | g :: rest =>
        let b := d.granules.getD g 0
        { c with todo := rest, poisoned := c.poisoned || (s.poison.any fun u => b ≤ u && u < b + 0x200000 && !c.copied.contains (u / 4096 * 4096))
                 copied := c.copied.filter fun f => f < b || b + 0x200000 ≤ f } } }

/-- The page is mapped for this kind of access: what faulted on it can go on (R383, R384). -/
def mappedFor (s : State) (p : Nat) (k : Kind) (va : Nat) : Bool :=
  match walkVA s p va with
  | some (e, _, size) => leafAllows e k && !(k == .store && writeProtected s (leafPA e size va))
  | none => false

/-- A page fault that the memory firmware resolves: another fault has had the page mapped, or copied, before; a demand mapping; or the copy
of a write-protected frame (R284, R383). -/
def resolveFault (s : State) (p : Nat) (k : Kind) (va : Nat) : Option State :=
  if mappedFor s p k va then some s
  else match demandMap s p va with
    | some s => some s
    | none => copyOnTouch s p k va

/-- An address of a partition as its page table stands; a store sets DIRTY (R285). -/
def reachNow (s : State) (p : Nat) (k : Kind) (va size : Nat) : Option (Nat × State) :=
  match translatePart s p k va size with
  | .ok pa pte => some (pa, match k with | .store => setDirty s pte | .load => s)
  | _ => none

/-- An address of a partition as firmware reaches it, after demand mapping (R284). Whoever finds none logs a malformed entry (R281). -/
def reach (s : State) (p : Nat) (k : Kind) (va size : Nat) : Option (Nat × State) :=
  match reachNow s p k va size with
  | some r => some r
  | none => match resolveFault (logMalformed s p va) p k va with
    | none => none
    | some s => reachNow s p k va size

/-- Bytes of a virtual range, piece by piece within pages: the first address that cannot be reached, or the bytes. -/
def readVirt (s : State) (p : Nat) : Nat → Nat → Nat → Except Nat (List Byte × State)
  | 0, _, _ => .ok ([], s)
  | fuel + 1, va, len =>
    if len == 0 then .ok ([], s)
    else
      let n := min len (4096 - va % 4096)
      match reach s p .load va n with
      | none => .error va
      | some (pa, s) => match readVirt s p fuel (va + n) (len - n) with
        | .error a => .error a
        | .ok (r, s) => .ok (readPhys s pa n ++ r, s)

/-- Bytes of a virtual range, for ranges up to 16 MiB. -/
def readRange (s : State) (p va len : Nat) : Except Nat (List Byte × State) := readVirt s p (len / 4096 + 2) va len

/-- Bytes written to a virtual range unit by unit (R290): how many were written, and the state; all of them, or up to the
first unit that cannot be reached. -/
def writeVirt (s : State) (p : Nat) : Nat → Nat → List Byte → Nat → Nat × State
  | 0, _, _, done => (done, s)
  | fuel + 1, va, bs, done =>
    if bs.isEmpty then (done, s)
    else
      let n := min bs.length (64 - va % 64)
      match reach s p .store va n with
      | none => (done, logMalformed s p va)
      | some (pa, s) => writeVirt (writePhys s (some p) pa (bs.take n)) p fuel (va + n) (bs.drop n) (done + n)

def writeRange (s : State) (p va : Nat) (bs : List Byte) : Nat × State := writeVirt s p (bs.length / 64 + 2) va bs 0

/-- The frame of a page that is mapped. -/
def frameOf (s : State) (p va : Nat) : Option Nat :=
  match walkVA s p va with
  | some (e, _, size) => some (leafPA e size va / 4096 * 4096)
  | none => none

/-- The pages that hold the copies of an image: its code sections and its data (R67, R74). -/
def imagePages (k : KImage) : List Nat :=
  [(k.abase, k.acode.length), (k.ebase, k.ecode.length), (k.dbase, k.dlen)].flatMap fun x => if x.2 == 0 then [] else pagesOf x.1 x.2

/-- The copies of an image are released when no entry of the image table and no task uses them (R74): its pages leave the page
table, and its frames wait for zeros. -/
def releaseCopy (s : State) (p : Nat) (k : KImage) : State :=
  let used (x : KImage) : Bool := x.abase == k.abase
  if s.images.any (fun e => e.part == p && used e.img) || s.tasks.any (fun t => t.part == p && used t.img)
      || (match s.troupe with | some t => t.parts.any (fun x => x.1.part == p && used x.1.img) | none => false) then s
  else
    let pages := imagePages k
    let fs := pages.filterMap (frameOf s p)
    let s := shootDown (pages.foldl (fun s a => setLeaf s p a fun _ => 0) s) p k.abase (k.dbase + k.dlen - k.abase)
    let s := modPart s p fun q => { q with usedFrames := q.usedFrames - fs.length, frames := q.frames.filter fun f => !fs.contains f }
    { s with zeroing := s.zeroing ++ fs.map fun f => (f, 4096) }

/-- A write that a commit in stop mode holds back (R406). -/
def rangeHeld (s : State) (p va len : Nat) : Bool :=
  s.parts.toList.any (fun q => match q.domain with | some d => !d.held.isEmpty | none => false) && (pagesOf va len).any fun a =>
    match translatePart s p .store a 1 with
    | .ok pa _ => commitHolds s (pa / 4096 * 4096) 4096
    | _ => false

/-! ### Messages to a host -/

/-- A connection is rewritten. -/
def modConn (s : State) (id : Nat) (f : Conn → Conn) : State :=
  { s with conns := s.conns.map fun c => if c.id == id then f c else c }

/-- The ingress filter is powered and no reset holds it (R344, R353, R354, R416). -/
def filterOn (s : State) : Bool := s.mod.power != .ps3 && !s.mod.inReset && !s.mod.tripped && s.mod.portOpen

/-- NAK: reason 1 ORDER, 2 FULL, 3 NOCONN. -/
def sendNak (s : State) (port chan : Nat) (node : Word) (apsn : Word32) (reason retry : Nat) : State :=
  let (n, s) := fresh s
  send s (.clovo port 3 chan 0 apsn (Config.window n) retry reason s.mod.cfg.node node [])

/-- A DATA message of a connection as it leaves. -/
def Conn.dataOut (c : Conn) (src : Word) (m : Word32 × Payload) : Out :=
  match m.2 with
  | .bytes l => .clovo c.port 1 c.chan m.1 (c.rx - 1) 0 0 0 src c.node l
  | .peer x => .peer c.port c.chan m.1 src c.node x

/-- The DATA messages from index i on, as far as the window lets them go (R332). -/
def transmit (s : State) (id i : Nat) : State :=
  match s.conns.find? (fun c => c.id == id) with
  | none => s
  | some c =>
    if !c.isOpen || s.mod.time < c.holdUntil then s
    else
      let n := min c.win c.unacked.length
      let s := ((c.unacked.take n).drop i).foldl (fun s m => send s (c.dataOut s.mod.cfg.node m)) s
      modConn s id fun c => { c with flight := max n i, sentAt := s.mod.time }

/-- The device sends a DATA message on a connection: it keeps it until it is acknowledged, and it leaves at once when the
window allows (R331, R332). -/
def sendData (s : State) (id : Nat) (payload : Payload) : State :=
  match s.conns.find? (fun c => c.id == id) with
  | none => s
  | some c =>
    let s := modConn s id fun c => { c with tx := c.tx + 1, unacked := c.unacked ++ [(c.tx, payload)] }
    if c.flight < c.win then transmit s id c.flight else s

/-- A REPLY message to the host of a COMMAND connection (R330, R336). -/
def replyTo (s : State) (conn : Nat) (payload : List Byte) : State :=
  match s.conns.find? (fun c => c.id == conn) with
  | none => s
  | some c => match s.conns.find? (fun r => r.node == c.node && r.chan == 1 && !r.lost) with
    | none => s
    | some r => sendData s r.id (.bytes payload)

/-- A connection as it starts (R330). -/
def freshConn (id port : Nat) (node : Word) (chan : Nat) (isOpen : Bool) (win : Nat) : Conn :=
  { id := id, port := port, node := node, chan := chan, isOpen := isOpen, closing := false, lost := false, rx := 0, tx := 0
    unacked := [], flight := 0, win := win, owed := 0, tries := 0, sentAt := 0, holdUntil := 0, refuseUntil := 0, dataDue := 0, dataRec := none }

/-- The connection of a (node, channel) starts anew with PSN 0 in both directions; it keeps its number, and while it is being opened the
messages that wait for it (R330). -/
def startConn (s : State) (port : Nat) (node : Word) (chan : Nat) (isOpen : Bool) (win : Nat) : State :=
  match s.conns.find? (fun c => c.node == node && c.chan == chan) with
  | some c => modConn s c.id fun c =>
    if c.isOpen || c.lost || c.closing then freshConn c.id port node chan isOpen win
    else { freshConn c.id port node chan isOpen win with tx := c.tx, unacked := c.unacked }
  | none => { s with conns := s.conns ++ [freshConn s.nextId port node chan isOpen win], nextId := s.nextId + 1 }

/-- The device opens a connection: OPEN leaves, and the connection waits for OPENACK; on REPLICA it carries the power-feed
identity (R330, R412). -/
def openTo (s : State) (port : Nat) (node : Word) (chan : Nat) : State :=
  send (startConn s port node chan false 0) (.clovo port 4 chan 0 0 0 0 0 s.mod.cfg.node node (if chan == 3 then leBytes 8 s.mod.cfg.feed.toNat else []))

/-- A message to a peer goes over the connection of its node and channel; where none is open or being opened, the device opens one through
the port (R330-R332, log 19). -/
def sendPeer (s : State) (port : Nat) (node : Word) (chan : Nat) (x : PeerMsg) : State :=
  let live (c : Conn) : Bool := c.node == node && c.chan == chan && !c.lost && !c.closing
  let s := if s.conns.any live then s else openTo s port node chan
  match s.conns.find? live with
  | some c => sendData s c.id (.peer x)
  | none => s

/-- The reply header (R336). -/
def replyHeader (rkind part queue : Nat) : List Byte :=
  [BitVec.ofNat 8 rkind, BitVec.ofNat 8 part, BitVec.ofNat 8 queue, 0, 0, 0, 0, 0]

/-! ### Records and their completion (R192, R333, R336) -/

/-- A little-endian field of a record. -/
def fieldOf (raw : List Byte) (off n : Nat) : Nat := leNat ((raw.drop off).take n)

def rKind (raw : List Byte) : Nat := fieldOf raw 0 1
def rPart (raw : List Byte) : Nat := fieldOf raw 1 1
def rQueue (raw : List Byte) : Nat := fieldOf raw 2 1
def rFlag (raw : List Byte) (k : Nat) : Bool := (fieldOf raw 3 1).testBit k
def rTag (raw : List Byte) : Nat := fieldOf raw 4 2

/-- The status a record completes with. -/
structure Status where
  code : Nat
  detail : Nat
  bytes : Nat
  faddr : Nat
  deriving DecidableEq, Repr

def Status.done : Status := { code := 1, detail := 0, bytes := 0, faddr := 0 }
def Status.fault (a : Nat) : Status := { code := 2, detail := 0, bytes := 0, faddr := a }
def Status.refused (r : Nat) : Status := { code := 0x0C, detail := r, bytes := 0, faddr := 0 }
def Status.rejected (d : Nat) : Status := { code := 0x0D, detail := d, bytes := 0, faddr := 0 }
def Status.cancelled : Status := { code := 8, detail := 0, bytes := 0, faddr := 0 }

def Status.word (st : Status) (raw : List Byte) : List Byte :=
  statusWord st.code (rKind raw) (rTag raw) st.detail st.bytes st.faddr

/-- SEMINC is added at SEMA as one far-atomic step (R193, R336). -/
def addVirt (s : State) (p va : Nat) (v : Word) : State :=
  match reach s p .store va 8 with
  | some (pa, s) => addDword s p pa v
  | none => logError (logMalformed s p va) va

/-- The completion actions of a record, in their order (R336): status word, semaphore, NOTE. An address that does not
translate is logged. -/
def completionActions (s : State) (raw : List Byte) (conn : Nat) (st : Status) : State :=
  let p := rPart raw
  let s := if rFlag raw 1 then
      let (n, s) := writeRange s p (fieldOf raw 0x18 8) (st.word raw)
      if n == 32 then s else logError s (fieldOf raw 0x18 8)
    else s
  let s := if rFlag raw 0 then addVirt s p (fieldOf raw 8 8) (BitVec.ofNat 64 (fieldOf raw 0x10 8)) else s
  if rFlag raw 2 then replyTo s conn (replyHeader 1 p (rQueue raw) ++ st.word raw) else s

/-- A completion action of the record would write where a commit holds writes back (R406). -/
def actionsHeld (s : State) (raw : List Byte) : Bool :=
  (rFlag raw 1 && rangeHeld s (rPart raw) (fieldOf raw 0x18 8) 32) || (rFlag raw 0 && rangeHeld s (rPart raw) (fieldOf raw 8 8) 8)

/-- A command record completes: its actions, and it leaves the front end (R336). -/
def finishRec (s : State) (id : Nat) (st : Status) : State :=
  match s.recs.find? (fun r => r.id == id) with
  | none => s
  | some r => completionActions { s with recs := s.recs.filter fun r => r.id != id } r.raw r.conn st

/-- A RESULT message: reply header, status word, data (R336). -/
def resultTo (s : State) (r : HRec) (st : Status) (data : List Byte) : State :=
  replyTo s r.conn (replyHeader 3 (rPart r.raw) (rQueue r.raw) ++ st.word r.raw ++ data)

/-! ### Messages that arrive (R327-R332) -/

/-- A message that the filter looks at: version, reserved bits, destination (R329). -/
def clovoSound (s : State) (m : Clovo) : Bool := m.ver == 1 && m.flags.toNat / 2 % 8 == 0 && m.dst == s.mod.cfg.node

/-- The port's role lists the channel (R327). -/
def portTakes (m : Clovo) : Bool := if m.port == 0 then m.chan < 2 else m.port ≤ 8 && (m.chan == 2 || m.chan == 3)

def dropFrame (s : State) : State := { s with mod := { s.mod with dropped := s.mod.dropped + 1 } }

/-- The gate of every Clovo message. -/
def clovoIn (s : State) (m : Clovo) (k : State → State) : Result :=
  .next (if !filterOn s then s else if !portTakes m then dropFrame s else if !clovoSound s m then s else k s)

/-- The open connection of a message (R330). -/
def connOf (s : State) (m : Clovo) : Option Conn :=
  s.conns.find? fun c => c.node == m.src && c.chan == m.chan && c.isOpen

/-- ACK of all that has been delivered (R331). -/
def sendAck (s : State) (c : Conn) : State :=
  let (n, s) := fresh s
  modConn (send s (.clovo c.port 2 c.chan 0 (c.rx - 1) (Config.window n) 0 0 s.mod.cfg.node c.node [])) c.id fun c => { c with owed := 0 }

/-- Bytes of the ingress buffer in use: the records held there, and the data of a HOST_COPY that has not been moved yet (R339, R345). -/
def bufferUsed (s : State) : Nat :=
  s.recs.foldl (fun n r => n + match r.status with
    | .buffered => 128 + r.data.length
    | _ => if rKind r.raw == 0x05 then r.data.length else 0) 0

/-- The ingress buffer has no room: for what a COMMAND message has brought, or for any message of a peer (R332, R345). -/
def bufferFull (m : Clovo) (t : State) : Bool := if m.chan == 0 then 2 ^ 20 < bufferUsed t else 2 ^ 20 ≤ bufferUsed t

/-- A DATA message: delivered in PSN order, with the effect k; dropped with an ACK, answered NAK ORDER, or refused with NAK FULL; NAK NOCONN
on an unopened connection (R330-R332). -/
def dataIn (m : Clovo) (s : State) (k : Conn → State → State) : Result :=
  clovoIn s m fun s =>
    match connOf s m with
    | none => sendNak s m.port m.chan m.src 0 3 0
    | some c =>
      if m.psn == c.rx then
        let t := k c s
        if s.mod.time < c.refuseUntil || bufferFull m t then
          let (n, s) := fresh s
          let retry := min (10 + Config.retryExtra n) 65535
          sendNak (modConn s c.id fun c => { c with refuseUntil := s.mod.time + 1400 * retry }) m.port m.chan m.src (c.rx - 1) 2 retry
        else
          let t := modConn t c.id fun c => { c with rx := c.rx + 1, owed := c.owed + 1 }
          match t.conns.find? (fun x => x.id == c.id) with
          | some c => if 16 ≤ c.owed then sendAck t c else t
          | none => t
      else if (m.psn - c.rx).msb then sendAck s c
      else sendNak s m.port m.chan m.src (c.rx - 1) 1 0

/-! ### Threads and records that leave -/

/-- Threads leave the module's contexts. -/
def dropThreads (s : State) (f : Thread → Bool) : State :=
  { s with thr := if f s.thr then Thread.blank else s.thr, others := s.others.filter fun t => !f t }

/-- Threads leave every ensemble they belong to (R31); the memberships of a P2 pair are one (R204). -/
def leaveAll (s : State) (m : Nat × Nat × Nat) : State :=
  (s.ensembles.filter fun e => e.has m).foldl (fun s e => leaveEnsemble s e.slot m) s

/-- The completion actions of an engine record (R192, R193, R199): status word, semaphore add, user-level interrupt; the
record gives its place free. -/
def completeEngine (s : State) (r : EngRec) (code detail bytes faddr : Nat) : State :=
  let w := r.words
  let p := r.part
  let words := statusWord code (recKind w) (recTag w) detail bytes faddr
  let s := { s with eng := s.eng.map fun x => if x.id == r.id then { x with status := .done, code := code, detail := detail, bytes := bytes } else x }
  let s := if recSwe w then
      let (n, s) := writeRange s p (recDword w 7) words
      if n == 32 then s else logError s (recDword w 7)
    else s
  let s := if recSeme w then addVirt s p (recDword w 5) (w.getD 6 0) else s
  let s := if recUli w then
      let u : Uli := { status := BitVec.ofNat 64 (leNat (words.take 8)), bytes := BitVec.ofNat 64 bytes, engine := r.eng }
      mapThreads s fun x =>
        if (x.task, x.teamIx, x.thrIx) == r.owner && x.live && !x.ended && (x.sys.tstat.pclass == 2 || x.tid == r.tid) then
          (if x.uli.length < 16 then { x with uli := x.uli ++ [u] } else { x with ovf := true })
        else x
    else s
  { s with eng := s.eng.filter fun x => x.id != r.id }

/-- An engine has taken the record (R192, R392). -/
def EngRec.begun (r : EngRec) : Bool := r.status == .running || r.started

/-- Engine records of a task that have not started end CANCELLED, and RECORD_COMPLETION takes their completion actions; those that have
started run on, and held ones vanish (R193, R322, R362, R382). -/
def cancelRecords (s : State) (task : Nat) : State :=
  let mine (r : EngRec) : Bool := r.owner.1 == task
  let held (r : EngRec) : Bool := mine r && r.status == EngStatus.held
  let back (r : EngRec) : EngRec := if mine r && r.begun && r.status == EngStatus.imaged then { r with status := .queued } else r
  let idle (r : EngRec) : Bool := mine r && !r.begun && (r.status == EngStatus.queued || r.status == EngStatus.imaged)
  let ends (r : EngRec) : EngRec := if idle r then { r with status := .done, code := 8, detail := 0, bytes := 0 } else r
  { s with eng := ((s.eng.filter fun r => !held r).map back).map ends }

/-- A task that ends CHECKFAIL discards its records that have not started, without their completion actions (R370). -/
def discardRecords (s : State) (task : Nat) : State :=
  let idle (r : EngRec) : Bool := r.owner.1 == task && !r.begun && r.status != .running && r.status != .done
  let back (r : EngRec) : EngRec := if r.owner.1 == task && r.status == .imaged then { r with status := .queued } else r
  { s with eng := (s.eng.filter fun r => !idle r).map back }

/-- The room of a core or chiplet changed, or something else after which the Stage Manager looks again (R309, R317). -/
def roomChanged (s : State) (p : Nat) : State := wantDispatch (raiseFaults s p) p

end Sys2Proof.Machine
end

