-- ==== Sys2Proof/Machine/Threads.lean ====
section
/-!
DEFINITION. Events of a thread and of its team and task: QUEUE_PROTOCOL_ERROR, TRAP_ENTRY, PAGE_WALK, PAGE_FAULT_RESOLVE,
THREAD_END, TEAM_END and TASK_END (R26, R28, R31, R119, R219, R280-R285, R336, R362, R367, R370, R382-R383).
-/

namespace Sys2Proof.Machine

/-! ### Who may issue -/

/-- An instruction of the stream has had an effect that cannot be withdrawn: the pair has performed its request, or its agreement point
has agreed. It completes before its stream stops (R121, R236, R386). -/
def midway (t : Thread) (st : Stream) : Bool :=
  match st with
  | .execute => t.pairRes.isSome || (t.wait == .agreed && !t.ex.ended)
  | .access => t.axRes.isSome

/-- The barrier at which the thread waits has completed (R203). -/
def released (s : State) (t : Thread) (st : Stream) : Bool :=
  st == .execute && match t.wait with | .ebar h n => barrierDone s t h n | _ => false

/-- The team lets its threads issue: it is resident and no debugger holds it, but for the stream that a STEP releases, for what is
midway, and for an ebar whose barrier has completed (R400). -/
def teamIssues (s : State) (t : Thread) (st : Stream) : Bool :=
  match findTeam s t.team with
  | some u => (u.status == .resident && (!u.dbgHalt || t.stepping == some st || released s t st)) || ((u.status == .resident || u.status == .stopping) && midway t st)
  | none => false

/-- A stream may issue its next instruction (R20, R28, R119, R219, R282, R284, R386, R399). -/
def mayIssue (s : State) (t : Thread) (st : Stream) : Bool :=
  let x := t.st st
  t.live && t.resident && !t.ended && !t.halted && !x.ended && !x.stopped
    && t.walk.all (fun f => f.stream != st) && t.pf.all (fun f => f.stream != st)
    && (match st with | .execute => t.dueEx.isNone | .access => t.trap.isNone)
    && teamIssues s t st

/-- The team of the thread stops (R385). -/
def teamStops (s : State) (t : Thread) : Bool :=
  match findTeam s t.team with
  | some u => u.status == .stopping
  | none => false

/-- A stream has stopped issuing as R119 lists it: it waits in one of the places listed, has ended, or stands still because the
other runs the handler or a stop has reached the team (R388). -/
def stoppedAt (s : State) (t : Thread) (st : Stream) : Bool :=
  let x := t.st st
  x.ended || x.stopped || x.stall == .queue || x.stall == .listed || (st == .execute && t.dueEx.isSome) || teamStops s t

/-! ### R26 and trap entry -/

/-- A queue protocol error on a thread that no instruction raises: on the execute stream, or on the access stream when the
execute stream has ended (R26). -/
def raiseProtocol (s : State) : State :=
  let st : Stream := if s.thr.ex.ended then .access else .execute
  raise s st 0x10 (s.thr.st st).pc 0

/-- QUEUE_PROTOCOL_ERROR: the deadlock of R26 has lasted its C-cycles (log 6). -/
def execQueueProtocolError (tid : Nat) (s : State) : Result :=
  .next (onThread s tid fun s =>
    let t := s.thr
    if Config.protocolCycles ≤ t.stallCount && deadlocked t && t.live && t.resident && !t.halted && !t.countOff && teamIssues s t .execute
        && !debugHeld s t then raiseProtocol s else s)

/-- The pair of the mark before a deferred cause cannot form any more: the execute stream stands on a queue that the access stream
alone could serve (R119, R223, log 59). -/
def pairStuck (t : Thread) : Bool := (t.ex.ended || t.ex.stall == .queue) && !t.inFlight

/-- The pair of the cro before a deferred cause of the execute stream cannot form any more (log 59). -/
def croStuck (t : Thread) : Bool := (t.ax.ended || t.ax.stall == .queue) && !t.inFlight && t.trap.isNone

/-- TRAP_ENTRY: an access-stream cause is entered once the execute stream has stopped (R119, R219). A cause that waits for a pair that
cannot form is raised as it is outside a region (R223, R361). -/
def execTrapEntry (tid : Nat) (s : State) : Result :=
  .next (onThread s tid fun s =>
    match s.thr.trap with
    | some q =>
      if s.thr.ax.stopped || !stoppedAt s s.thr .execute || (deferred s.thr q && !pairStuck s.thr) then s
      else if q.cause == 0x0B || q.cause == 0x0C then failOutside (modThr s fun t => { t with trap := none }) .access q.cause q.tpc q.taddr
      else enterTrap s .access q.cause q.tpc q.taddr
    | none => match s.thr.dueEx with
      | some q => if croStuck s.thr then failOutside (modThr s fun t => { t with dueEx := none }) .execute q.cause q.tpc q.taddr else s
      | none => s)


/-! ### Translation (R280-R285) -/

/-- PAGE_WALK: the walk of the oldest miss ends in a TLB entry or in a page fault; a second miss of the stream to the page
performs no walk of its own (R280-R282). -/
def execPageWalk (tid : Nat) (s : State) : Result :=
  .next (onThread s tid fun s =>
    match s.thr.walk with
    | [] => s
    | w :: rest =>
      let same (f : PageFault) : Bool := f.stream == w.stream && f.ea.toNat / 4096 == w.ea.toNat / 4096
      let s := modThr s fun t => { t with walk := rest.filter fun f => !same f }
      let va := w.ea.toNat
      match walkEntry s s.thr.part va (if w.store then .store else .load) with
      | none => logMalformed (modThr s fun t => { t with pf := t.pf ++ [w] }) s.thr.part va
      | some e => installTlb s s.thr.core e)

/-- PAGE_FAULT_RESOLVE: the memory firmware maps the page and the stream issues again, or the thread enters the handler
(R284, R383). -/
def execPageFaultResolve (tid : Nat) (s : State) : Result :=
  .next (onThread s tid fun s =>
    match s.thr.pf with
    | [] => s
    | f :: rest =>
      let s := modThr s fun t => { t with pf := rest }
      match resolveFault s s.thr.part (if f.store then .store else .load) f.ea.toNat with
      | some s => s
      | none => raise s f.stream f.cause (s.thr.st f.stream).pc f.ea)

/-! ### The end of a thread (R28, R31, R107) -/

/-- Both streams have ended and nothing of the thread is still to be performed. -/
def threadDone (t : Thread) : Bool :=
  t.live && !t.ended && !t.halted && t.ex.ended && t.ax.ended && t.vq.isEmpty && t.mq.isEmpty && t.qs.loads.isEmpty
    && t.qs.xfers.all (·.faulted) && !t.storeDue && t.trap.isNone && t.walk.isEmpty && t.pf.isEmpty
    && (t.late.isEmpty || t.sys.tstat.pclass == 2)

/-- Some queue holds an entry, or a mark is not paired. -/
def queuesHold (t : Thread) : Bool :=
  t.qs.ldq.toList.any (fun q => !q.isEmpty) || !t.qs.saq.isEmpty || !t.qs.sdq.isEmpty || !t.qs.bq.isEmpty || !t.qs.xq.isEmpty
    || !t.ex.marks.isEmpty || !t.ax.marks.isEmpty

/-- The other replica of a pair has ended its copy of the thread, or there is none. -/
def twinEnded (s : State) (t : Thread) : Bool :=
  match twinOf s t with
  | some w => w.ended
  | none => true

/-- The thread has ended: its locks, its Wings lines and its pending interrupts are gone, and it leaves its ensembles; a
P2 pair leaves them as one member (R31, R118, R199, R204). -/
def finishThread (s : State) : State :=
  let s := lineUp s
  let t := s.thr
  let s := if t.sys.tstat.pclass == 2 then (if t.rep < 2 && twinEnded s t then leaveAll s (memberOf t) else s) else leaveAll s (memberOf t)
  modThr s fun t => { t with ended := true, uli := [], wait := .none, wings := t.wings.filter (·.held), qs := { t.qs with xfers := [] } }

/-- An Understudy leaves the record of the pair: its thread ends before the position (R369), and the end is not that position
(R366). -/
def endsEarly (s : State) (t : Thread) : Bool :=
  match primaryOf s t with
  | some u => u.votePos != endPos && (u.votePos - 1) / 2 % 64 == t.thrIx && u.votePos != t.point
  | none => false

/-- THREAD_END: both streams have ended. Entries left in a queue or an unpaired mark raise cause 0x10; under P2 the end is
an agreement point (R366). -/
def execThreadEnd (tid : Nat) (s : State) : Result :=
  .next (onThread s tid fun s =>
    let t := s.thr
    if !threadDone t then s
    else if queuesHold t then raiseProtocol s
    else if t.sys.tstat.pclass != 2 then finishThread s
    else match t.wait with
      | .agreed => finishThread s
      | .sigchk => s
      | _ =>
        if t.rep == 2 && endsEarly s t then understudyEnds (addScore s t.core)
        else modThr s fun t => t.atAgreement s.mod.time)

/-! ### The end of a team (R28, R367) -/

/-- Threads of a team. -/
def threadsOf (s : State) (u : Team) : List Thread := s.threads.filter fun t => t.team == u.id && t.live

def allEnded (s : State) (u : Team) : Bool := !(threadsOf s u).isEmpty && (threadsOf s u).all (·.ended)

/-- The shadow pages that a replica has written. -/
def wrotePages (u : Team) : List Shadow := u.shadow.filter (·.wrote)

/-- The compare engine on two replicas: the same written pages, with equal signatures (R367). -/
def shadowsAgree (a b : Team) : Bool :=
  (wrotePages a).length == (wrotePages b).length && (wrotePages a).all fun h => (wrotePages b).any fun g => g.page == h.page && g.psig == h.psig

/-- The team of the task ends: its room is free; a P2 team keeps its frames until its task ends, and those of its other replica
return to the quota (R304, R367). -/
def closeTeam (s : State) (u : Team) : State :=
  let all := replicasOf s u
  let others := (all.filter fun w => w.id != u.id).foldl (fun n w => n + w.shadow.length) 0
  let s := modPart s u.part fun q => { q with usedFrames := q.usedFrames - others }
  let s := modTask s u.task fun k => { k with endedTeams := insertNat k.endedTeams u.ix, mbs := k.mbs.set u.ix u.mb }
  let s := { s with teams := (s.teams.map fun w => if w.id == u.id then { w with status := .ended, agreedEnd := true } else w).filter fun w =>
      w.id == u.id || !(all.any fun v => v.id == w.id) }
  roomChanged (dropThreads s fun t => all.any fun v => v.id == t.team) u.part

/-- The trap record of a disagreement at the end, which no thread raises: the model names thread 0 (R380, log 18). -/
def recordEnd (s : State) (u : Team) : State :=
  match (threadsOf s u).find? fun t => t.thrIx == 0 with
  | some t => recordOf s t .execute 0x0B t.ex.pc 0 none 0 0
  | none => s

/-- TEAM_END: every thread of the team has ended (R28). The replicas of a P2 team are compared; when they disagree both
stop for a vote at the position "end" (R367, R368). -/
def execTeamEnd (team : Nat) (s : State) : Result :=
  .next (match findTeam s team with
    | none => s
    | some u =>
      if u.status != .resident || !allEnded s u || u.rep != 0 then s
      else match s.teams.find? (fun w => w.task == u.task && w.ix == u.ix && w.rep == 1) with
        | none => closeTeam s u
        | some w =>
          if w.status != .resident || !allEnded s w then s
          else if shadowsAgree u w then closeTeam s u
          else [u, w].foldl (fun s w => modTeam (requestStop (recordEnd s w) w.id .vote) w.id fun w => { w with votePos := endPos, suspect := none }) s)

/-! ### The frames of a task that is done (R301, R367) -/

/-- The leaf of a frame whose whole mask is set, when a page table of 4 KiB pages led to it: its address and entry (R367). -/
def remapLeaf (s : State) (p : Nat) (h : Shadow) : Option (Nat × Nat × Nat) :=
  match h.va with
  | none => none
  | some va => match walkVA s p va with
    | some (e, ea, size) =>
      if h.cells.length == 4096 && size == 4096 && leafPA e size va == h.page * 4096 && (s.part p).frames.contains (h.page * 4096) then some (va, ea, e) else none
    | none => none

/-- A frame's cells and marks where its page lies now. -/
def Shadow.movedTo (h : Shadow) (f : Nat) : Shadow :=
  { h with cells := h.cells.map fun c => (f + c.1 % 4096, c.2), poison := h.poison.map fun u => f + u % 4096 }

/-- The marked bytes of a frame reach a page in one step (R301). -/
def writeFrame (s : State) (p : Nat) (h : Shadow) : State :=
  let s := writeCells s p h.cells
  h.poison.foldl (fun s u => carryPoison s u true) s

/-- The shadow frame takes the place of the real one: its leaf names it, and the old frame waits for zeros (R283, R288, R367). -/
def remapFrame (s : State) (p : Nat) (h : Shadow) (va ea e : Nat) : Nat × State :=
  let old := h.page * 4096
  let (f, s) := takeFrame s
  let s := writeFrame s p (h.movedTo f)
  let s := { s with mem := setCells s.mem ea (leBytes 8 (e - old + f)), zeroing := s.zeroing ++ [(old, 4096)] }
  (f, modPart (shootDown s p va 4096) p fun q => { q with frames := f :: q.frames.erase old })

/-- The compare engine commits one frame: remapped when its mask is full, else its marked bytes are written, where a lower team's frame
has taken the page's place there (R301, R367). `moved` lists such pages with their frames. -/
def commitFrame (x : State × List (Nat × Nat)) (p : Nat) (h : Shadow) : State × List (Nat × Nat) :=
  match x.2.find? fun m => m.1 == h.page with
  | some m => (writeFrame x.1 p (h.movedTo m.2), x.2)
  | none => match remapLeaf x.1 p h with
    | some (va, ea, e) =>
      let (f, s) := remapFrame x.1 p h va ea e
      (s, (h.page, f) :: x.2)
    | none => (writeFrame x.1 p h, x.2)

/-- The pages of every team of a task, in ascending team index, from replica 0. -/
def commitPages (s : State) (k : Task) : State :=
  let mine := s.teams.filter fun u => u.task == k.id
  ((List.range k.nteams).foldl (fun x ix =>
    (mine.filter fun u => u.ix == ix && u.rep == 0).foldl (fun x u => (wrotePages u).foldl (fun x h => commitFrame x k.part h) x) x) (s, [])).1

end Sys2Proof.Machine
end

