-- ==== Sys2Proof/Machine/Protect.lean ====
section
/-!
DEFINITION. Events of duplicated execution and of the cores' health: AGREEMENT_POINT, AGREEMENT_TIMEOUT, VOTE, ECC_ERROR,
SCRUB, SCORE_HALVING, IN_FIELD_TEST and IN_FIELD_TEST_DONE (R230, R299, R355-R374).
-/

namespace Sys2Proof.Machine

/-! ### Agreement points (R230, R355, R356, R365, R366) -/

/-- The thread stands at an agreement point: an instruction's, its end's, or one that a held store forces (log 41). -/
def atPoint (t : Thread) : Bool := t.wait == .sigchk || t.forced

/-- Both copies stand at the same kind of point with the same ordinal. -/
def samePoint (t w : Thread) : Bool := t.ordinal == w.ordinal && t.forced == w.forced && atPoint w

/-- The signatures that a point compares (R230). -/
def signaturesEqual (t w : Thread) : Bool := t.sys.sigs == w.sys.sigs && t.sys.sigv == w.sys.sigv

/-- What a forced point compares is complete: both copies have issued the same commands, and those of the vector engine have folded
(R355, log 41). A point of the execute stream has waited for them. -/
def comparable (t w : Thread) : Bool := !t.forced || (t.vq.isEmpty && w.vq.isEmpty && t.cmdix == w.cmdix)

/-- The requests that both copies hold are the same, at a point of the execute stream (R95, R96). -/
def heldEqual (t w : Thread) : Bool :=
  t.forced || (t.held.map HeldReq.key == w.held.map HeldReq.key && t.late.map HeldReq.key == w.late.map HeldReq.key)

/-- A thread leaves a point: a forced one ends the wait of its store alone. -/
def leavePoint (s : State) (t : Thread) : State :=
  if t.forced then modTid (modTid (passAgreement s t) t.tid fun t => { t with forced := false }) t.tid fun x => { x with wait := t.wait }
  else passAgreement s t

/-- How many points the pair has passed on this thread; an Understudy passes no more (R368). -/
def pairOrdinal (s : State) (t : Thread) : Nat :=
  ((s.threads.filter fun w => w.task == t.task && w.teamIx == t.teamIx && w.thrIx == t.thrIx && w.rep < 2).map (·.ordinal)).foldl max 0

/-- The suspect replica of the pair, when a local failure has named one (R368). -/
def suspectOf (s : State) (t : Thread) : Option Nat := (findTeam s t.team).bind (·.suspect)

/-- AGREEMENT_POINT: the copies of a thread stand at the point of one ordinal; the Dersol compares their signatures
(R230), and they pass it once no commit holds the lines that drain there (R406). The survivor of a local failure stops there instead, for the vote (R368); an Understudy passes what the pair
has passed. -/
def execAgreementPoint (tid : Nat) (s : State) : Result :=
  .next (onThread s tid fun s =>
    let t := s.thr
    if t.sys.tstat.pclass != 2 || !atPoint t then s
    else if t.rep == 2 then (if t.ordinal < pairOrdinal s t then leavePoint s t else s)
    else match suspectOf s t with
      | some r =>
        if r == t.rep then s
        else match findTeam s t.team with
          | none => s
          | some u => (replicasOf s u).foldl (fun s w => modTeam s w.id fun w => { w with votePos := t.point }) (requestStop s u.id .vote)
      | none => match twinOf s t with
        | none => s
        | some w =>
          if !samePoint t w || !comparable t w then s
          else if signaturesEqual t w && heldEqual t w then (if mayDrain s t true && mayDrain s w true then settleLate (leavePoint (leavePoint s t) w) else s)
          else comparisonFails s t.point)

/-- AGREEMENT_TIMEOUT: the replica has waited more than 1 ms at the point for its partner (R230). -/
def execAgreementTimeout (tid : Nat) (s : State) : Result :=
  .next (onThread s tid fun s =>
    let t := s.thr
    if t.sys.tstat.pclass != 2 || t.rep == 2 || !atPoint t || (suspectOf s t).isSome then s
    else match twinOf s t with
      | none => s
      | some w => if samePoint t w || s.mod.time ≤ t.pointAt + Config.agreementCycles then s else comparisonFails s t.point)

/-! ### The vote (R368-R370) -/

/-- The thread of a replica that a position concerns. -/
def threadAt (s : State) (u : Team) (pos : Nat) : Option Thread :=
  (threadsOf s u).find? fun t => t.thrIx == (pos - 1) / 2 % 64

/-- What presents the request that a position names, and its index. -/
def posKind (pos : Nat) : Nat := (pos - 1) / 128 % 3
def posIx (pos : Nat) : Nat := (pos - 1) / 384

/-- The request of a kind that a thread presents, with its index (R366). -/
def Thread.presents (t : Thread) (kind : Nat) : Option (List Nat) × Nat :=
  match kind with
  | 0 => (t.pairReq, t.logIx)
  | 1 => (t.axReq, t.axIx)
  | _ => (t.late.head?.map HeldReq.key, t.putIx)

/-- A replica or the Understudy has reached the position. -/
def reached (s : State) (u : Team) (pos : Nat) : Bool :=
  if pos == endPos then allEnded s u
  else match threadAt s u pos with
    | none => false
    | some t => if pos % 2 == 1 then atPoint t && t.ordinal == (pos - 1) / 128 else (t.presents (posKind pos)).1.isSome && (t.presents (posKind pos)).2 == posIx pos

/-- The Understudy and a replica agree at the position: on signatures, on the request, or on the pages (R368). -/
def agreesAt (s : State) (u w : Team) (pos : Nat) : Bool :=
  reached s w pos &&
    if pos == endPos then shadowsAgree u w
    else match threadAt s u pos, threadAt s w pos with
      | some a, some b => if pos % 2 == 1 then signaturesEqual a b else (a.presents (posKind pos)).1 == (b.presents (posKind pos)).1
      | _, _ => false

/-- Cores that held threads of a team. -/
def coresOf (s : State) (u : Team) : List Nat := ((threadsOf s u).map (·.core)).foldl insertNat []

/-- A team, with its threads, takes a replica number. -/
def renumber (s : State) (u : Team) (rep : Nat) : State :=
  mapThreads (modTeam s u.id fun u => { u with rep := rep }) fun t => if t.team == u.id then { t with rep := rep } else t

/-- A team and its threads leave; its shadow frames return to the quota (R304, R367). -/
def removeTeam (s : State) (u : Team) : State :=
  let s := modPart s u.part fun q => { q with usedFrames := q.usedFrames - u.shadow.length }
  dropThreads { s with teams := s.teams.filter fun w => w.id != u.id } fun t => t.team == u.id

/-- The team's threads leave their cores. -/
def unseat (s : State) (u : Team) : State := mapThreads s fun t => if t.team == u.id then { t with resident := false } else t

/-- The winner and the Understudy form the pair; it goes to the resume list, or ends (R369). -/
def rebuild (s : State) (primary winner loser under : Team) (pos : Nat) (blame : Bool) : State :=
  let bad := coresOf s loser
  let s := removeTeam s loser
  let keep (u : Team) : Team :=
    { u with log := primary.log, mbLog := primary.mbLog, mb := primary.mb, mbLaunch := primary.mbLaunch, suspect := none
             votePos := endPos, starts := 0, status := .suspended, stopFor := .none, since := s.mod.time }
  let s := modTeam (modTeam s winner.id keep) under.id keep
  let s := unseat (unseat (renumber (renumber s winner 0) under 1) winner) under
  let s := if pos == endPos then
      match findTeam s winner.id with
      | some w => closeTeam s w
      | none => s
    else roomChanged s under.part
  if blame then bad.foldl addScore s else s

/-- VOTE: the Understudy has reached the position, or has failed and is replaced (R369). -/
def execVote (team : Nat) (s : State) : Result :=
  .next (match findTeam s team with
    | none => s
    | some u =>
      if u.rep != 2 then s
      else match s.teams.find? (fun w => w.task == u.task && w.ix == u.ix && w.rep == 0) with
        | none => s
        | some p =>
          if u.status == .ended then
            let s := roomChanged (removeTeam s u) u.part
            if 3 ≤ p.starts then endTask s u.task 0x0E (u.ix * 256 + voteCause s p) else addPending s u.part 2 p.id
          else if u.status != .resident || !reached s u p.votePos then s
          else
            let reps := (replicasOf s u).filter fun w => w.rep < 2
            let live := reps.filter fun w => p.suspect != some w.rep
            match live.find? (fun w => agreesAt s u w p.votePos) with
            | none => endTask s u.task 0x0E (u.ix * 256 + voteCause s p)
            | some w =>
              match reps.find? (fun l => l.id != w.id) with
              | none => s
              | some l => rebuild s p w l u p.votePos (p.suspect.isNone && !agreesAt s u l p.votePos))

/-! ### Storage errors (R299, R358, R360) -/

/-- A corrected error is counted. -/
def countCorrected (s : State) : State := { s with mod := { s.mod with corrected := s.mod.corrected + 1 } }

/-- An uncorrectable error of an array without poison marks is found by its next use: the instruction that a stream would issue now, or
the head command of a queue. Nothing of either takes effect (R358). -/
def raiseUpset (s : State) (tid : Nat) (use : ArrayUse) : State :=
  onThread s tid fun s =>
    let t := s.thr
    match use with
    | .issue st => if mayIssue s t st then raise s st 0x0B (t.st st).pc 0 else s
    | .vector => match t.vq with
      | c :: rest => if cmdReady s t c t.mq then commandFault s c 0x0B 0 fun t => { t with vq := rest } else s
      | [] => s
    | .matrix => match t.mq with
      | c :: rest => if cmdReady s t c t.vq then commandFault s c 0x0B 0 fun t => { t with mq := rest } else s
      | [] => s

/-- The instruction sends something out of the core that the Prompter compares when it issues: a request, an address, a
queue entry, a descriptor, or any instruction of the engine and the system chapters (R95, R120, R204, R236). Engine commands
are compared at the head of their queue. -/
def makesOutput : Instr → Bool
  | .mbput .. | .ldb .. | .ldbu .. | .ldh .. | .ldhu .. | .ldw .. | .ldwu .. | .ldd .. => true
  | .lqb .. | .lqbu .. | .lqh .. | .lqhu .. | .lqw .. | .lqwu .. | .lqd .. | .sab .. | .sah .. | .saw .. | .sad .. => true
  | .sdq .. | .xqput .. | .bqput .. | .tld .. | .tst .. | .gth .. | .sct .. => true
  | .amadd .. | .ammin .. | .ammax .. | .amand .. | .amor .. | .amxor .. | .amswp .. | .amcas .. => true
  | .push .. | .swait .. | .ssig .. | .srd .. | .ecreate .. | .ejoin .. | .eleave .. | .equery .. | .ebar .. | .uret | .uimask .. => true
  | .sysrd .. | .sysrdSigv .. | .sysrdSigs .. | .sysrdTrapInfo .. | .syswr .. | .syswrHeapWindow .. | .trap .. | .eret => true
  | .cro .. | .crc | .sigchk | .locq .. | .brk .. | .halt | .yield | .wfi | .rpopen .. | .rpcommit .. | .rpwait .. => true
  | _ => false

/-- The output of the next instruction of a stream is dropped, and the thread raises Prompter mismatch (R359). -/
def outputMismatch (s : State) (st : Stream) : State :=
  if s.thr.sys.tstat.pclass != 0 && mayIssue s s.thr st && makesOutput (fetch { s with cur := st }) then raise s st 0x0C (s.thr.st st).pc 0 else s

/-- ECC_ERROR (R358-R360). -/
def execEccError (w : EccWhere) (s : State) : Result :=
  .next (match w with
    | .mem pa c => if c then countCorrected s else if Config.backed pa then { s with poison := insertNat s.poison (pa / 64 * 64) } else s
    | .spad tid off c => if c then countCorrected s else modTid s tid fun t => { t with spadPoison := insertNat t.spadPoison (off / 64 * 64) }
    | .acc tid ac row visible c =>
      if c then countCorrected s
      else if 256 ≤ row then s
      else modTid s tid fun t => { t with acc := modNth t.acc ac fun a =>
        if visible then { a with visPoison := insertNat a.visPoison row } else { a with workPoison := insertNat a.workPoison row } }
    | .array tid use c => if c then countCorrected s else raiseUpset s tid use
    | .prompter tid st c =>
      if c then countCorrected s
      else onThread s tid fun s => if s.thr.sys.tstat.pclass != 0 && mayIssue s s.thr st then raise s st 0x0B (s.thr.st st).pc 0 else s
    | .image team => modTeam s team fun u => { u with badImage := u.badImage || u.status != .resident }
    | .flit => { s with mod := { s.mod with retries := s.mod.retries + 1 } }
    | .output tid st => onThread s tid fun s => outputMismatch s st)

/-- SCRUB: the conditional write-back of a corrected line changes no value that a read returns (R299). -/
def execScrub (_pa : Nat) (s : State) : Result := .next s

/-! ### Scores and tests (R371-R374) -/

/-- SCORE_HALVING: every 24 hours of powered time, on every core in service (R371). -/
def execScoreHalving (s : State) : Result :=
  .next (if s.mod.powered < Config.halvingCycles then s
    else { s with cores := Vector.ofFn fun i : Fin 192 => let c := s.cores[i]; if inService s i.val then { c with score := c.score >>> 1 } else c
                  mod := { s.mod with powered := s.mod.powered - Config.halvingCycles } })

/-- The core may not be drained for a test: it holds a thread of a pinned task or of a P2 replica (R374). -/
def testBarred (s : State) (c : Nat) : Bool :=
  s.threads.any fun t => t.live && t.resident && t.core == c &&
    (t.sys.tstat.pclass == 2 || (match findTask s t.task with | some k => k.pin | none => false))

/-- The next core in rotating order is drained and tested (R374). -/
def inFieldTest (s : State) : State :=
  let order := (List.range Config.cores).map fun i => (s.mod.testNext + i) % Config.cores
  match order.find? fun c => !(s.core c).retired && !(s.core c).testing && !testBarred s c with
  | none => s
  | some c =>
    let s := modCore { s with mod := { s.mod with testNext := (c + 1) % Config.cores } } c fun k => { k with testing := true }
    (s.teams.filter fun u => s.threads.any fun t => t.team == u.id && t.live && t.resident && t.core == c).foldl
      (fun s u => requestStop s u.id .test) s

/-- TESTINT seconds of TIME in C-cycles, and whether they have passed since the latest test fell due (R374). -/
def testPeriod (s : State) : Nat := s.mod.cfg.testInt * Config.cyclesPerSecond
def testTurn (s : State) : Bool := s.mod.cfg.testInt != 0 && decide (s.mod.testAt + testPeriod s ≤ s.mod.time)

/-- IN_FIELD_TEST: one core for every TESTINT seconds of TIME; a test due in PS1 or PS2 waits for PS0 (R374). -/
def execInFieldTest (s : State) : Result :=
  .next (if !testTurn s || s.mod.power == .ps3 then s
    else
      let s := { s with mod := { s.mod with testAt := s.mod.testAt + testPeriod s } }
      if s.mod.power == .ps0 then inFieldTest s else { s with mod := { s.mod with testDue := true } })

/-- The module enters PS0; a test that waited runs (R353, R374). -/
def enterRun (s : State) : State :=
  let due := s.mod.testDue
  let s := { s with mod := { s.mod with power := .ps0, testDue := false } }
  if due then inFieldTest s else s

/-- IN_FIELD_TEST_DONE: the scan self-test of a drained core has ended (R372, R374). -/
def execInFieldTestDone (core : Nat) (pass : Bool) (s : State) : Result :=
  .next (if !(s.core core).testing || s.threads.any fun t => t.live && t.resident && t.core == core then s
    else
      let s := { modCore s core (fun k => { k with testing := false, pass := pass }) with mod := { s.mod with testTime := s.mod.time } }
      let s := if pass then s else retireCore (modCore s core fun k => { k with score := 15 }) core
      match (s.core core).owner with
      | some p => roomChanged s p
      | none => s)

end Sys2Proof.Machine
end

