-- ==== Sys2Proof/Machine/Place.lean ====
section
/-!
DEFINITION. Room and placement: what a core holds (R21), where a team fits (R20, R313), P2 pairs and Understudies (R13,
R415), and how a team becomes resident, cleared (R39, R279) or from its image (R387).
-/

namespace Sys2Proof.Machine

/-! ### Room -/

/-- What threads take of a core (R21): threads, V registers, scratchpad in units of 8 KiB, accumulators. -/
structure Use where
  n : Nat
  vregs : Nat
  spad : Nat
  accs : Nat
  deriving DecidableEq, Repr

def Use.zero : Use := { n := 0, vregs := 0, spad := 0, accs := 0 }
def Use.plus (a b : Use) : Use := { n := a.n + b.n, vregs := a.vregs + b.vregs, spad := a.spad + b.spad, accs := a.accs + b.accs }
def Use.max (a b : Use) : Use :=
  { n := Nat.max a.n b.n, vregs := Nat.max a.vregs b.vregs, spad := Nat.max a.spad b.spad, accs := Nat.max a.accs b.accs }
def Use.times (a : Use) (m : Nat) : Use := { n := a.n * m, vregs := a.vregs * m, spad := a.spad * m, accs := a.accs * m }
def Use.fits (a : Use) : Bool := a.n ≤ 4 && a.vregs ≤ 96 && a.spad ≤ 40 && a.accs ≤ 6

/-- One thread of an image. -/
def threadUse (k : KImage) : Use := { n := 1, vregs := k.vregs, spad := k.spadUnits, accs := k.accs }

/-- A resident thread. -/
def Thread.use (t : Thread) : Use := { n := 1, vregs := t.vregs, spad := t.spadSize / 8192, accs := t.accs }

/-- How many threads more a core takes. -/
def roomFor (u d : Use) : Nat :=
  if (u.plus (d.times 4)).fits then 4 else if (u.plus (d.times 3)).fits then 3 else if (u.plus (d.times 2)).fits then 2
  else if (u.plus d).fits then 1 else 0

/-- What the resident threads take of a core, but for teams that f leaves out. -/
def coreUse (s : State) (f : Nat → Bool) (c : Nat) : Use :=
  (s.threads.filter fun t => t.live && t.resident && t.core == c && f t.team).foldl (fun u t => u.plus t.use) Use.zero

/-- A thread of the partition's tasks may go to this core: the partition owns it, it is in service and not under test,
and no failure of the task bars it (R304, R321, R362, R372, R374). -/
def coreServes (s : State) (p : Nat) (avoid : List Nat) (c : Nat) : Bool :=
  let k := s.core c
  k.owner == some p && !k.retired && !k.testing && !chipRetired s (c / 16) && !avoid.contains c

/-- Threads of one team laid over the cores of a chiplet in ascending order, as many on each as it takes (R313): the core
of each thread in THRIX order, and what the cores then hold. -/
def fillChip (uses : List Use) (ok : Nat → Bool) (d : Use) (threads chip : Nat) : Option (List Nat × List Use) :=
  let r := (List.range 16).foldl (fun (x : Nat × List Nat × List Use) k =>
    let c := 16 * chip + k
    if !ok c then x
    else
      let u := x.2.2.getD c Use.zero
      let m := min x.1 (roomFor u d)
      (x.1 - m, x.2.1 ++ List.replicate m c, x.2.2.set c (u.plus (d.times m)))) (threads, [], uses)
  if r.1 == 0 then some r.2 else none

/-- The cores of a place list, one entry for each thread. -/
def placedCores (ps : List (Nat × List Place)) : List Nat := ps.flatMap fun x => x.2.flatMap (·.cores)

/-- What every core holds: the resident threads, and at the same time what it will hold once the stops under way have
made room for the teams staged behind them (R312), a staged team that moves on its target (R316); and what a TROUPE has
reserved (R340). -/
def usesNow (s : State) : List Use :=
  let held := s.teams.filter fun u => u.status == .staged
  let leaving := held.filterMap (·.awaits)
  let now := (List.range Config.cores).map (coreUse s fun _ => true)
  let later := (List.range Config.cores).map (coreUse s fun id => !leaving.contains id)
  let later := held.foldl (fun l u => match findTask s u.task with
    | none => l
    | some k => match fillChip l (coreServes s u.part k.avoid) (threadUse k.img) k.img.threads (u.moving.getD u.chip) with
      | some (_, l) => l
      | none => l) later
  let both := (now.zip later).map fun x => x.1.max x.2
  match s.troupe with
  | none => both
  | some r => r.parts.foldl (fun l x => (placedCores x.2).foldl (fun l c => l.set c ((l.getD c Use.zero).plus (threadUse x.1.img))) l) both

/-- The capabilities of a chiplet (R19, R44). -/
def capable (caps chip : Nat) : Bool := !caps.testBit 0 || Config.nClass chip

/-- What a placement needs to know of a team. -/
structure Want where
  part : Nat
  use : Use
  threads : Nat
  caps : Nat
  avoid : List Nat

def wantOf (k : Task) (caps : Nat) : Want :=
  { part := k.part, use := threadUse k.img, threads := k.img.threads, caps := caps, avoid := k.avoid }

/-- A chiplet takes the team. -/
def placeOn (s : State) (w : Want) (uses : List Use) (chip : Nat) : Option (Place × List Use) :=
  if !capable w.caps chip then none
  else (fillChip uses (coreServes s w.part w.avoid) w.use w.threads chip).map fun x => ({ chip := chip, cores := x.1 }, x.2)

def allChips : List Nat := List.range Config.chiplets

/-- The lowest-numbered chiplet of a list that takes the team. -/
def placeFirst (s : State) (w : Want) (uses : List Use) (chips : List Nat) : Option (Place × List Use) :=
  chips.findSome? (placeOn s w uses)

/-- Chiplets that may hold the other replica beside a chiplet: the same class, another domain (R13). -/
def partners (chip : Nat) : List Nat :=
  allChips.filter fun c => Config.nClass c == Config.nClass chip && Config.domainOf c != Config.domainOf chip

/-- A place for a P2 pair: replica 0 on the first of the chiplets that leaves a partner, replica 1 on the first of its
list that R13 allows (R415); so where only the second pair names a target, the first follows it (DESIGN CHOICE, log 64). -/
def placePair (s : State) (w : Want) (uses : List Use) (first second : List Nat) : Option (Place × Place × List Use) :=
  first.findSome? fun c => match placeOn s w uses c with
    | none => none
    | some (a, uses) => (placeFirst s w uses ((partners c).filter second.contains)).map fun x => (a, x.1, x.2)

/-- Targets that a decision's output names: 15 and no target stand for the built-in choice (R245). -/
def targets (t : Option Nat) : List Nat :=
  match t with
  | none => allChips
  | some c => if c == 15 then allChips else [c]

/-- Places for one team of a task: one, or two for a P2 pair. -/
def placeTeam (s : State) (k : Task) (caps : Nat) (uses : List Use) (t0 t1 : Option Nat) : Option (List Place × List Use) :=
  let w := wantOf k caps
  if k.pclass == 2 then (placePair s w uses (targets t0) (targets t1)).map fun x => ([x.1, x.2.1], x.2.2)
  else (placeFirst s w uses (targets t0)).map fun x => ([x.1], x.2)

/-- Places for several teams of a task, one after the other; the first of the list takes the named targets, be it team 0 or not
(DESIGN CHOICE, log 64). -/
def placeTeams (s : State) (k : Task) : List Nat → List Use → Option Nat → Option Nat → Option (List (Nat × List Place) × List Use)
  | [], uses, _, _ => some ([], uses)
  | ix :: r, uses, t0, t1 =>
    match placeTeam s k k.caps uses t0 t1 with
    | none => none
    | some (p, uses) => (placeTeams s k r uses none none).map fun x => ((ix, p) :: x.1, x.2)

/-- Teams of a shape that a chiplet would take at once (FIT of R247), at most 64. -/
def fitCount (s : State) (w : Want) (chip : Nat) : Nat → List Use → Nat
  | 0, _ => 0
  | n + 1, uses =>
    match fillChip uses (coreServes s w.part w.avoid) w.use w.threads chip with
    | none => 0
    | some (_, uses) => fitCount s w chip n uses + 1

/-! ### Teams and images -/

/-- Teams not yet dispatched, in ascending index (R36, R362). -/
def undispatched (k : Task) : List Nat := k.restart ++ (List.range (k.nteams - k.next)).map (k.next + ·)

/-- A restart of the task is under way: its teams are being stopped, or wait for the FAULT decision (R362). -/
def restarting (s : State) (k : Task) : Bool :=
  s.teams.any fun u => u.task == k.id && (u.stopFor == .restart || u.status == .faultWait 4)

/-- Images in the context area and resident teams of a partition, each replica counted (R306). -/
def imagesHeld (s : State) (p : Nat) : Nat :=
  (s.teams.filter fun u => u.part == p && match u.status with
    | .suspended | .faultWait _ | .voting => true
    | _ => false).length

def residentCount (s : State) (p : Nat) : Nat :=
  (s.teams.filter fun u => u.part == p && (u.status == .resident || u.status == .stopping)).length

def ownedCores (s : State) (p : Nat) : Nat := ((List.range Config.cores).filter fun c => (s.core c).owner == some p).length

/-- Staged teams, which become resident while the team they wait for becomes an image. -/
def stagedCount (s : State) (p : Nat) : Nat := (s.teams.filter fun u => u.part == p && u.status == .staged).length

/-- Teams of the parts that a TROUPE has reserved in a partition, each replica counted (R340). -/
def reservedCount (s : State) (p : Nat) : Nat :=
  match s.troupe with
  | none => 0
  | some t => ((t.parts.filter fun x => x.1.part == p).map fun x => (x.2.map fun y => y.2.length).sum).sum

/-- The bound of R306 lets this many more teams in. -/
def imageRoom (s : State) (p n : Nat) : Bool :=
  imagesHeld s p + residentCount s p + stagedCount s p + reservedCount s p + n ≤ (s.part p).nimg + ownedCores s p

/-- A PREEMPT may fill this many more images of the first NIMG (R306, R311). -/
def preemptRoom (s : State) (p n : Nat) : Bool := imagesHeld s p + n ≤ (s.part p).nimg

/-- The lowest thread context of a core that holds no thread. -/
def freeContext (s : State) (c : Nat) : Nat :=
  ((List.range 4).find? fun x => !s.threads.any fun t => t.live && t.resident && t.core == c && t.ctx == x).getD 0

/-- The window registers that the heap grant gives at dispatch (R279). -/
def heapRegs (q : Partition) (y : SysRegs) : SysRegs :=
  { y with hbase := BitVec.ofNat 64 Config.heapVA, hlimit := BitVec.ofNat 64 (Config.heapVA + q.heapLen)
           hoff := BitVec.ofNat 64 ((q.heapPA + Config.vaEnd - Config.heapVA) % Config.vaEnd) }

/-- A thread of a team as it is dispatched: cleared (R39), at the start of both sections, with the registers of R123, R209
to R213 and R279. -/
def newThread (s : State) (k : Task) (u : Team) (ix core : Nat) : Thread :=
  let q := s.part k.part
  let y := heapRegs q SysRegs.zero
  { Thread.blank with
    tid := s.nextId, live := true, resident := true, part := k.part, task := k.id, team := u.id, teamIx := u.ix, thrIx := ix
    rep := u.rep, core := core, ctx := freeContext s core, vregs := k.img.vregs, rotN := k.img.rotN, accs := k.img.accs
    spadSize := k.img.spadUnits * 8192
    ex := { StreamState.blank with pc := BitVec.ofNat 64 k.img.ebase, ended := false }
    ax := { StreamState.blank with pc := BitVec.ofNat 64 k.img.abase, ended := false }
    mbView := u.mb
    sys := { y with tvec := (match q.handler with | some (a, _) => BitVec.ofNat 64 a | none => 0), dbase := BitVec.ofNat 64 k.img.dbase
                    tstat := { y.tstat with pclass := BitVec.ofNat 2 k.pclass } } }

/-- A team of a task becomes resident for the first time, or again after a restart, on its place (R39, R325). -/
def dispatchTeam (s : State) (k : Task) (ix rep : Nat) (pl : Place) (mb : Vector Word 8) : State :=
  let u : Team :=
    { id := s.nextId, part := k.part, task := k.id, ix := ix, rep := rep, chip := pl.chip, home := pl.chip, status := .resident
      stopFor := .none, mb := mb, mbLaunch := mb, mig := false, since := s.mod.time, shadow := [], heldPages := [], log := []
      mbLog := [], trapRec := none, votePos := endPos, suspect := none, starts := 0, agreedEnd := false, dbgHalt := false
      awaits := none, moving := none, classN := false }
  let s := { s with teams := s.teams ++ [u], nextId := s.nextId + 1 }
  (pl.cores.zipIdx).foldl (fun s x =>
    let t := newThread s k u x.2 x.1
    { s with others := s.others ++ [t], nextId := s.nextId + 1 }) s

/-- Teams of a task are dispatched on their places: the task runs, and its queue is the one served last, also after a
restart that a FAULT decision places (DESIGN CHOICE, log 65). -/
def dispatchTeams (s : State) (k : Task) (ps : List (Nat × List Place)) : State :=
  let gone := ps.map Prod.fst
  let s := ps.foldl (fun s x =>
    (x.2.zipIdx).foldl (fun s y => dispatchTeam s k x.1 y.2 y.1 (k.mbs.getD x.1 (Vector.replicate 8 0))) s) s
  let s := modTask s k.id fun k => { k with
    state := .running
    restart := k.restart.filter fun i => !gone.contains i
    next := max k.next ((gone.map (· + 1)).foldl max 0) }
  if k.troupe then s else modPart s k.part fun q => { q with lastQ := k.queue }

/-- A trap record in an image that goes to a chiplet of the other class (R381, R394). -/
def TrapRec.translated (r : TrapRec) : TrapRec := { r with mstep := 0xFFFF, msv := false }

/-- A suspended team becomes resident on its place, with the state of its image (R44, R236, R387, R394): waits are armed
again, records enter their queues at their places, a move to another chiplet shows in MIG, and one from an M-class to an N-class
chiplet leaves an empty table (R174). Where the image does not load, the task ends CHECKFAIL (R393). -/
def seatTeam (s : State) (u : Team) (pl : Place) : State :=
  if u.badImage then endTask s u.task 0x0E (u.ix * 256 + 0x0B)
  else
  let s := modTeam s u.id fun u => { u with
    status := .resident, stopFor := .none, mig := u.mig || u.moved || pl.chip != u.home, moved := false, trapRec := if u.classN == Config.nClass pl.chip then u.trapRec else u.trapRec.map TrapRec.translated, chip := pl.chip, home := pl.chip, since := s.mod.time
    moving := none, awaits := none }
  let ts := (s.threads.filter fun t => t.team == u.id && t.live).map fun t => (t.thrIx, t.tid)
  let s := ts.foldl (fun s x =>
    let c := pl.cores.getD x.1 0
    let ctx := freeContext s c
    modTid s x.2 fun t =>
      let t := { t with resident := true, core := c, ctx := ctx, stallCount := 0, pointAt := s.mod.time
                        table := if !u.classN && Config.nClass pl.chip then Table.empty else t.table }
      (t.modSt .execute fun y => { y with stall := .no }).modSt .access fun y => { y with stall := .no }) s
  let s := (s.threads.filter fun t => t.team == u.id && t.live).foldl (fun s t => match t.wait with
    | .swait pa _ _ _ => pollThread (arm s t pa (readCounter s pa)) t.tid
    | _ => s) s
  { s with eng := s.eng.map fun r => if r.status == .imaged && r.owner.1 == u.task && r.owner.2.1 == u.ix then { r with status := .queued } else r }

end Sys2Proof.Machine
end

