-- ==== Sys2Proof/Machine/Sched.lean ====
section
/-!
DEFINITION. The Stage Manager's decisions (R34, R36, R37, R237, R246-R248, R250, R303-R322, R362, R415): queue heads and their
dependences, the views, what each kind of output commits, and the built-in policy.
-/

namespace Sys2Proof.Machine

/-! ### Queue heads and dependences (R34, R36, R37, R303, R307, R308) -/

/-- Microseconds of TIME since a moment (R4, R210). -/
def micros (s : State) (since : Nat) : Nat := (s.mod.time - since) / 1400

/-- The partition owns an N-class core in service. -/
def hasN (s : State) (p : Nat) : Bool :=
  (List.range Config.cores).any fun c => Config.nClass (c / 16) && (s.core c).owner == some p && inService s c

/-- The oldest task of a queue whose first team has not been dispatched (R36). -/
def headOf (s : State) (p q : Nat) : Option Task :=
  s.tasks.find? fun k => k.part == p && k.queue == q && !k.troupe && k.state != .running && k.state != .ended && k.next == 0

/-- The oldest task of a queue with teams still to dispatch (R246). -/
def continuingOf (s : State) (p q : Nat) : Option Task :=
  s.tasks.find? fun k => k.part == p && k.queue == q && k.state == .running && !(undispatched k).isEmpty && !restarting s k

/-- Continuing parts of a TROUPE, which lie outside queue order (R340, R362). -/
def continuingParts (s : State) (p : Nat) : List Task :=
  s.tasks.filter fun k => k.part == p && k.troupe && k.state == .running && !(undispatched k).isEmpty && !restarting s k

def Task.ready (k : Task) : Bool := k.state == .head && k.depsMet == k.deps.length

/-- The Stage Manager reads the dependences of a head in order and watches the first that is not satisfied (R37, R308). -/
def readDeps (s : State) (id : Nat) : Nat → State
  | 0 => s
  | n + 1 =>
    match findTask s id with
    | none => s
    | some k =>
      match k.deps[k.depsMet]? with
      | none => wantDispatch (dropNotices (modTask s id fun k => { k with watch := none }) (.task id)) k.part
      | some (a, v) =>
        match reach s k.part .load a.toNat 8 with
        | none => endTask (logMalformed s k.part a.toNat) id 0x02 a.toNat
        | some (pa, s) =>
          if v.toNat ≤ getLe s.mem pa 8 then readDeps (modTask s id fun k => { k with depsMet := k.depsMet + 1 }) id n
          else dropNotices (modTask s id fun k => { k with watch := some pa }) (.task id)

/-- Teams of a task that a chiplet holds when its cores hold nothing else. -/
def slotsOn (s : State) (k : Task) (chip : Nat) : Nat :=
  if capable k.caps chip then fitCount s (wantOf k k.caps) chip k.nteams (List.replicate Config.cores Use.zero) else 0

/-- Slots of a class in a voltage domain. -/
def slotsIn (s : State) (k : Task) (n : Bool) (dom : Nat) : Nat :=
  ((allChips.filter fun c => Config.nClass c == n && Config.domainOf c == dom).map (slotsOn s k)).sum

/-- Pairs that the slots of four domains make when the two replicas of each lie in different ones (R13). -/
def pairsOf (slots : List Nat) : Nat := min (slots.sum / 2) (slots.sum - slots.foldl max 0)

/-- All teams of a pinned task, with their P2 replicas, fit on its partition's cores in service when those hold nothing else
(R34). -/
def everFits (s : State) (k : Task) : Bool :=
  decide (k.nteams ≤ if k.pclass == 2 then
      pairsOf ((List.range 4).map (slotsIn s k false)) + pairsOf ((List.range 4).map (slotsIn s k true))
    else (allChips.map (slotsOn s k)).sum)

/-- The oldest undispatched task of a queue becomes its head: it ends UNPLACEABLE, or its dependences are read. -/
def advanceQueue (s : State) (p q : Nat) : State :=
  match headOf s p q with
  | none => s
  | some k =>
    if k.state != .queued then s
    else
      let s := modTask s k.id fun k => { k with state := .head }
      if (k.caps.testBit 0 && !hasN s p) || (k.pin && !everFits s k) then endTask s k.id 0x09 0
      else readDeps s k.id 9

/-- The die of a watcher: its core's chiplet, or the I/O die of the Stage Manager and the front end. -/
def watcherDie (s : State) : Watcher → Nat
  | .thread tid => ((s.threads.find? fun t => t.tid == tid).map fun t => t.core / 16).getD Config.ioDie
  | _ => Config.ioDie

/-- No earlier notice goes from the same store die to the same die (R349). -/
def noticeLeads (s : State) (k : Nat) (n : Notice) : Bool :=
  (s.notices.take k).all fun m => !(Config.storeDie m.pa == Config.storeDie n.pa && watcherDie s m.dest == watcherDie s n.dest)

/-- A notice reaches its watcher: the swait sees the value, the dependence or the WAIT is satisfied (R197, R308, R341). None: the
completion actions of the WAIT are held back (R406). -/
def deliverNotice (s : State) (n : Notice) : Option State :=
  match n.dest with
  | .thread tid => match s.threads.find? fun t => t.tid == tid with
    | none => some s
    | some t =>
      if (s.core t.core).watches.any fun w => w.pa == n.pa && w.tid == tid then
        some (modTid (modCore s t.core fun c => { c with watches := c.watches.map fun w =>
          if w.pa == n.pa && w.tid == tid then { w with value := n.value } else w }) tid (tellThread n.pa n.value))
      else some s
  | .task id => some (match findTask s id with
    | none => s
    | some k =>
      if k.watch != some n.pa then s
      else match k.deps[k.depsMet]? with
        | some (_, want) => if want.toNat ≤ n.value.toNat then readDeps (modTask s id fun k => { k with depsMet := k.depsMet + 1 }) id 9 else s
        | none => s)
  | .record id => match s.recs.find? fun r => r.id == id with
    | none => some s
    | some r =>
      if r.watch != some n.pa || n.value.toNat < fieldOf r.raw 0x28 8 then some s
      else if actionsHeld s r.raw then none
      else some (finishRec s id Status.done)

/-- SEMAPHORE_NOTICE: a value of a counter arrives at one of its watchers. The notices of one store die to one die arrive in send
order; between dies the oracle chooses (R197, R349, log 2). -/
def execSemaphoreNotice (pa : Nat) (s : State) : Result :=
  .next (
    let due := s.notices.zipIdx.filter fun x => x.1.pa == pa && noticeLeads s x.2 x.1
    if due.isEmpty then s
    else
      let (i, s') := pick s due.length
      match due[i]? with
      | none => s
      | some x => (deliverNotice { s' with notices := s'.notices.eraseIdx x.2 } x.1).getD s)

/-! ### The view (R246, R247) -/

def prioOf (s : State) (k : Task) : Nat :=
  if k.troupe then 0 else (nth (s.part k.part).queues k.queue { prio := 0, limit := 0, enabled := false, resident := false, launches := 0 }).prio.toNat

/-- QEN of a task's queue. -/
def queueOn (s : State) (k : Task) : Bool :=
  k.troupe || (nth (s.part k.part).queues k.queue { prio := 0, limit := 0, enabled := false, resident := false, launches := 0 }).enabled

/-- Capabilities that a team needs: its task's, and QX for a migrate trap, and for a Q4 latch or a table in any of its
replicas, which are placed together (R153, R177, R246, R319, R322). A tload or tint that waits in a queue of the team asks for no QX
(DESIGN CHOICE, log 63). -/
def teamCaps (s : State) (k : Task) (u : Team) : Nat :=
  if k.caps.testBit 0 || u.status == .faultWait 1
      || ((replicasOf s u).flatMap (threadsOf s)).any (fun t => t.latch.fmt == .q4 || t.table.nseg != 0) then
    k.caps / 2 * 2 + 1 else k.caps

/-- Saturated to 32 bits (R244). -/
def sat32 (n : Nat) : Nat := min n 0xFFFFFFFF

/-- The cores that each queue of a partition has threads on, as (queue, cores); a TROUPE's parts stand for queue 255. -/
def queueCores (s : State) (p : Nat) : List (Nat × Nat) :=
  let held := ((s.threads.filter fun t => t.live && t.resident && t.part == p).filterMap fun t =>
    (findTask s t.task).map fun k => (if k.troupe then 255 else k.queue, t.core)).eraseDups
  ((held.map (·.1)).eraseDups).map fun q => (q, (held.filter fun x => x.1 == q).length)

/-- 100 microseconds in C-cycles (R4). -/
def useWindow : Nat := 140000

/-- Core-time that a queue used in the last 100 microseconds, in 1/256 of the partition's cores (R246 QUSE); before
TIME has gone on by so much, in the time gone by (DESIGN CHOICE, log 65). -/
def queueUse (s : State) (p q : Nat) : Nat :=
  let since := s.mod.time - useWindow
  let used := ((s.part p).usage.map fun x =>
    min x.2.1 (x.1 - since) * ((x.2.2.find? fun y => y.1 == q).map (·.2)).getD 0).sum
  let owned := ownedCores s p
  if owned == 0 then 0 else min (used * 256 / (min useWindow (max s.mod.time 1) * owned)) 255

/-- The fields of a candidate (R246). -/
def rowOf (s : State) (k : Task) (caps ckind chip fneed : Nat) : ViewRow :=
  [prioOf s k, sat32 (micros s k.enqueued), k.pclass, caps, (undispatched k).length, k.img.threads, if k.troupe then 255 else k.queue, ckind,
    if k.pin then 1 else 0, queueUse s k.part (if k.troupe then 255 else k.queue), chip, fneed]

/-- A candidate: what it stands for, its row, and the shape that FIT counts. -/
structure Cand where
  subject : Nat
  row : ViewRow
  want : Want

def candTask (s : State) (k : Task) (ckind : Nat) : Cand :=
  { subject := k.id, row := rowOf s k k.caps ckind 15 0, want := wantOf k k.caps }

def candTeam (s : State) (u : Team) (ckind chip fneed : Nat) : Option Cand :=
  (findTask s u.task).map fun k =>
    let caps := teamCaps s k u
    { subject := u.id, row := rowOf s k caps ckind chip fneed, want := wantOf k caps }

/-- DISPATCH candidates, in view order, from the queue after the one served last (R246); the parts of a TROUPE, which lie in no
queue, come first (DESIGN CHOICE, log 65). -/
def dispatchCands (s : State) (p : Nat) : List Cand :=
  let one (q : Nat) : List Cand :=
    ((match continuingOf s p q with | some k => if queueOn s k then [candTask s k 1] else [] | none => [])
      ++ (match headOf s p q with | some k => if k.ready && queueOn s k then [candTask s k 0] else [] | none => []))
  (continuingParts s p).map (fun k => candTask s k 1) ++ (List.range 64).flatMap fun i => one (((s.part p).lastQ + 1 + i) % 64)

/-- The partition's resident teams, most recently dispatched first; a pair counts once. -/
def residentTeams (s : State) (p : Nat) : List Team :=
  (s.teams.filter fun u => u.part == p && u.status == .resident && u.rep == 0).reverse

def isPinned (s : State) (u : Team) : Bool := match findTask s u.task with | some k => k.pin | none => false

/-- The team's task runs and is not being ended or restarted. -/
def taskRuns (s : State) (u : Team) : Bool :=
  match findTask s u.task with
  | some k => k.state == .running && !restarting s k
  | none => false

/-- The entries of the resume list (R315): suspended teams that may resume; a pair stands under its replica 0, when both are
here; the survivor of a local failure, whose suspect waits for the vote, on its own (R372). -/
def onList (s : State) (u : Team) : Bool :=
  u.status == .suspended && u.moving.isNone && taskRuns s u && match findTask s u.task with
    | none => false
    | some k => if k.pclass != 2 then true
      else if u.rep == 2 then true
      else (u.rep == 0 && s.teams.any fun w => w.task == u.task && w.ix == u.ix && w.rep == 1 && w.status == .suspended && w.moving.isNone)
        || s.teams.any fun w => w.task == u.task && w.ix == u.ix && w.rep + u.rep == 1 && w.status == .voting

/-- Teams of a partition in a status, a P2 pair counting once (R326). -/
def countTeams (s : State) (p : Nat) (f : Team → Bool) : Nat :=
  (s.teams.filter fun u => u.part == p && u.rep == 0 && f u).length

/-- SCHEDSTAT (R326); an Understudy stands on the resume list on its own. -/
def schedStatBits (s : State) (p : Nat) : Word :=
  let q := s.part p
  BitVec.ofNat 64 (min q.moves 255 + min q.preempts 255 * 2 ^ 8 + (s.teams.filter fun u => u.part == p && waitsFault s u).length * 2 ^ 16
    + countTeams s p (·.status == .staged) * 2 ^ 28 + min (s.teams.filter fun u => u.part == p && onList s u).length 4095 * 2 ^ 40
    + countTeams s p (fun u => u.status == .resident || u.status == .stopping) * 2 ^ 52)

/-- A chiplet reports itself overloaded (R316): for a pair, where its replica 0 is at home. -/
def overloaded (s : State) (p chip : Nat) : Bool :=
  let r := (s.part p).rebal
  r != 0 && s.teams.any fun u => u.part == p && decide (r < micros s u.since) &&
    ((u.status == .staged && u.moving.isNone && u.chip == chip) || (onList s u && u.home == chip))

/-- REBALANCE candidates (R246): staged teams, whose task counts them as undispatched until they run, and the entries of the
resume list. CKIND 3 for both, and a staged team's chiplet as the one that holds it, are the model's reading (log 31). -/
def rebalCands (s : State) (p : Nat) : List Cand :=
  let mine := s.teams.filter fun u => u.part == p && u.rep != 2 &&
    ((u.status == .staged && u.moving.isNone && overloaded s p u.chip) || (onList s u && overloaded s p u.home))
  let old := mine.mergeSort fun a b => a.since ≤ b.since
  old.filterMap fun u => candTeam s u 3 (if u.status == .staged then u.chip else 15) 0

/-- FNEED of a team that waits on a FAULT decision. -/
def fneedOf (u : Team) : Nat :=
  match u.status with
  | .faultWait n => n
  | .voting => 2
  | _ => 0

/-- The fields of a chiplet (R247); FIT is computed when cget reads it. SUSMAX is over the cores in service (log 62). -/
def chipRow (s : State) (p chip : Nat) : ViewRow :=
  let cs := (List.range 16).map (16 * chip + ·)
  let mine := cs.filter fun c => (s.core c).owner == some p
  let busy (c : Nat) : Nat := (s.threads.filter fun t => t.live && t.resident && t.core == c).length
  let serving := cs.filter (inService s)
  [if Config.nClass chip then 1 else 0, Config.domainOf chip, (mine.filter fun c => busy c == 0).length,
    mine.foldl (fun n c => n + (4 - busy c)) 0, 0, serving.foldl (fun n c => max n (s.core c).score.toNat) 0, retiredOn s chip,
    mine.length, (s.teams.filter fun u => u.part == p && u.chip == chip && (u.status == .resident || u.status == .stopping)).length]

/-- The decision fields (R247), PICKED aside. -/
def globRow (s : State) (p kind ncand omitted : Nat) : List Nat :=
  let owned := ownedCores s p
  let busy := ((List.range Config.cores).filter fun c => (s.core c).owner == some p &&
    s.threads.any fun t => t.live && t.resident && t.core == c).length
  [kind, ncand, if owned == 0 then 0 else busy * 256 / owned, micros s 0 % 2 ^ 32, owned, omitted, (s.part p).lastQ, 0xFFFFFFFF]

/-! ### What outputs commit (R245, R248) -/

/-- A target names a chiplet, or 15, and the partition owns a core there. -/
def targetOk (s : State) (p : Nat) (t : Option Nat) : Bool :=
  match t with
  | none => true
  | some c => c == 15 || (c < 12 && (List.range 16).any fun k => (s.core (16 * c + k)).owner == some p)

/-- The task is a candidate of DISPATCH (R246, R307). -/
def isCandidate (s : State) (k : Task) : Bool :=
  (k.ready || (k.state == .running && !restarting s k)) && queueOn s k && !(undispatched k).isEmpty

/-- DISPATCH of a task's next team, or of all teams of a pinned task, whose second pair names no one (R245). None: refused,
also for a bad target in the second pair of a team that is not P2 (DESIGN CHOICE, log 64). -/
def commitDispatch (s : State) (p id : Nat) (t0 t1 : Option Nat) : Option (Bool × State) :=
  match findTask s id with
  | none => none
  | some k =>
    let todo := if k.pin then undispatched k else (undispatched k).take 1
    let t1 := if k.pin then none else t1
    if !isCandidate s k || !targetOk s p t0 || !targetOk s p t1 then none
    else if !imageRoom s p (todo.length * if k.pclass == 2 then 2 else 1) then some (false, s)
    else match placeTeams s k todo (usesNow s) t0 t1 with
      | none => none
      | some (ps, _) => some (true, wantDispatch (advanceQueue (dispatchTeams s k ps) p k.queue) p)

/-- One candidate outranks another: PRIO, then AGE, then lower QUEUE (R250, R311). -/
def outranks (a b : ViewRow) : Bool :=
  let f (r : ViewRow) (i : Nat) := r.getD i 0
  f b 0 < f a 0 || (f a 0 == f b 0 && (f b 1 < f a 1 || (f a 1 == f b 1 && f a 6 < f b 6)))

/-- A stop that an earlier PREEMPT of the partition committed is still in progress. -/
def preemptUnderWay (s : State) (p : Nat) : Bool := s.teams.any fun u => u.part == p && u.status == .stopping && u.byPreempt

/-- Images that stops committed by a PREEMPT have still to cut (R306). -/
def preemptStops (s : State) (p : Nat) : Nat := (s.teams.filter fun u => u.part == p && u.status == .stopping && u.byPreempt).length

/-- PREEMPT is raised, unless an earlier one is under way or the context area is full (R311). -/
def raisePreempt (s : State) (p subject : Nat) : State :=
  if !preemptUnderWay s p && preemptRoom s p 1 then addPending s p 1 subject else s

/-- A candidate of a view: its row and what it stands for. -/
abbrev Seen := ViewRow × Nat

def Cand.seen (c : Cand) : Seen := (c.row, c.subject)

/-- The first candidate that no other outranks. -/
def bestSeen : List Seen → Option Seen
  | [] => none
  | c :: r => match bestSeen r with
    | none => some c
    | some d => if outranks d.1 c.1 then some d else some c

/-- After a DISPATCH that dispatched nothing, over the candidates of its view (R311). -/
def afterNothing (s : State) (p : Nat) (view : List Seen) : State :=
  match bestSeen view with
  | none => s
  | some c =>
    let lower := (residentTeams s p).any fun u => !isPinned s u && match findTask s u.task with
      | some k => prioOf s k < c.1.getD 0 0
      | none => false
    if lower then raisePreempt s p c.2 else s

/-- The built-in DISPATCH over the current state; the view is that of the decision. -/
def builtinDispatch (s : State) (p : Nat) (view : List Seen) : State :=
  match bestSeen (((dispatchCands s p).take 64).map Cand.seen) with
  | none => s
  | some c => match commitDispatch s p c.2 none none with
    | some (true, s) => s
    | some (false, s) => afterNothing s p view
    | none => afterNothing s p view

/-- Whether the candidate that raised a PREEMPT would now fit: its next team, or every team of a pinned task (R311). -/
def raiserFits (s : State) (k : Task) : Bool :=
  (placeTeams s k (if k.pin then undispatched k else (undispatched k).take 1) (usesNow s) none none).isSome

/-- The team behind a PREEMPT that a pinned faulting team raised (R320). -/
def forcedRaiser (s : State) (id : Nat) : Option (Team × Task) :=
  (findTeam s id).bind fun u => (findTask s u.task).map fun k => (u, k)

/-- The raising candidate is staged where the stopped team makes room (R312): one that is a candidate still, within the bound
of R306; a pinned task only when the team is all that it has to dispatch (R34). LASTQ stays
(DESIGN CHOICE, log 65). -/
def stage (s : State) (p : Nat) (k : Task) (u : Team) : State :=
  match undispatched k with
  | [] => s
  | ix :: more =>
    if 2 ≤ k.pclass || (k.pin && !more.isEmpty) || !isCandidate s k || !imageRoom s p 1 then s
    else if (placeOn s (wantOf k k.caps) (usesNow (unseat s u)) u.chip).isNone then s
    else
      let mb := k.mbs.getD ix (Vector.replicate 8 0)
      let w : Team := { u with id := s.nextId, task := k.id, ix := ix, rep := 0, status := .staged, stopFor := .none, mb := mb, mbLaunch := mb
                               mig := false, since := s.mod.time, shadow := [], heldPages := [], log := [], mbLog := [], trapRec := none
                               votePos := endPos, suspect := none, starts := 0, agreedEnd := false, dbgHalt := false
                               home := u.chip, awaits := some u.id, moving := none }
      let s := modTask { s with teams := s.teams ++ [w], nextId := s.nextId + 1 } k.id fun k => { k with
        state := .running, restart := k.restart.filter (· != ix), next := max k.next (if k.restart.contains ix then 0 else ix + 1) }
      advanceQueue s p k.queue

/-- A committed PREEMPT stops the picked team, when the context area takes its images among the first NIMG (R306, R312). -/
def stopPicked (s : State) (p : Nat) (raiser : Nat) (u : Team) : State :=
  if !preemptRoom s p (preemptStops s p + (replicasOf s u).length) then s
  else
    let s := modPart (stopPair s u .preempt) p fun q => { q with preempts := q.preempts + 1 }
    match findTask s raiser with
    | some k => stage s p k u
    | none => s

/-- The unpinned resident team on an N-class chiplet that leaves for a pinned team which must migrate (R320). -/
def movableOnN (s : State) (p : Nat) : Option Team := (residentTeams s p).find? fun u => !isPinned s u && Config.nClass u.chip

/-- An unpinned team occupies an N-class chiplet of the partition (R320). -/
def occupiesN (s : State) (p : Nat) : Bool :=
  s.teams.any fun u => u.part == p && (u.status == .resident || u.status == .stopping) && !isPinned s u && Config.nClass u.chip

def builtinPreempt (s : State) (p raiser : Nat) : State :=
  let free := (residentTeams s p).filter fun u => !isPinned s u
  match findTask s raiser with
  | some k =>
    let prio (u : Team) : Nat := match findTask s u.task with | some j => prioOf s j | none => 0
    let lower := free.filter fun u => prio u < prioOf s k
    match lower.foldl (fun (b : Option Team) u => match b with
        | none => some u
        | some v => if prio u < prio v then some u else some v) none with
    | some u => stopPicked s p raiser u
    | none => s
  | none => match forcedRaiser s raiser with
    | none => s
    | some (_, k) => match movableOnN s p with
      | some w => stopPicked s p raiser w
      | none => if !occupiesN s p then endTask s k.id 0x09 0 else s

/-- Where an Understudy of a pair may go: the pair's class, or an N-class chiplet when it must; a domain that neither replica
uses; the lowest-numbered chiplet first (R13, R44, R415). -/
def understudyChips (s : State) (u : Team) (caps : Nat) : List Nat :=
  let pair := (replicasOf s u).filter fun w => w.rep < 2
  allChips.filter fun c => pair.all fun w => (caps.testBit 0 || Config.nClass c == Config.nClass w.home) && Config.domainOf c != Config.domainOf w.home

/-- Where a FAULT decision would place a team that waits: its replicas together, each with its place; an Understudy, of a vote
or on its own, as R415 gives. None: no room, or the team does not wait. -/
def faultPlaces (s : State) (k : Task) (u : Team) (t0 t1 : Option Nat) : Option (List Place) :=
  let caps := if u.status == .faultWait 4 then k.caps else teamCaps s k u
  match u.status with
  | .faultWait _ =>
    if u.rep == 2 then (placeFirst s (wantOf k caps) (usesNow s) ((understudyChips s u caps).filter (targets t0).contains)).map fun x => [x.1]
    else (placeTeam s k caps (usesNow s) t0 t1).map (·.1)
  | .voting => (placeFirst s (wantOf k k.caps) (usesNow s) ((understudyChips s u 0).filter (targets t0).contains)).map fun x => [x.1]
  | _ => none

/-- The first step at the end of a PREEMPT: the raising candidate would fit after all, or is one no more (R311). None: it
would not fit. -/
def preemptMoot (s : State) (p raiser : Nat) : Option State :=
  match findTask s raiser with
  | some k => if !isCandidate s k || raiserFits s k then some (wantDispatch s p) else none
  | none => match forcedRaiser s raiser with
    | some (u, k) => if !waitsFault s u || (faultPlaces s k u none none).isSome then some (wantDispatch s p) else none
    | none => some (wantDispatch s p)

/-- Teams of a task that a restart stops leave with their images; their mailboxes stay (R362). -/
def clearRestart (s : State) (k : Task) : State :=
  let mine := s.teams.filter fun u => u.task == k.id
  let s := mine.foldl (fun s u => modTask s k.id fun k => { k with mbs := k.mbs.set u.ix u.mb }) s
  let s := ((s.threads.filter fun t => t.task == k.id && t.live && !t.ended).map memberOf).foldl leaveAll s
  let s := cancelRecords s k.id
  dropThreads { s with teams := s.teams.filter fun u => u.task != k.id || u.status == .faultWait 4 } fun t => t.task == k.id

/-- A FAULT decision places its team. None: the output is refused, also for a bad second target of a team that is
not P2 (DESIGN CHOICE, log 64), or there is no room. -/
def commitFault (s : State) (u : Team) (t0 t1 : Option Nat) : Option State :=
  match findTask s u.task with
  | none => none
  | some k =>
    if !targetOk s u.part t0 || !targetOk s u.part t1 then none
    else (faultPlaces s k u t0 t1).map fun ps => match u.status with
      | .faultWait 4 =>
        let again := (List.range k.next).filter (· != u.ix)
        let s := { s with teams := s.teams.filter fun w => w.id != u.id }
        let k := { k with restart := again, endedTeams := [] }
        wantDispatch (dispatchTeams (modTask s k.id fun j => { j with restart := again, endedTeams := [] }) k [(u.ix, ps)]) u.part
      | .voting =>
        let s := modTeam s u.id fun u => { u with starts := u.starts + 1 }
        ps.foldl (fun s pl => dispatchTeam s k u.ix 2 pl u.mbLaunch) s
      | _ =>
        if u.rep == 2 then ps.foldl (fun s pl => seatTeam s u pl) s
        else (ps.zipIdx).foldl (fun s x =>
          match (replicasOf s u).find? fun w => w.rep == x.2 with
          | some w => seatTeam s w x.1
          | none => s) s

/-- A pinned team whose FAULT decision finds no room raises a PREEMPT, or ends its task when no unpinned team occupies an
N-class chiplet (R320). -/
def pinnedWaits (s : State) (u : Team) : State :=
  match findTask s u.task with
  | none => s
  | some k =>
    if !k.pin || (faultPlaces s k u none none).isSome then s
    else if !occupiesN s u.part then endTask s u.task 0x09 0
    else raisePreempt s u.part u.id

/-- The built-in FAULT decision. -/
def builtinFault (s : State) (u : Team) : State :=
  match commitFault s u none none with
  | some s => s
  | none => pinnedWaits s u

/-- The chiplets to which a REBALANCE pair moves a team: the one named, and for a P2 pair a second one for replica 1, by the
built-in placement (R314, R415). None: the named chiplet cannot take it. -/
def moveTargets (s : State) (k : Task) (u : Team) (chip : Nat) : Option (List Nat) :=
  let w := wantOf k (teamCaps s k u)
  if k.pclass == 2 then (placePair s w (usesNow s) [chip] allChips).map fun x => [x.1.chip, x.2.1.chip]
  else (placeOn s w (usesNow s) chip).map fun x => [x.1.chip]

/-- One pair of a REBALANCE output: the team, with its other replica, moves by a fabric message (R314, R316). None: the pair is
refused, as one is whose target is 15, which R245 and R248 give no meaning here (log 31). -/
def commitMove (s : State) (p id chip : Nat) : Option State :=
  match findTeam s id with
  | none => none
  | some u => match findTask s u.task with
    | none => none
    | some k =>
      if (u.status == .staged && u.moving.isNone || onList s u) && chip < 12 && targetOk s p (some chip) then
        (moveTargets s k u chip).map fun cs =>
          let s := (replicasOf s u).foldl (fun s w => modTeam s w.id fun w => { w with moving := cs[w.rep]? }) s
          let s := { s with fabric := s.fabric ++ [(id, chip)] }
          modPart s p fun q => { q with moves := q.moves + 1 }
      else none

/-! ### Running a decision -/

def countRefuse (s : State) (p : Nat) : State :=
  modPart s p fun q => { q with cueStat := { q.cueStat with refuse := if q.cueStat.refuse == 255 then 255 else q.cueStat.refuse + 1 } }

/-- The built-in policy decides (R250); the view is that of the decision. -/
def builtin (s : State) (p kind raiser : Nat) (view : List Seen) : State :=
  match kind with
  | 0 => builtinDispatch s p view
  | 1 => match preemptMoot s p raiser with
    | some s => s
    | none => builtinPreempt s p raiser
  | 2 => match findTeam s raiser with
    | some u => builtinFault s u
    | none => s
  | _ => s

/-- A decision starts: pending swaps take effect, the view is taken, and the cue program starts at its entry, or the
built-in policy decides at once (R238, R251, R254). -/
def startDecision (s : State) (p kind raiser : Nat) (cands : List Cand) : State :=
  let s := if (s.part p).cueStat.swapPend && kind != 0 then wantDispatch s p else s
  let s := modPart s p fun q =>
    if q.cueStat.swapPend then
      let n := q.cueStat.moreSwaps + 1
      let odd := n % 2 == 1
      { q with cueActive := if odd then q.cueStandby else q.cueActive, cueStandby := if odd then q.cueActive else q.cueStandby
               cueStat := { q.cueStat with swapPend := false, moreSwaps := 0, disabled := false, consec := 0, gen := q.cueStat.gen + BitVec.ofNat 8 n } }
    else q
  let q := s.part p
  let entry := match q.cueActive with | some c => c.entries.getD kind 0xFFFF | none => 0xFFFF
  match q.cueActive with
  | none => builtin s p kind raiser ((cands.take 64).map Cand.seen)
  | some prog =>
    let seen := cands.take 64
    if q.cueStat.disabled || entry == 0xFFFF then builtin s p kind raiser (seen.map Cand.seen)
    else
      let uses := usesNow s
      let run : CueRun := { CueRun.idle with
        active := true, kind := kind, pc := entry, code := prog.code, cands := seen.map (·.row), subjects := seen.map (·.subject)
        chips := allChips.map (chipRow s p), globs := globRow s p kind seen.length (cands.length - seen.length), raiser := raiser
        fits := seen.map fun c => allChips.map fun chip =>
          if (chipRow s p chip).getD 7 0 == 0 || chipRetired s chip then 0 else fitCount s c.want chip 64 uses }
      modPart s p fun q => { q with run := run, cueStat := { q.cueStat with decisions := q.cueStat.decisions + 1 } }

/-- The output of a cue program at stop (R245, R248). -/
def commitRun (s : State) (p : Nat) : State :=
  let r := (s.part p).run
  let s := modPart s p fun q => { q with run := CueRun.idle, cueStat := { q.cueStat with consec := 0 } }
  let subject := match r.picked with | some c => r.subjects[c.toNat]? | none => none
  let tgt (k : Nat) : Option Nat := (r.places[k]?).map fun x => x.2.toNat
  let view := r.cands.zip r.subjects
  let refuse := builtin (countRefuse s p) p r.kind r.raiser view
  match r.kind with
  | 0 => match r.picked with
    | none => afterNothing s p view
    | some _ => match subject with
      | none => refuse
      | some id => match commitDispatch s p id (tgt 0) (tgt 1) with
        | some (true, s) => s
        | some (false, s) => afterNothing s p view
        | none => refuse
  | 1 => match preemptMoot s p r.raiser with
    | some s => s
    | none => match r.picked with
      | none => s
      | some _ => match subject.bind (findTeam s) with
        | some u => if u.status == .resident && !isPinned s u then stopPicked s p r.raiser u else refuse
        | none => refuse
  | 2 => match r.picked with
    | none => match findTeam s r.raiser with
      | some u => pinnedWaits s u
      | none => s
    | some c =>
      if c != 0 then refuse
      else match findTeam s r.raiser with
        | none => refuse
        | some u => match commitFault s u (tgt 0) (tgt 1) with
          | some s => s
          | none => refuse
  | _ => r.places.foldl (fun s x => match r.subjects[x.1.toNat]? with
      | none => countRefuse s p
      | some id => match commitMove s p id x.2.toNat with
        | some s => s
        | none => countRefuse s p) s

end Sys2Proof.Machine
end

