-- ==== Sys2Proof/Machine/Cue.lean ====
section
/-!
DEFINITION. Cue bytecode (R237-R251): the operations, each on the decision of the partition State.curPart, the budget, and
the output at stop. The events that raise and start decisions are in Decide.lean.
-/

namespace Sys2Proof.Machine

/-- The decision that runs. -/
def State.run (s : State) : CueRun := (s.part s.curPart).run

def modRun (s : State) (f : CueRun → CueRun) : State := modPart s s.curPart fun q => { q with run := f q.run }

/-- The decision has overrun: its output is dropped, and the built-in policy decides (R249, R251). -/
def overrun (s : State) : State :=
  let p := s.curPart
  let r := s.run
  let s := modPart s p fun q =>
    let n := q.cueStat.consec + 1
    { q with run := CueRun.idle
             cueStat := { q.cueStat with overrun := if q.cueStat.overrun == 255 then 255 else q.cueStat.overrun + 1, consec := n
                                         disabled := q.cueStat.disabled || decide (16 ≤ n.toNat) } }
  builtin s p r.kind r.raiser (r.cands.zip r.subjects)

/-- An operation of a cost in C-cycles starts when the budget lets it; `steps` is 0 for pfx (R239, R249). -/
def cueOp (s : State) (cost spent steps : Nat) (k : State → State) : Result :=
  .next (
    if !s.run.active then s
    else if 256 ≤ s.run.steps || 512 < s.run.cycles + cost then overrun s
    else k (modRun s fun r => { r with steps := r.steps + steps, cycles := r.cycles + spent }))

/-- An operation that goes on at the next slot. -/
def cueNextSlot (s : State) : State := modRun s fun r => { r with pc := r.pc + 1, prefixed := none }

def readC (s : State) (a : CReg) : Word32 := nth s.run.c a.toNat 0
def writeC (s : State) (d : CReg) (v : Word32) : State := modRun s fun r => { r with c := upd r.c d.toNat v }

/-- The immediate as an unsigned number, and sign-extended to 32 bits (R241). -/
def immU (s : State) (i : BitVec 5) : Nat := match s.run.prefixed with | none => i.toNat | some p => p.toNat * 32 + i.toNat
def immS (s : State) (i : BitVec 5) : Word32 :=
  match s.run.prefixed with
  | none => i.signExtend 32
  | some p => (p ++ i : BitVec 16).signExtend 32

/-- An operation that computes cD in one C-cycle. -/
def cueAlu (d : CReg) (v : State → Word32) (s : State) (cost : Nat := 1) : Result :=
  cueOp s cost cost 1 fun s => cueNextSlot (writeC s d (v s))

/-- A branch (R242). -/
def cueBranch (c : State → Bool) (i : BitVec 5) (s : State) : Result :=
  cueOp s 1 1 1 fun s => if c s then modRun s fun r => { r with pc := r.pc + immU s i, prefixed := none } else cueNextSlot s

/-- CUE_PFX: supplies IMM11; the pair with the next instruction takes 2 C-cycles (R241). -/
def execCuePfx (i : BitVec 11) (s : State) : Result :=
  cueOp s 2 1 0 fun s => modRun s fun r => { r with pc := r.pc + 1, prefixed := some i }

def execCueMov (d a : CReg) (s : State) : Result := cueAlu d (fun s => readC s a) s
def execCueLi (d : CReg) (i : BitVec 5) (s : State) : Result := cueAlu d (fun s => immS s i) s
def execCueAdd (d a b : CReg) (s : State) : Result := cueAlu d (fun s => readC s a + readC s b) s
def execCueAddi (d a : CReg) (i : BitVec 5) (s : State) : Result := cueAlu d (fun s => readC s a + immS s i) s
def execCueSub (d a b : CReg) (s : State) : Result := cueAlu d (fun s => readC s a - readC s b) s
def execCueAnd (d a b : CReg) (s : State) : Result := cueAlu d (fun s => readC s a &&& readC s b) s
def execCueOr (d a b : CReg) (s : State) : Result := cueAlu d (fun s => readC s a ||| readC s b) s
def execCueXor (d a b : CReg) (s : State) : Result := cueAlu d (fun s => readC s a ^^^ readC s b) s
def execCueShl (d a : CReg) (n : BitVec 5) (s : State) : Result := cueAlu d (fun s => readC s a <<< n.toNat) s
def execCueShr (d a : CReg) (n : BitVec 5) (s : State) : Result := cueAlu d (fun s => readC s a >>> n.toNat) s
def execCueMin (d a b : CReg) (s : State) : Result :=
  cueAlu d (fun s => if (readC s b).ult (readC s a) then readC s b else readC s a) s
def execCueMax (d a b : CReg) (s : State) : Result :=
  cueAlu d (fun s => if (readC s a).ult (readC s b) then readC s b else readC s a) s
def execCueSlt (d a b : CReg) (s : State) : Result := cueAlu d (fun s => if (readC s a).ult (readC s b) then 1 else 0) s
def execCueSeq (d a b : CReg) (s : State) : Result := cueAlu d (fun s => if readC s a == readC s b then 1 else 0) s
def execCueMul (d a b : CReg) (s : State) : Result := cueAlu d (fun s => readC s a * readC s b) s

def execCueBeq (d a : CReg) (i : BitVec 5) (s : State) : Result := cueBranch (fun s => readC s d == readC s a) i s
def execCueBne (d a : CReg) (i : BitVec 5) (s : State) : Result := cueBranch (fun s => readC s d != readC s a) i s
def execCueBlt (d a : CReg) (i : BitVec 5) (s : State) : Result := cueBranch (fun s => (readC s d).ult (readC s a)) i s
def execCueBge (d a : CReg) (i : BitVec 5) (s : State) : Result := cueBranch (fun s => !(readC s d).ult (readC s a)) i s
def execCueJmp (i : BitVec 5) (s : State) : Result := cueBranch (fun _ => true) i s

/-- CUE_EACH: opens an iteration over the candidates (sel 0) or the chiplets (sel 1) (R243). -/
def execCueEach (d : CReg) (sel : Bool) (i : BitVec 5) (s : State) : Result :=
  cueOp s 1 1 1 fun s =>
    let m := if sel then 12 else s.run.cands.length
    if m == 0 then modRun s fun r => { r with pc := r.pc + immU s i, prefixed := none }
    else cueNextSlot (modRun (writeC s d 0) fun r => { r with trips := m, start := r.pc + 1 })

/-- CUE_NEXT: closes an iteration, looping back while trips remain (R243). Reached with no iteration open, through an entry slot
inside a body, it counts down nothing and goes on: the model's choice (log 31). -/
def execCueNext (d : CReg) (s : State) : Result :=
  cueOp s 1 1 1 fun s =>
    let s := modRun (writeC s d (readC s d + 1)) fun r => { r with trips := r.trips - 1 }
    if 0 < s.run.trips then modRun s fun r => { r with pc := r.start, prefixed := none } else cueNextSlot s

/-- What a field of the view reads as: saturated, all ones outside the view (R244). -/
def viewField (rows : List ViewRow) (k f : Nat) : Word32 :=
  match rows[k]? with
  | some r => BitVec.ofNat 32 (sat32 (r.getD f 0))
  | none => 0xFFFFFFFF

/-- CUE_VGET: field f of candidate cA (R244, R246). -/
def execCueVget (d a : CReg) (f : BitVec 5) (s : State) : Result :=
  cueAlu d (fun s => viewField s.run.cands (readC s a).toNat f.toNat) s 2

/-- FIT of a chiplet for the candidate PICKED (R247). -/
def fitField (r : CueRun) (chip : Nat) : Nat :=
  match r.picked with
  | none => 0
  | some c => match r.fits[c.toNat]? with
    | some l => l.getD chip 0
    | none => 0

/-- CUE_CGET: field f of chiplet cA (R244, R247). -/
def execCueCget (d a : CReg) (f : BitVec 5) (s : State) : Result :=
  cueAlu d (fun s =>
    let k := (readC s a).toNat
    if f.toNat == 4 && k < 12 then BitVec.ofNat 32 (sat32 (fitField s.run k)) else viewField s.run.chips k f.toNat) s 2

/-- CUE_VGLOB: field f of the decision (R244, R247). -/
def execCueVglob (d : CReg) (f : BitVec 5) (s : State) : Result :=
  cueAlu d (fun s => if f.toNat == 7 then s.run.picked.getD 0xFFFFFFFF else BitVec.ofNat 32 (sat32 (s.run.globs.getD f.toNat 0))) s 2

/-- CUE_PICK (R245). -/
def execCuePick (a : CReg) (s : State) : Result :=
  cueOp s 1 1 1 fun s => cueNextSlot (modRun s fun r => { r with picked := some (nth r.c a.toNat 0) })

/-- CUE_PLACE: appends (PICKED, cA); a ninth pair is ignored (R245). -/
def execCuePlace (a : CReg) (s : State) : Result :=
  cueOp s 1 1 1 fun s => cueNextSlot (modRun s fun r =>
    if r.places.length < 8 then { r with places := r.places ++ [(r.picked.getD 0xFFFFFFFF, nth r.c a.toNat 0)] } else r)

/-- CUE_DENY: the decision ends with no action, and its reason is logged (R245, R251). A DISPATCH that ends so has dispatched
nothing (R311), and a FAULT has placed nothing (R320). -/
def execCueDeny (n : BitVec 5) (s : State) : Result :=
  cueOp s 1 1 1 fun s =>
    let p := s.curPart
    let r := s.run
    let s := modPart s p fun q => { q with run := CueRun.idle, cueStat := { q.cueStat with consec := 0 }, decisionLog := q.decisionLog ++ [n.toNat] }
    match r.kind with
    | 0 => afterNothing s p (r.cands.zip r.subjects)
    | 2 => match findTeam s r.raiser with
      | some u => pinnedWaits s u
      | none => s
    | _ => s

/-- CUE_STOP: the decision ends, and its output is checked and committed (R245, R248, R251). -/
def execCueStop (s : State) : Result := cueOp s 1 1 1 fun s => commitRun s s.curPart

/-- The operation at the decision's slot (R239); a checked image holds no other halfword (R253). -/
def cueFetch (r : CueRun) : Option Instr :=
  match r.active, decodeCue (r.code.getD r.pc 0) with
  | true, .ok i => some i
  | _, _ => none

end Sys2Proof.Machine
end

