-- ==== Sys2Proof/Machine/Decide.lean ====
section
/-!
DEFINITION. Events that raise and start decisions: DISPATCH, PREEMPT, FAULT, REBALANCE, REBAL_PERIOD and STARVE_TIMEOUT (R237,
R309-R311, R315-R317, R322, R362); and which suspended team resumes next (R315).
-/

namespace Sys2Proof.Machine

/-- Scheduling goes on in a partition: the module runs, is not too hot, and no freeze holds it (R353, R354, R396). -/
def scheduling (s : State) (p : Nat) : Bool :=
  (s.part p).present && !(s.part p).frozen && s.mod.power == .ps0 && !s.mod.inReset && !s.mod.hot && !s.mod.tripped

/-! ### The resume list (R315) -/

/-- The resume list of a partition, by PRIO and then by suspension time. -/
def resumeList (s : State) (p : Nat) : List Team :=
  let prio (u : Team) : Nat := match findTask s u.task with | some k => prioOf s k | none => 0
  (s.teams.filter fun u => u.part == p && onList s u).mergeSort fun a b =>
    prio b < prio a || (prio a == prio b && a.since ≤ b.since)

/-- The home chiplet first, then every chiplet in ascending order. -/
def homeFirst (u : Team) : List Nat := if u.home < Config.chiplets then u.home :: allChips else allChips

/-- Where a suspended team resumes: its home when it fits there, else the lowest-numbered chiplet; a pair together, under
R13; an Understudy in a domain of its own (R314, R315, R368); the survivor of a local failure beside the suspect's home (R372). -/
def resumePlaces (s : State) (u : Team) : Option (List (Team × Place)) :=
  match findTask s u.task with
  | none => none
  | some k =>
    let w := wantOf k (teamCaps s k u)
    let uses := usesNow s
    if k.pclass != 2 then (placeFirst s w uses (homeFirst u)).map fun x => [(u, x.1)]
    else
      let reps := replicasOf s u
      if u.rep == 2 then
        (placeFirst s w uses ((homeFirst u).filter (understudyChips s u w.caps).contains)).map fun x => [(u, x.1)]
      else match reps.find? (fun v => v.rep + u.rep == 1) with
        | none => none
        | some v => if v.status == .voting then (placeFirst s w uses ((homeFirst u).filter (partners v.home).contains)).map fun x => [(u, x.1)]
          else (homeFirst u).findSome? fun c => match placeOn s w uses c with
          | none => none
          | some (a, uses) => (placeFirst s w uses ((homeFirst v).filter (partners c).contains)).map fun x => [(u, a), (v, x.1)]

/-- Where a staged team whose stop has completed becomes resident: on its chiplet, beside everything that is there now (R312); the old
one, while the message of a move is on its way (R316, log 31). -/
def stagedPlace (s : State) (u : Team) : Option (Task × Place) :=
  if u.status == .staged && u.awaits.isNone then
    (findTask s u.task).bind fun k =>
      let bare := { s with teams := s.teams.filter fun w => w.id != u.id }
      (placeOn bare (wantOf k k.caps) (usesNow bare) u.chip).map fun x => (k, x.1)
  else none

/-- A staged team whose stop has completed can take its room now (R317). -/
def stagedFree (s : State) (p : Nat) : Bool := s.teams.any fun u => u.part == p && (stagedPlace s u).isSome

/-- The first team of the list that fits (R315). -/
def nextResume (s : State) (p : Nat) : Option (Team × List (Team × Place)) :=
  (resumeList s p).findSome? fun u => (resumePlaces s u).map fun ps => (u, ps)

/-! ### Pending decisions -/

/-- The team of a pending FAULT has come to wait; for a restart, every other team of its task has stopped (R362). -/
def faultReady (s : State) (u : Team) : Bool :=
  waitsFault s u && (u.status != .faultWait 4 || !s.teams.any fun w => w.task == u.task && (w.status == .resident || w.status == .stopping))

/-- A pending decision may start. -/
def pendingReady (s : State) (d : Pending) : Bool :=
  d.kind != 2 || match findTeam s d.subject with
    | some u => faultReady s u
    | none => false

/-- The oldest pending decision of a kind that may start. -/
def firstPending (s : State) (p kind : Nat) : Option Pending :=
  (s.part p).pending.find? fun d => d.kind == kind && pendingReady s d

/-- The order of kinds: FAULT, PREEMPT, DISPATCH, REBALANCE (R237). -/
def kindRank (k : Nat) : Nat := match k with | 2 => 0 | 1 => 1 | 0 => 2 | _ => 3

/-- The pending decision of a kind that starts now: none of a kind before it is ready, no decision of the partition runs, and
a DISPATCH comes after the resume list (R237, R317). -/
def startable (s : State) (p kind : Nat) : Option Pending :=
  if !scheduling s p || (s.part p).run.active then none
  else if [0, 1, 2, 3].any fun k => decide (kindRank k < kindRank kind) && (firstPending s p k).isSome then none
  else if kind == 0 && (stagedFree s p || (nextResume s p).isSome) then none
  else firstPending s p kind

def dropPending (s : State) (p : Nat) (d : Pending) : State :=
  modPart s p fun q => { q with pending := q.pending.erase d }

/-! ### The events -/

/-- DISPATCH: decides which team dispatches next, and where (R246, R310). Without a candidate none is raised (R309). -/
def execDispatch (part : Nat) (s : State) : Result :=
  .next (match startable s part 0 with
    | none => s
    | some d =>
      let s := dropPending s part d
      let cands := dispatchCands s part
      if cands.isEmpty then s else startDecision s part 0 0 cands)

/-- PREEMPT: decides which resident team stops for the candidate that raised it (R311, R312). -/
def execPreempt (part : Nat) (s : State) : Result :=
  .next (match startable s part 1 with
    | none => s
    | some d =>
      let s := dropPending s part d
      startDecision s part 1 d.subject ((residentTeams s part).filterMap fun u => candTeam s u 2 u.chip 0))

/-- FAULT: decides where a team that waits goes (R245, R318-R322, R362, R368). -/
def execFault (part : Nat) (s : State) : Result :=
  .next (match startable s part 2 with
    | none => s
    | some d =>
      let s := dropPending s part d
      match findTeam s d.subject with
      | none => s
      | some u => match findTask s u.task with
        | none => s
        | some k =>
          if (teamCaps s k u).testBit 0 && !hasN s part then endTask s k.id 0x09 0
          else
            let s := if u.status == .faultWait 4 then clearRestart s k else s
            startDecision s part 2 u.id ((candTeam s u 4 15 (fneedOf u)).toList))

/-- REBALANCE: moves waiting teams between chiplets (R316). -/
def execRebalance (part : Nat) (s : State) : Result :=
  .next (match startable s part 3 with
    | none => s
    | some d =>
      let s := dropPending s part d
      startDecision s part 3 0 (rebalCands s part))

/-- REBAL_PERIOD: at most every REBAL microseconds, while a chiplet is overloaded (R237, R309). -/
def execRebalPeriod (part : Nat) (s : State) : Result :=
  .next (
    let q := s.part part
    if scheduling s part && q.rebal != 0 && q.rebal ≤ micros s q.lastRebal && allChips.any (overloaded s part) then
      addPending (modPart s part fun q => { q with lastRebal := s.mod.time }) part 3 0
    else s)

/-- STARVE_TIMEOUT: a queue head among the DISPATCH candidates is older than STARVE (R311). -/
def execStarveTimeout (part : Nat) (s : State) : Result :=
  .next (
    let q := s.part part
    let old := (dispatchCands s part).filter fun c => c.row.getD 7 0 == 0 && q.starve * 1000 < c.row.getD 1 0
    match bestSeen (old.map Cand.seen) with
    | none => s
    | some c => if scheduling s part && q.starve != 0 then raisePreempt s part c.2 else s)

end Sys2Proof.Machine
end

