-- ==== Sys2Proof/Machine/Stop.lean ====
section
/-!
DEFINITION. Stopping a team, resuming it, and moving it: STOP, STOP_COMPLETE, TEAM_RESUME and MOVE_MESSAGE; the end of a task, TASK_END (R312, R314-R321,
R362, R368, R372, R385-R388, R394).
-/

namespace Sys2Proof.Machine

/-- The record was pushed by a thread of the team. -/
def EngRec.ofTeam (r : EngRec) (u : Team) : Bool := r.owner.1 == u.task && r.owner.2.1 == u.ix

/-- A stop of the team takes the record from its queue. -/
def leavesQueue (u : Team) (r : EngRec) : Bool :=
  r.ofTeam u && r.eng != 40 && (r.status == .queued || r.status == .running) && !(u.stopFor == .discard && r.begun)

/-- STOP: the request reaches the chiplet. The stagehand records of the team leave their queues into the image (R385 step 4,
R206); a task that is being ended keeps its started records running (R322, R382). -/
def execStop (team : Nat) (s : State) : Result :=
  .next (match findTeam s team with
    | none => s
    | some u =>
      if u.status != .stopping || u.rep == 1 then s
      else { s with eng := s.eng.map fun r => if leavesQueue u r then { r with status := .imaged } else r })

/-- Everything of the thread that a stop waits for has happened (R385 steps 2 and 3, R388): a store waits for no command that the stop
leaves in its queue (R121), and what a pair has begun to perform completes. -/
def threadDrained (t : Thread) : Bool :=
  t.qs.loads.isEmpty && t.qs.xfers.all (·.faulted) && !t.storeNow && t.trap.all (deferred t) && t.walk.isEmpty
    && t.pf.isEmpty && t.wait != .drain && !midway t .execute && !midway t .access

/-- Records of the team have left their queues (R385 step 4). -/
def recordsOut (s : State) (u : Team) : Bool := s.eng.all fun r => !leavesQueue u r

/-- The team has drained. -/
def teamDrained (s : State) (u : Team) : Bool :=
  u.status == .stopping && (threadsOf s u).all threadDrained && recordsOut s u

/-- A stream of the thread stands at a yield: issue stops there, and the team resumes after it (R235). -/
def atYield (s : State) (t : Thread) (st : Stream) : Bool :=
  let x := t.st st
  !x.ended && !x.stopped && !t.ended && !t.halted && match focus s t.tid with
    | some s => fetch { s with cur := st } == .yield
    | none => false

/-- The thread leaves its core with its image: locks of stopped transfers, and the values that watches have brought, are gone (R118,
R198); a cause that waits for its pair (R223) and the mbputs that wait to take effect (R94) stay with the thread (log 43). -/
def cutThread (s : State) (t : Thread) : Thread :=
  let t := if atYield s t .execute then t.advance .execute 1 else t
  let t := if atYield s t .access then t.advance .access 1 else t
  { t with resident := false, lockWait := none, qs := { t.qs with xfers := [] }
           wait := match t.wait with | .swait pa ea v _ => .swait pa ea v none | w => w }

/-- Where a stopped team stands (R315, R318, R321, R362, R368, R372, R396). -/
def stoppedStatus (s : State) (u : Team) : TeamStatus :=
  match u.stopFor with
  | .fault n => .faultWait n
  | .vote => .voting
  | .restart => match findTask s u.task with
    | some k => if k.restart.head? == some u.ix then .faultWait 4 else .suspended
    | none => .suspended
  | _ => .suspended

/-- The image of one team is cut, and its room is free. -/
def cutTeam (s : State) (u : Team) : State :=
  let tids := (threadsOf s u).map (·.tid)
  let s := tids.foldl unarm (lineUp s)
  let s := mapThreads s fun t => if t.team == u.id then cutThread s t else t
  modTeam s u.id fun u => { u with status := stoppedStatus s u, badImage := false, stopFor := .none, byPreempt := false, since := s.mod.time, home := u.chip, classN := Config.nClass u.chip }

/-- A staged team becomes resident on its chiplet, cleared (R39, R312). None: its stop is not complete, or its room is not there. -/
def seatStaged (s : State) (u : Team) : Option State :=
  (stagedPlace s u).map fun x =>
    let s := modTeam s u.id fun u => { u with status := .resident, since := s.mod.time, home := u.chip, moving := none }
    let u := { u with status := .resident }
    (x.2.cores.zipIdx).foldl (fun s y => { s with others := s.others ++ [newThread s x.1 u y.2 y.1], nextId := s.nextId + 1 }) s

/-- A staged team that a freeze stops has the image of a team just dispatched (R306, R396). -/
def freezeStaged (s : State) (u : Team) : State :=
  match findTask s u.task with
  | none => s
  | some k =>
    let s := modTeam s u.id fun u => { u with status := .suspended, since := s.mod.time, awaits := none, moving := none, home := u.chip, classN := Config.nClass u.chip }
    (List.range k.img.threads).foldl (fun s x =>
      { s with others := s.others ++ [{ newThread s k u x 0 with resident := false }], nextId := s.nextId + 1 }) s

/-- Teams staged behind a stop that has completed take their room (R312). -/
def seatWaiting (s : State) (id : Nat) : State :=
  (s.teams.filter fun u => u.status == .staged && u.awaits == some id).foldl (fun s u =>
    let s := modTeam s u.id fun u => { u with awaits := none }
    if scheduling s u.part then (seatStaged s { u with awaits := none }).getD s else s) s

/-- What the Stage Manager does about a team whose image is cut. -/
def afterCut (s : State) (u : Team) : State :=
  match findTeam s u.id with
  | none => s
  | some w => match w.status with
    | .faultWait _ => if w.rep == 1 then s else addPending s w.part 2 w.id
    | .voting => if !allVoting s w then s else match primaryOfTeam s w with
      | some p => if 65536 ≤ p.log.length then endTask s w.task 0x0E (w.ix * 256 + voteCause s p) else addPending s w.part 2 p.id
      | none => s
    | _ => s
where
  /-- Replica 0 of a pair. -/
  primaryOfTeam (s : State) (w : Team) : Option Team := (replicasOf s w).find? fun v => v.rep == 0

/-- STOP_COMPLETE: the image is written and the room is freed; both replicas of a pair together (R385), but for one that has stopped for a
vote before (R372). A staged team becomes
resident, and the waiting work is served (R312, R317). -/
def execStopComplete (team : Nat) (s : State) : Result :=
  .next (match findTeam s team with
    | none => s
    | some u =>
      let group := if u.rep == 2 then [u] else (replicasOf s u).filter fun w => w.rep < 2 && w.status != .voting
      if !group.all (teamDrained s) then s
      else
        let s := group.foldl cutTeam s
        let s := group.foldl (fun s w => seatWaiting s w.id) s
        roomChanged (group.foldl afterCut s) u.part)

/-- The cue program of a FAULT decision runs: the room is its first (R317). -/
def faultRuns (s : State) (p : Nat) : Bool := (s.part p).run.active && (s.part p).run.kind == 2

/-- The Stage Manager serves a team that waits for room, in the order of R317: it resumes when it is the first of the resume list that fits
and nothing before the list waits; a staged team whose stop has completed comes first. -/
def serveTeam (s : State) (team : Nat) : State :=
  match findTeam s team with
  | none => s
  | some u =>
    if !scheduling s u.part || (firstPending s u.part 2).isSome || faultRuns s u.part then s
    else if u.status == .staged then (seatStaged s u).getD s
    else if stagedFree s u.part then s
    else match nextResume s u.part with
      | none => s
      | some (w, ps) => if w.id == u.id then ps.foldl (fun s x => seatTeam s x.1 x.2) s else s

/-- TEAM_RESUME: the first team of the resume list that fits resumes; a staged team whose stop has completed comes first
(R315, R317, R387). -/
def execTeamResume (team : Nat) (s : State) : Result :=
  .next (serveTeam s team)

/-- A team that moves, or both replicas of a pair, are at their targets (R314, R316): a staged one waits there for no stop. MIG is set when
it resumes (R394). -/
def teamArrives (s : State) (u : Team) : State :=
  (replicasOf s u).foldl (fun s w => match w.moving with
    | none => s
    | some c => modTeam s w.id fun w => { w with home := c, moved := c != w.home || w.moved, chip := if w.status == .staged then c else w.chip, awaits := none, moving := none }) s

/-- MOVE_MESSAGE: the fabric message of a REBALANCE move arrives, the oldest of those that the Stage Manager has sent to its
chiplet, over the lit route (R316, R349). The target is the team's home, and R317 serves the team there; a team that has gone, ended or
become resident takes no notice. -/
def execMoveMessage (team : Nat) (s : State) : Result :=
  .next (match s.fabric.find? fun m => m.1 == team with
    | none => s
    | some m =>
      if (s.fabric.find? fun n => n.2 == m.2) != some m || (route s Config.ioDie m.2).isNone then s
      else
        let s := { s with fabric := s.fabric.erase m }
        match findTeam s team with
        | none => s
        | some u => serveTeam (roomChanged (teamArrives s u) u.part) team)

/-! ### The end of a task (R336, R362, R367, R370, R382) -/

/-- Everything of a task leaves: teams, threads, and the record completes with its actions (R336); the next task of its queue
becomes the head (R36). -/
def closeTask (s : State) (k : Task) (st : Status) : State :=
  let frames := (s.teams.filter fun u => u.task == k.id).foldl (fun n u => n + u.shadow.length) 0
  let s := modPart s k.part fun q => { q with usedFrames := q.usedFrames - frames, pending := q.pending.filter fun d =>
      !(d.kind == 2 && s.teams.any fun u => u.id == d.subject && u.task == k.id) }
  let members := (s.threads.filter fun t => t.task == k.id && t.live && !t.ended).map memberOf
  let s := members.foldl leaveAll s
  let s := dropThreads { s with teams := s.teams.filter fun u => u.task != k.id } fun t => t.task == k.id
  let s := modTask s k.id fun k => { k with state := .ended, watch := none }
  let s := { s with recs := s.recs.filter fun r => r.id != k.record || k.troupe, tasks := s.tasks.filter fun j => j.id != k.id }
  let s := roomChanged (releaseCopy (completionActions s k.launch k.conn st) k.part k.img) k.part
  if k.troupe then s else advanceQueue s k.part k.queue

/-- TIME at which a team trapped last; a team that has not comes after every other. -/
def trapTime (u : Team) : Nat × Nat := match u.trapRec with | some r => (0, r.time) | none => (1, 0)

/-- The replica that trapped first of two. -/
def firstTrapped (a b : Team) : Team :=
  let x := trapTime a
  let y := trapTime b
  if y.1 < x.1 || (x.1 == y.1 && y.2 < x.2) then b else a

/-- The trap image that a task ended by a trap leaves: of the replicas that a trap has halted the one that trapped first (R382). -/
def keepTrapImage (s : State) (k : Task) (ix : Nat) : State :=
  let hit := s.teams.filter fun u => u.task == k.id && u.ix == ix && u.trapRec.isSome && s.threads.any fun t => t.team == u.id && t.live && t.halted
  match hit.head?.map fun u => hit.foldl firstTrapped u with
  | none => s
  | some u => modPart s k.part fun q => { q with trapImage := some (u, k, s.threads.filter fun t => t.team == u.id && t.live) }

/-- TASK_END: a running task whose teams have all ended completes DONE; a task that the firmware or the Stage Manager ends
first has its teams stopped and their images discarded, then completes with its status (R322, R336, R367, R370, R382). -/
def execTaskEnd (task : Nat) (s : State) : Result :=
  .next (match findTask s task with
    | none => s
    | some k =>
      match k.state with
      | .running => if k.endedTeams.length == k.nteams && !actionsHeld s k.launch then closeTask (commitPages s k) k Status.done else s
      | .ending code detail =>
        let mine := s.teams.filter fun u => u.task == k.id
        if mine.any fun u => u.status == .resident || u.status == .stopping then
          mine.foldl (fun s u => modTeam s u.id fun u => match u.status with
            | .resident | .stopping => { u with status := .stopping, stopFor := .discard, dbgHalt := false }
            | _ => u) s
        else if actionsHeld s k.launch then s
        else
          let s := if code == 0x0A then keepTrapImage s k (detail / 256) else s
          closeTask (if code == 0x0E then discardRecords s k.id else cancelRecords s k.id) k { code := code, detail := if code == 0x02 then 0 else detail, bytes := 0, faddr := if code == 0x02 then detail else 0 }
      | _ => s)

end Sys2Proof.Machine
end

