-- ==== Sys2Proof/Machine/Collect.lean ====
section
/-!
DEFINITION. What the stagehands and the collective engine do with their records: STAGEHAND_SEGMENT, RECORD_COMPLETION,
COLLECTIVE_RECORD_START, COLLECTIVE_FRAME, HOLD_FRAME, HOLD_TIMER, COLLECTIVE_TIMEOUT and COLLECTIVE_ABORT (R183-R193, R296,
R358, R377, R378, R384, R396).
-/

namespace Sys2Proof.Machine

def findEng (s : State) (id : Nat) : Option EngRec := s.eng.find? fun r => r.id == id

def modEng (s : State) (id : Nat) (f : EngRec → EngRec) : State :=
  { s with eng := s.eng.map fun r => if r.id == id then f r else r }

/-- No earlier record of the partition's queue is still there (R184); pool records have no order. -/
def isHead (s : State) (r : EngRec) : Bool :=
  r.eng == 0 || !s.eng.any fun x => x.part == r.part && x.eng == r.eng && x.status != .held && x.status != .imaged && x.seq < r.seq

/-- The engines take records of the partition: the module runs; a freeze holds what has not started (R353, R396). -/
def engineServes (s : State) (r : EngRec) : Bool :=
  (s.part r.part).present && s.mod.power == .ps0 && !s.mod.inReset && !s.mod.tripped && (!(s.part r.part).frozen || r.begun)

/-- The record has ended with a code; its completion actions are due (R193). -/
def endRecord (s : State) (id code detail bytes faddr : Nat) : State :=
  modEng s id fun r => { r with status := .done, code := code, detail := detail, bytes := bytes, faddr := BitVec.ofNat 64 faddr }

/-! ### Stagehands (R186-R188) -/

/-- The operands of COPY, COPY2D and FILL as one shape: rows of a length, and the strides. -/
structure CopyShape where
  fill : Bool
  src : Nat
  dst : Nat
  rows : Nat
  len : Nat
  dstride : Nat
  sstride : Nat

def copyShape (w : List Word) : CopyShape :=
  let d := recDword w
  match recKind w with
  | 2 => { fill := false, src := d 1, dst := d 2, rows := bitsOf (d 3) 32 32, len := bitsOf (d 3) 0 32
           dstride := bitsOf (d 4) 32 32, sstride := bitsOf (d 4) 0 32 }
  | k => { fill := k == 3, src := d 1, dst := d 2, rows := 1, len := bitsOf (d 3) 0 48, dstride := 0, sstride := 0 }

def CopyShape.total (c : CopyShape) : Nat := c.rows * c.len

/-- Addresses of byte i of the order of R187. -/
def CopyShape.srcAt (c : CopyShape) (i : Nat) : Nat := c.src + i / c.len * c.sstride + i % c.len
def CopyShape.dstAt (c : CopyShape) (i : Nat) : Nat := c.dst + i / c.len * c.dstride + i % c.len

/-- The spans of the source and of the destination bytes overlap (R187). -/
def CopyShape.overlaps (c : CopyShape) : Bool :=
  let last (stride : Nat) := (c.rows - 1) * stride + c.len
  !c.fill && c.src < c.dst + last c.dstride && c.dst < c.src + last c.sstride

/-- The byte of PAT that FILL writes at an address (R187). -/
def patByte (pat a : Nat) : Byte := BitVec.ofNat 8 (bitsOf pat (8 * (a % 8)) 8)

/-- A unit that a virtual range touches is poisoned. -/
def poisonVirt (s : State) (p va n : Nat) : Bool :=
  match translatePart s p .load va n with
  | .ok pa _ => poisonedIn s pa n
  | _ => false

/-- From byte i of the order on, how many bytes lie side by side: a row, or all rows where each begins where the one before ends. -/
def CopyShape.run (c : CopyShape) (stride i : Nat) : Nat := if stride == c.len then c.total - i else c.len - i % c.len

/-- Source bytes read unit by unit until n of them, from place i of the order, are there; and the address that cannot be read. -/
def readAhead (c : CopyShape) (p n i : Nat) : Nat → State → List (Byte × Bool) → List (Byte × Bool) × Option Nat × State
  | 0, s, l => (l, none, s)
  | fuel + 1, s, l =>
    if n ≤ l.length then (l, none, s)
    else
      let j := i + l.length
      if c.fill then ((List.range n).map fun k => (patByte c.src (c.dstAt (i + k)), false), none, s)
      else
        let a := c.srcAt j
        let m := min (c.run c.sstride j) (64 - a % 64)
        match reachNow s p .load a m with
        | none => (l, some a, s)
        | some (pa, s) => readAhead c p n i fuel s (l ++ (readPhys s pa m).map fun b => (b, poisonedIn s pa m))

/-- The order from byte i on until byte e is passed, one unit of the destination at a time, each written whole, with source units
read whole (R187, R290, R296, log 25): how far it came, what it has read ahead, and the address that did not translate, before which
every byte is written (R188). The poison mark goes with the data (R358). -/
def copyRun (c : CopyShape) (p : Nat) : Nat → State → Nat → Nat → List (Byte × Bool) → Nat × List (Byte × Bool) × Option Nat × State
  | 0, s, i, _, l => (i, l, none, s)
  | fuel + 1, s, i, e, l =>
    if e ≤ i then (i, l, none, s)
    else
      let d := c.dstAt i
      let (l, hole, s) := readAhead c p (min (c.run c.dstride i) (64 - d % 64)) i 66 s l
      let n := min (min (c.run c.dstride i) (64 - d % 64)) l.length
      if n == 0 then (i, l, hole, s)
      else match reachNow s p .store d n with
        | none => (i, l, some d, s)
        | some (pa, s) =>
          if commitHolds s pa n then (i, l, none, s)
          else
            let s := carryPoison (writePhys s (some p) pa ((l.take n).map (·.1))) pa ((l.take n).any (·.2))
            match hole with
            | some a => (i + n, l.drop n, some a, s)
            | none => copyRun c p fuel s (i + n) e (l.drop n)

/-- A range of the zeroing list that no access translated before can reach any more (R283, R288). -/
def zeroable (s : State) (r : Nat × Nat) : Bool := !unitPending s fun pa => r.1 ≤ pa && pa < r.1 + r.2

/-- The firmware's stagehand queue writes zeros to a segment of the first range of the zeroing list that can have them; its frames go to
the pool (R188, R288). -/
def zeroFirst (s : State) : State :=
  match s.zeroing.find? (zeroable s) with
  | none => s
  | some (a, n) =>
    let m := min n 65536
    let left := s.zeroing.erase (a, n)
    poolRange { s with zeroing := if m == n then left else (a + m, n - m) :: left
                       mem := s.mem.filter fun c => c.1 < a || a + m ≤ c.1
                       poison := s.poison.filter fun u => u + 64 ≤ a || a + m ≤ u } a m

/-- A commit has frames to copy (R406). -/
def copiesDue (s : State) : Bool := s.parts.toList.any fun q => match q.domain.bind (·.commit) with | some c => !c.todo.isEmpty | none => false

/-- The firmware's own queue has something to do. -/
def firmwareDue (s : State) : Bool := s.zeroing.any (zeroable s) || copiesDue s

/-- A debugger that attached with STOPSH holds the records of a halted team at their segment boundary (R399). -/
def debugStops (s : State) (r : EngRec) : Bool :=
  (s.part r.part).stopSh && s.teams.any fun u => u.task == r.owner.1 && u.ix == r.owner.2.1 && u.dbgHalt

/-- The firmware's own queue: zeros for the zeroing list, and the copies of a commit (R288, R406). -/
def firmwareSegment (s : State) : State := if s.zeroing.any (zeroable s) then zeroFirst s else copyGranule s

/-- A stagehand could perform a segment of the record now. -/
def servable (s : State) (r : EngRec) : Bool :=
  r.eng != 40 && (r.status == .queued || r.status == .running) && isHead s r && engineServes s r && !debugStops s r && recordReady s r

/-- The partition whose queue of an engine number is served next: rotating from the one served last (R183). The firmware's own queue is
number 8 in the rotation of the stagehand pool (R288, log 25). -/
def nextServed (s : State) (e : Nat) : Option Nat :=
  let last := ((s.engLast.find? fun x => x.1 == e).map (·.2)).getD 8
  ((List.range 9).map fun k => (last + 1 + k) % 9).find? fun p =>
    if p == 8 then e == 0 && firmwareDue s else s.eng.any fun r => r.part == p && r.eng == e && servable s r

/-- The engine number has served a partition. -/
def noteServed (s : State) (e p : Nat) : State := { s with engLast := (e, p) :: s.engLast.filter fun x => x.1 != e }

/-- One segment of a record. One that has stopped on a translation fault goes on where its address can be reached now (R188, R384). -/
def performSegment (s : State) (r : EngRec) : State :=
  let c := copyShape r.words
  if r.faulted then
    match reach s r.part (if r.faddr.toNat == c.dstAt r.bytes then .store else .load) r.faddr.toNat 1 with
    | some (_, s) => modEng s r.id fun r => { r with faulted := false }
    | none => endRecord (logMalformed s r.part r.faddr.toNat) r.id 2 0 r.bytes r.faddr.toNat
  else if c.total == 0 then endRecord s r.id 1 0 0 0
  else if r.bytes == 0 && c.overlaps then endRecord s r.id 3 0 0 0
  else
    let e := min c.total ((r.bytes / 65536 + 1) * 65536)
    match copyRun c r.part 65537 s r.bytes e r.ahead with
    | (i, l, some a, s) => modEng s r.id fun r => { r with status := .queued, started := true, bytes := i, ahead := l, faulted := true, faddr := BitVec.ofNat 64 a }
    | (i, l, none, s) =>
      if i == c.total then endRecord s r.id 1 0 i 0
      else modEng s r.id fun r => { r with status := .running, started := true, bytes := i, ahead := l }

/-- STAGEHAND_SEGMENT: a stagehand takes a record, or goes on with one, and performs a segment of 65,536 bytes; it serves the
partitions' queues in rotating order, and stops at a translation fault, which the memory firmware resolves or ends (R183, R188, R384).
Record 0 stands for the firmware's own queue (R288). -/
def execStagehandSegment (rec : Nat) (s : State) : Result :=
  .next (match findEng s rec with
    | none => if rec == 0 && nextServed s 0 == some 8 then firmwareSegment (noteServed s 0 8) else s
    | some r =>
      if !servable s r || (nextServed s r.eng != some r.part && !(r.eng == 0 && r.status == .running)) then s
      else performSegment (noteServed s r.eng r.part) r)

/-! ### Collectives (R189-R191, R377, R378) -/

/-- A group table as read: members, rank, epoch, nodes and ports. -/
structure GroupTable where
  nmem : Nat
  rank : Nat
  epoch : Word
  nodes : List Word
  ports : List Nat
  rsvd : Bool

def groupTable (head entries : List Byte) : GroupTable :=
  let n := fieldOf head 0 2
  { nmem := n, rank := fieldOf head 2 2, epoch := BitVec.ofNat 64 (fieldOf head 8 8)
    nodes := (List.range n).map fun i => BitVec.ofNat 64 (fieldOf entries (16 * i) 8)
    ports := (List.range n).map fun i => fieldOf entries (16 * i + 8) 1
    rsvd := fieldOf head 4 4 == 0 && (List.range n).all fun i => fieldOf entries (16 * i + 9) 7 == 0 }

/-- The table and the record obey the rules of R189. -/
def tableOk (g : GroupTable) (k c : Nat) : Bool :=
  g.rsvd && g.rank < g.nmem
    && ((List.range g.nmem).all fun i => let p := g.ports.getD i 0; if i == g.rank then p == 0 else 1 ≤ p && p ≤ 8)
    && (!(k == 0x13 || k == 0x14) || (cdPeer c < g.nmem && cdPeer c != g.rank))
    && (k != 0x11 || cdCount c % g.nmem == 0)

/-- An abort of a round goes to every member that the table lets the engine reach (R189, R191). -/
def sendAborts (s : State) (nodes : List Word) (ports : List Nat) (rank : Nat) (a : CollAbort) : State :=
  (List.range nodes.length).foldl (fun s i =>
    let p := ports.getD i 0
    if i != rank && 1 ≤ p && p ≤ 8 then sendPeer s p (nodes.getD i 0) 2 (.abort a) else s) s

/-- Bytes of the source, and of the destination (R190). -/
def srcBytes (k c : Nat) : Nat := if k == 0x14 then 0 else cdCount c * cdSize k c
def dstBytes (k c nmem : Nat) : Nat :=
  match k with
  | 0x10 | 0x14 => cdCount c * cdSize k c
  | 0x11 => cdCount c / nmem * cdSize k c
  | 0x12 => cdCount c * nmem * cdSize k c
  | _ => 0

/-- The first address of a range that does not translate; pages are tried in order. -/
def firstHole (s : State) (p : Nat) (k : Kind) : Nat → Nat → Nat → Option Nat × State
  | 0, _, _ => (none, s)
  | fuel + 1, va, len =>
    if len == 0 then (none, s)
    else
      let n := min len (4096 - va % 4096)
      match reach s p k va n with
      | none => (some va, logMalformed s p va)
      | some (_, s) => firstHole s p k fuel (va + n) (len - n)

/-- Elements that a poisoned unit of the source touches (R358). -/
def poisonedElements (s : State) (p va count size : Nat) : List Nat :=
  if s.poison.isEmpty then [] else (List.range count).filter fun e => poisonVirt s p (va + e * size) size

/-- The sequence that a record's round counts in (R190): the ring records of the epoch, or one ordered pair. -/
def roundKey (k : Nat) (epoch peer : Word) : Word × Nat × Word :=
  match k with
  | 0x13 => (epoch, 1, peer)
  | 0x14 => (epoch, 2, peer)
  | _ => (epoch, 0, 0)

def roundOf (s : State) (key : Word × Nat × Word) : Nat := ((s.rounds.find? fun r => r.1 == key).map (·.2)).getD 0

def nextRound (s : State) (key : Word × Nat × Word) : State :=
  { s with rounds := (key, roundOf s key + 1) :: s.rounds.filter fun r => r.1 != key }

/-- The member that a record receives from: its predecessor in the ring, or its partner (R377). -/
def sourceRank (k c : Nat) (x : CollState) : Nat :=
  if k == 0x13 || k == 0x14 then cdPeer c else (x.rank + x.nodes.length - 1) % x.nodes.length

/-- The member that a record sends to. -/
def targetRank (k c : Nat) (x : CollState) : Nat :=
  if k == 0x13 || k == 0x14 then cdPeer c else (x.rank + 1) % x.nodes.length

/-- A message of a record goes to one member of its group (R189, R330). -/
def sendMember (s : State) (x : CollState) (rank : Nat) (m : PeerMsg) : State := sendPeer s (x.ports.getD rank 0) (x.nodes.getD rank 0) 2 m

/-- A frame belongs to the round of a record in progress. -/
def matchesRecord (r : EngRec) (x : CollState) (f : CollFrame) : Bool :=
  let k := recKind r.words
  let c := recDword r.words 3
  r.status == .running && f.epoch == x.epoch && f.round == x.round && f.node == x.nodes.getD (sourceRank k c x) 0
    && (match k with
      | 0x13 => f.kind == 0x14
      | 0x14 => f.kind == 0x13
      | _ => f.kind < 0x13)

/-- What matched records must agree in (R190). -/
def agrees (r : EngRec) (x : CollState) (f : CollFrame) : Bool :=
  let k := recKind r.words
  let c := recDword r.words 3
  (f.kind == k || 0x13 ≤ k) && f.dt == cdDt c && f.op == cdOp c && f.count == cdCount c && f.nmem == x.nodes.length

/-- Element type of a collective (R189). -/
def collTy (dt : Nat) : Ty := match dt with | 0 => .fp .fp32 | 1 => .fp .bf16 | _ => .int 32 false

def collOp (dt op : Nat) : Nat → Nat → Nat :=
  match op with
  | 0 => tyAdd (collTy dt) .rne
  | 1 => tyMinMax (collTy dt) false
  | _ => tyMinMax (collTy dt) true

/-- Element e of a member's source. -/
def elemOf (size : Nat) (bs : List Byte) (e : Nat) : Nat := fieldOf bs (e * size) size

/-- The destination bytes of a rank, and the poisoned elements among them (R190, R358). -/
def collResult (k c : Nat) (x : CollState) : List Byte × List Nat :=
  let size := cdSize k c
  let n := x.nodes.length
  let src (r : Nat) : Option CollFrame := x.sources.find? fun f => f.origin == r
  let bytes (r : Nat) : List Byte := match src r with | some f => f.bytes | none => []
  let marks (r : Nat) : List Nat := match src r with | some f => f.poison | none => []
  let reduced (e : Nat) : List Byte :=
    leBytes size (treeFold (collOp (cdDt c) (cdOp c)) 0 ((List.range n).map fun r => elemOf size (bytes r) e))
  let marked (e : Nat) : Bool := (List.range n).any fun r => (marks r).contains e
  match k with
  | 0x10 => ((List.range (cdCount c)).flatMap reduced, (List.range (cdCount c)).filter marked)
  | 0x11 =>
    let m := cdCount c / n
    let mine := (List.range m).map fun i => x.rank * m + i
    (mine.flatMap reduced, (List.range m).filter fun i => marked (x.rank * m + i))
  | 0x12 => ((List.range n).flatMap bytes, (List.range n).flatMap fun r => (marks r).map fun e => r * cdCount c + e)
  | 0x14 => (bytes (cdPeer c), marks (cdPeer c))
  | _ => ([], [])

/-- Elements that a completed record has written (R192). -/
def collBytes (k c nmem : Nat) : Nat :=
  match k with
  | 0x11 => cdCount c / nmem
  | 0x12 => cdCount c * nmem
  | _ => cdCount c

/-- The record has everything it needs: it ends DONE with its destination written, MISMATCH with it unchanged, or FAULT where its
destination no longer translates, with it unchanged and aborts sent (R189, R190). -/
def finishColl (s : State) (r : EngRec) (x : CollState) : State :=
  let k := recKind r.words
  let c := recDword r.words 3
  if x.bad then endRecord s r.id 6 0 0 0
  else
    let dst := recDword r.words 2
    let (bs, marks) := collResult k c x
    match firstHole s r.part .store (bs.length / 4096 + 2) dst bs.length with
    | (some a, s) =>
      sendAborts (endRecord s r.id 2 0 0 a) x.nodes x.ports x.rank { node := s.mod.cfg.node, epoch := x.epoch, kind := k, round := x.round }
    | (none, s) =>
      let (_, s) := writeRange s r.part dst bs
      let size := cdSize k c
      let s := marks.foldl (fun s e => match translatePart s r.part .store (dst + e * size) size with
        | .ok pa _ => carryPoison s pa true
        | _ => s) s
      endRecord s r.id 1 0 (collBytes k c x.nodes.length) 0

/-- No commit holds writes to the destination back (R406). -/
def collReady (s : State) (r : EngRec) (x : CollState) : Bool :=
  let k := recKind r.words
  let c := recDword r.words 3
  x.bad || !rangeHeld s r.part (recDword r.words 2) (dstBytes k c x.nodes.length)

/-- A frame reaches its record: it goes on round the ring, the time-out restarts, and with the last source the record
ends (R190, R377). -/
def takeFrame1 (s : State) (r : EngRec) (x : CollState) (f : CollFrame) : State :=
  let k := recKind r.words
  let c := recDword r.words 3
  let n := x.nodes.length
  let ring := k < 0x13
  let onward := ring && (x.rank + 1) % n != f.origin
  let s := if onward then sendMember s x (targetRank k c x) (.frame { f with node := s.mod.cfg.node }) else s
  let x := { x with
    sources := if x.sources.any (fun g => g.origin == f.origin) then x.sources else x.sources ++ [f]
    bad := x.bad || !agrees r x f
    lastRecv := s.mod.time
    lastSent := if onward then s.mod.time else x.lastSent }
  let s := modEng s r.id fun r => { r with coll := some x }
  if collReady s r x && (!ring || n ≤ x.sources.length || f.nmem != n) then finishColl s r x else s

/-- Frames that waited for the record, and those that came of them. -/
def takeWaiting (s : State) (id : Nat) : Nat → State
  | 0 => s
  | fuel + 1 =>
    match findEng s id with
    | none => s
    | some r => match r.coll with
      | none => s
      | some x => match s.frames.find? (matchesRecord r x) with
        | none => s
        | some f => takeWaiting (takeFrame1 { s with frames := s.frames.erase f } r x f) id fuel

/-- An engine record's completion action would write where a commit holds writes back (R406). -/
def engineHeld (s : State) (r : EngRec) : Bool :=
  (recSwe r.words && rangeHeld s r.part (recDword r.words 7) 32) || (recSeme r.words && rangeHeld s r.part (recDword r.words 5) 8)

/-- RECORD_COMPLETION: the completion actions of an engine record that has ended, in their order (R193); before them, the
destination of a collective record whose last frame came while a commit held it (R406). -/
def execRecordCompletion (rec : Nat) (s : State) : Result :=
  .next (match findEng s rec with
    | none => s
    | some r =>
      if r.status == .done then
        (if engineHeld s r then s else completeEngine s r r.code r.detail r.bytes (if r.code == 2 then r.faddr.toNat else 0))
      else match r.coll with
        | some x =>
          let full := if recKind r.words < 0x13 then x.nodes.length ≤ x.sources.length else !x.sources.isEmpty
          if r.status == .running && full && collReady s r x then finishColl s r x else s
        | none => s)

/-- Every earlier collective record of the partition's queue has started. -/
def collTurn (s : State) (r : EngRec) : Bool :=
  !s.eng.any fun x => x.part == r.part && x.eng == 40 && x.status == .queued && x.seq < r.seq

/-- The entries of a group table that can be read, up to the first that cannot. -/
def readEntries (s : State) (p g : Nat) : Nat → Nat → List Byte × State
  | 0, _ => ([], s)
  | n + 1, i => match readRange s p (g + 16 + 16 * i) 16 with
    | .error a => ([], logMalformed s p a)
    | .ok (b, s) =>
      let (r, s) := readEntries s p g n (i + 1)
      (b ++ r, s)

/-- A record that cannot run ends, its round is spent, and aborts go to the members that its table names (R189, R190). -/
def refuseColl (s : State) (r : EngRec) (t : GroupTable) (code addr : Nat) : State :=
  let k := recKind r.words
  let key := roundKey k t.epoch (t.nodes.getD (cdPeer (recDword r.words 3)) 0)
  let a : CollAbort := { node := s.mod.cfg.node, epoch := t.epoch, kind := k, round := roundOf s key }
  sendAborts (nextRound (endRecord s r.id code 0 0 addr) key) t.nodes t.ports t.rank a

/-- COLLECTIVE_RECORD_START: the engine reads the group table, checks what needs it and every address, and sends its first
frame; or the record ends MALFORMED or FAULT, and aborts go out (R189, R190, R377). -/
def execCollectiveRecordStart (rec : Nat) (s : State) : Result :=
  .next (match findEng s rec with
    | none => s
    | some r =>
      if r.eng != 40 || r.status != .queued || !collTurn s r || !engineServes s r || !recordReady s r then s
      else
        let k := recKind r.words
        let c := recDword r.words 3
        let g := recDword r.words 4
        match readRange s r.part g 16 with
        | .error a => endRecord (logMalformed s r.part a) rec 2 0 0 a
        | .ok (head, s) =>
          let nmem := fieldOf head 0 2
          let (entries, s) := readEntries s r.part g (min nmem 64) 0
          let t := groupTable (head.set 0 (BitVec.ofNat 8 (entries.length / 16)) |>.set 1 0) entries
          if nmem < 2 || 64 < nmem then refuseColl s r t 7 0
          else match readRange s r.part (g + 16) (16 * nmem) with
            | .error a => refuseColl (logMalformed s r.part a) r t 2 a
            | .ok (entries, s) =>
              let t := groupTable head entries
              if !tableOk t k c then refuseColl s r t 7 0
              else
                let src := recDword r.words 1
                let dst := recDword r.words 2
                let (hole, s) := firstHole s r.part .load (srcBytes k c / 4096 + 2) src (srcBytes k c)
                let (hole, s) := match hole with
                  | some a => (some a, s)
                  | none => firstHole s r.part .store (dstBytes k c nmem / 4096 + 2) dst (dstBytes k c nmem)
                match hole with
                | some a => refuseColl s r t 2 a
                | none =>
                  match readRange s r.part src (srcBytes k c) with
                  | .error a => refuseColl (logMalformed s r.part a) r t 2 a
                  | .ok (bs, s) =>
                    let key := roundKey k t.epoch (t.nodes.getD (cdPeer c) 0)
                    let f : CollFrame :=
                      { node := s.mod.cfg.node, epoch := t.epoch, kind := k, dt := cdDt c, op := cdOp c, nmem := nmem, count := cdCount c
                        round := roundOf s key, origin := t.rank, bytes := bs
                        poison := if k == 0x14 then [] else poisonedElements s r.part src (cdCount c) (cdSize k c) }
                    let x : CollState :=
                      { rank := t.rank, epoch := t.epoch, nodes := t.nodes, ports := t.ports, round := roundOf s key
                        sources := if k < 0x13 then [f] else [], bad := false, lastRecv := s.mod.time, lastSent := s.mod.time }
                    let s := sendMember (nextRound s key) x (targetRank k c x) (.frame f)
                    let s := modEng s rec fun r => { r with status := .running, started := true, coll := some x }
                    takeWaiting s rec (s.frames.length + 1))

/-- The record in progress that a frame belongs to. -/
def recordFor (s : State) (f : CollFrame) : Option (EngRec × CollState) :=
  s.eng.findSome? fun r => match r.coll with
    | some x => if matchesRecord r x f then some (r, x) else none
    | none => none

/-- The kind of round sequence that a frame counts in, seen from here. -/
def frameKey (f : CollFrame) : Word × Nat × Word :=
  match f.kind with
  | 0x13 => (f.epoch, 2, f.node)
  | 0x14 => (f.epoch, 1, f.node)
  | _ => (f.epoch, 0, 0)

/-- The node is the member that a running record expects frames from (R377). -/
def expects (r : EngRec) (x : CollState) (node : Word) : Bool :=
  r.status == .running && x.nodes.getD (sourceRank (recKind r.words) (recDword r.words 3) x) 0 == node

/-- What comes from the predecessor restarts the time-out of the records of the epoch (R377). -/
def heardFrom (s : State) (node epoch : Word) : State :=
  { s with eng := s.eng.map fun r => match r.coll with
    | some x => if expects r x node && x.epoch == epoch then { r with coll := some { x with lastRecv := s.mod.time } } else r
    | none => r }

/-- A record in progress that expects frames from the node has another epoch, and none has this one (R189, R378). -/
def otherEpoch (s : State) (node epoch : Word) : Bool :=
  let due (f : Word → Bool) : Bool := s.eng.any fun r => match r.coll with | some x => expects r x node && f x.epoch | none => false
  due (· != epoch) && !due (· == epoch)

/-- The collective engine runs: its die has power and no reset holds it (R353). -/
def engineOn (s : State) : Bool := s.mod.power == .ps0 || s.mod.power == .ps1

/-- A frame that has been delivered reaches its record; one that is early waits for the record of its epoch and round; one of another epoch
than the record in progress, or of a round that has started here without it, is dropped (R189-R191, R377, R378). -/
def takeCollFrame (s : State) (f : CollFrame) : State :=
  let s := heardFrom s f.node f.epoch
  if !engineOn s || otherEpoch s f.node f.epoch then s
  else match recordFor s f with
    | some (r, x) => takeFrame1 s r x f
    | none => if f.round < roundOf s (frameKey f) then s else { s with frames := s.frames ++ [f] }

/-- A DATA message of a peer's channel that carries k; on another channel it carries nothing (R327, R329, R331). -/
def peerIn (m : Clovo) (chan : Nat) (s : State) (k : State → State) : Result :=
  dataIn m s fun _ s => if m.chan == chan then k s else s

/-- COLLECTIVE_FRAME: a DATA message that carries a frame of its sender. -/
def execCollectiveFrame (x : Clovo × CollFrame) (s : State) : Result :=
  peerIn x.1 2 s fun s => takeCollFrame s { x.2 with node := x.1.src }

/-- HOLD_FRAME: a HOLD frame of the predecessor counts as a frame (R377). -/
def execHoldFrame (m : Clovo) (epoch : Word) (s : State) : Result := peerIn m 2 s fun s => heardFrom s m.src epoch

/-- HOLD_TIMER: a member of a ring that has sent its successor nothing for max(TMO / 4, 1) microseconds sends a HOLD frame
(R377). -/
def execHoldTimer (rec : Nat) (s : State) : Result :=
  .next (match findEng s rec with
    | none => s
    | some r => match r.coll with
      | none => s
      | some x =>
        let k := recKind r.words
        let tmo := recTmo r.words
        if r.status == .running && k < 0x13 && max (tmo / 4) 1 ≤ micros s x.lastSent then
          let s := sendMember s x (targetRank k 0 x) (.hold x.epoch)
          modEng s rec fun r => { r with coll := some { x with lastSent := s.mod.time } }
        else s)

/-- COLLECTIVE_TIMEOUT: no frame of the member it expects for TMO microseconds. The record ends TIMEOUT with that member's
rank, and aborts go to the others (R191, R377). -/
def execCollectiveTimeout (rec : Nat) (s : State) : Result :=
  .next (match findEng s rec with
    | none => s
    | some r => match r.coll with
      | none => s
      | some x =>
        let tmo := recTmo r.words
        if r.status == .running && tmo != 0 && tmo ≤ micros s x.lastRecv then
          let from_ := sourceRank (recKind r.words) (recDword r.words 3) x
          sendAborts (endRecord s rec 4 from_ 0 0) x.nodes x.ports x.rank
            { node := s.mod.cfg.node, epoch := x.epoch, kind := recKind r.words, round := x.round }
        else s)

/-- The abort is of the round of a record in progress: of the ring, or of the ordered pair with its sender (R190, R191). -/
def abortsRecord (r : EngRec) (x : CollState) (a : CollAbort) : Bool :=
  let k := recKind r.words
  let peer := x.nodes.getD (cdPeer (recDword r.words 3)) 0
  r.status == .running && x.epoch == a.epoch && x.round == a.round
    && (match a.kind with
      | 0x13 => k == 0x14 && peer == a.node
      | 0x14 => k == 0x13 && peer == a.node
      | _ => k < 0x13)

/-- A frame that waits is of the round that an abort abandons. -/
def abortsFrame (f : CollFrame) (a : CollAbort) : Bool :=
  f.epoch == a.epoch && f.round == a.round && (f.kind < 0x13 && a.kind < 0x13 || f.kind == a.kind && f.node == a.node)

/-- An abort that has been delivered: the matched record in progress ends ABORTED, and the frames of its round are dropped (R191, R378). -/
def takeAbort (s : State) (a : CollAbort) : State :=
  (s.eng.filter fun r => match r.coll with | some x => abortsRecord r x a | none => false).foldl (fun s r => endRecord s r.id 5 0 0 0)
    { s with frames := s.frames.filter fun f => !abortsFrame f a }

/-- COLLECTIVE_ABORT: a DATA message that carries an abort of its sender. -/
def execCollectiveAbort (x : Clovo × CollAbort) (s : State) : Result :=
  peerIn x.1 2 s fun s => takeAbort s { x.2 with node := x.1.src }

end Sys2Proof.Machine
end

