-- ==== Sys2Proof/Machine/Records.lean ====
section
/-!
DEFINITION. Command records (R333-R338, R342-R343, R348, R396, R398, R408): the rules of their fields, in the order of their
offsets, and when a record may start (R335, R344-R346, R352-R354).
-/

namespace Sys2Proof.Machine

/-- A byte of a range is not zero. -/
def nonzeroIn (raw : List Byte) (a b : Nat) : Bool := ((raw.drop a).take (b - a)).any (· != 0)

/-- Q kinds and C kinds (R334). -/
def isQueued (kind : Nat) : Bool := [0x01, 0x03, 0x04, 0x05, 0x0A, 0x0B, 0x0C, 0x0D].contains kind

/-- Operation of a DEBUG record (R343). -/
def debugOp (raw : List Byte) : Nat := fieldOf raw 0x20 2

/-- The rules of the header, as (offset, broken) (R333, R334). -/
def headerRules (raw : List Byte) : List (Nat × Bool) :=
  let kind := rKind raw
  [ (0x00, kind < 1 || 0x13 < kind),
    (0x01, 7 < rPart raw),
    (0x02, if isQueued kind then 63 < rQueue raw else rQueue raw != 0xFF),
    (0x03, 8 ≤ fieldOf raw 3 1),
    (0x06, nonzeroIn raw 6 8),
    (0x08, if rFlag raw 0 then fieldOf raw 0x08 8 % 8 != 0 else fieldOf raw 0x08 8 != 0),
    (0x10, !rFlag raw 0 && fieldOf raw 0x10 8 != 0),
    (0x18, if rFlag raw 1 then fieldOf raw 0x18 8 % 32 != 0 else fieldOf raw 0x18 8 != 0) ]

/-- The rules of a LAUNCH body (R337, R338). -/
def launchRules (raw : List Byte) : List (Nat × Bool) :=
  let lf := fieldOf raw 0x2A 1
  let ndep := fieldOf raw 0x2C 1
  let deptab := fieldOf raw 0x38 8
  [ (0x20, fieldOf raw 0x20 8 % 64 != 0), (0x28, fieldOf raw 0x28 2 == 0), (0x2A, 8 ≤ lf || lf % 4 == 3), (0x2B, 2 ≤ fieldOf raw 0x2B 1),
    (0x2C, 8 < ndep), (0x2D, nonzeroIn raw 0x2D 0x30), (0x30, fieldOf raw 0x30 8 % 64 != 0),
    (0x38, deptab % 16 != 0 || (deptab == 0) != (ndep == 0)), (0x40, fieldOf raw 0x30 8 != 0 && nonzeroIn raw 0x40 0x80) ]

/-- Cores that CORES of a PART_CREATE names (R342). -/
def createCores (raw : List Byte) : List Nat := (List.range Config.cores).filter (fieldOf raw 0x20 24).testBit

/-- The rules of a PART_CREATE body (R279, R305, R342). -/
def createRules (raw : List Byte) : List (Nat × Bool) :=
  let pa := fieldOf raw 0x40 8
  let len := fieldOf raw 0x48 8
  let w := fieldOf raw 0x58 8
  let rebal := bitsOf w 0 16
  let starve := bitsOf w 16 10
  let within := pa + len ≤ Config.nearEnd || (Config.hbmBase ≤ pa && pa + len ≤ Config.hbmEnd)
  [ (0x38, fieldOf raw 0x38 8 % 0x200000 != 0), (0x40, pa % 4096 != 0 || (len != 0 && !within)),
    (0x48, len % 4096 != 0 || Config.vaEnd - Config.heapVA < len),
    (0x58, bitsOf w 59 5 != 0 || (rebal != 0 && (rebal < 10 || 10000 < rebal)) || 1000 < starve || bitsOf w 26 16 < (createCores raw).length / 4) ]

/-- The rules of a CONN_SET body (R348). -/
def connRules (raw : List Byte) : List (Nat × Bool) :=
  let n := fieldOf raw 0x20 1
  let entry (i : Nat) : List (Nat × Bool) :=
    let o := 0x24 + 4 * i
    let a := fieldOf raw o 1
    let b := fieldOf raw (o + 1) 1
    [(o, 16 < a), (o + 1, 16 < b || b ≤ a), (o + 2, 48 < fieldOf raw (o + 2) 1), (o + 3, fieldOf raw (o + 3) 1 != 0)]
  [(0x20, n < 1 || 23 < n), (0x21, nonzeroIn raw 0x21 0x24)] ++ (List.range (min n 23)).flatMap entry
    ++ [(0x24 + 4 * min n 23, nonzeroIn raw (0x24 + 4 * min n 23) 0x80)]

/-- The rules of a CKPT_OPEN body (R401, R408). -/
def ckptRules (raw : List Byte) : List (Nat × Bool) :=
  let op := fieldOf raw 0x20 1
  let a0 := fieldOf raw 0x28 8
  let a1 := fieldOf raw 0x30 8
  let a2 := fieldOf raw 0x38 8
  let nwork := bitsOf a1 0 32
  let npb := bitsOf a1 32 16
  [ (0x20, 4 < op), (0x21, nonzeroIn raw 0x21 0x28),
    (0x28, match op with | 0 => a0 != 0 | 1 => a0 % 0x200000 != 0 | _ => false),
    (0x30, match op with
      | 0 => a1 != 0
      | 1 => bitsOf a1 48 16 != 0 || npb < 1 || 64 < npb || nwork < 1 || 32768 < nwork + npb
      | 2 => 1 < a1
      | 3 => 8 < a1
      | _ => a1 < 1 || 4096 < a1),
    (0x38, if op == 1 then a2 % 0x200000 != 0 else a2 != 0),
    (0x40, nonzeroIn raw 0x40 0x80) ]

/-- The rules of a DEBUG body: which operations there are, their operands, and zeros behind them (R343, R398). -/
def debugRules (raw : List Byte) : List (Nat × Bool) :=
  let op := debugOp raw
  let rest (o : Nat) : Nat × Bool := (o, nonzeroIn raw o 0x80)
  let byte (o lim : Nat) : Nat × Bool := (o, lim < fieldOf raw o 1)
  (0x20, !((1 ≤ op && op ≤ 8) || (0x100 ≤ op && op ≤ 0x108))) :: match op with
    | 5 => [byte 0x22 63, byte 0x23 15, byte 0x24 1, rest 0x27]
    | 6 => [(0x22, fieldOf raw 0x22 1 != 2), rest 0x23]
    | 7 => [rest 0x2E]
    | 8 => [byte 0x22 1, rest 0x23]
    | 0x100 =>
      let len := fieldOf raw 0x2A 4
      [(0x22, fieldOf raw 0x22 8 % 512 != 0), (0x2A, len % 4 != 0 || len < 4 || 65536 < len), rest 0x2E]
    | 0x101 => [byte 0x22 1, rest 0x23]
    | 0x103 => [rest 0x2C]
    | 0x104 => [rest 0x2C]
    | 0x105 => [byte 0x2C 63, byte 0x2D 1, rest 0x2E]
    | 0x106 => [rest 0x3C]
    | 0x107 => [rest 0x3C]
    | 0x108 => [rest 0x32]
    | _ => [rest 0x22]

/-- The rules of the body of each kind (R334, R337). -/
def bodyRules (raw : List Byte) : List (Nat × Bool) :=
  let rest (o : Nat) : Nat × Bool := (o, nonzeroIn raw o 0x80)
  let eight (o : Nat) : Nat × Bool := (o, fieldOf raw o 8 % 8 != 0)
  let page (o : Nat) : Nat × Bool := (o, fieldOf raw o 8 % 4096 != 0)
  match rKind raw with
  | 0x01 => launchRules raw
  | 0x02 =>
    let n := fieldOf raw 0x28 1
    [(0x28, n < 2 || 8 < n), (0x29, nonzeroIn raw 0x29 0x2C), (0x2C, 1000000 < fieldOf raw 0x2C 4), rest 0x30]
  | 0x03 => [eight 0x20, rest 0x30]
  | 0x04 => [eight 0x20, rest 0x30]
  | 0x05 => [(0x28, fieldOf raw 0x28 8 < 1 || 2 ^ 24 < fieldOf raw 0x28 8), (0x30, 1 < fieldOf raw 0x30 1), rest 0x31]
  | 0x06 => [(0x20, fieldOf raw 0x20 8 % 64 != 0), rest 0x2C]
  | 0x08 => createRules raw
  | 0x0A => [page 0x20, page 0x28, rest 0x30]
  | 0x0B => [page 0x20, page 0x28, rest 0x30]
  | 0x0C => ckptRules raw
  | 0x0D => [rest 0x28]
  | 0x10 => [(0x24, nonzeroIn raw 0x24 0x28), rest 0x38]
  | 0x11 => [rest 0x30]
  | 0x12 => connRules raw
  | 0x13 => debugRules raw
  | _ => [rest 0x20]

/-- The record concerns the module, not a partition: CONN_SET, and the DEBUG operations that no partition's state bears on
(R343, R347, R352, R353). -/
def moduleWide (raw : List Byte) : Bool := rKind raw == 0x12 || (rKind raw == 0x13 && [4, 6, 7, 8].contains (debugOp raw))

/-- The host of a connection may address the partition (R330). -/
def hostMay (s : State) (conn part : Nat) : Bool :=
  match s.conns.find? (fun c => c.id == conn) with
  | none => false
  | some c => s.mod.cfg.hosts.any fun h => h.1 == c.node && h.2.testBit part

/-- PART names a partition that the record may act on (R337, R342). -/
def partOk (s : State) (conn : Nat) (raw : List Byte) : Bool :=
  hostMay s conn (rPart raw) && (moduleWide raw || ((s.part (rPart raw)).present != (rKind raw == 0x08)))

/-- In safe mode only these DEBUG operations are accepted (R352). -/
def safeOk (s : State) (raw : List Byte) : Bool := !s.mod.safeMode || (rKind raw == 0x13 && [4, 7, 8].contains (debugOp raw))

/-- What makes a record malformed whatever the state is: the lowest offset among the rules it breaks. -/
def malformedAt (raw : List Byte) : Option Nat := ((headerRules raw ++ bodyRules raw).find? (·.2)).map (·.1)

/-- The lowest offset of the record that offends, as things stand (R337). -/
def recordFault (s : State) (conn : Nat) (raw : List Byte) : Option Nat :=
  let part := (0x01, 7 < rPart raw || !partOk s conn raw)
  let safe := (0x00, !safeOk s raw)
  let rules := (headerRules raw).map (fun r => if r.1 == 0 then (0, r.2 || safe.2) else if r.1 == 1 then part else r) ++ bodyRules raw
  (rules.find? (·.2)).map (·.1)

/-- The record is rejected: a REJECT message and no completion action (R337). -/
def rejectRec (s : State) (conn : Nat) (raw : List Byte) (off : Nat) : State :=
  replyTo s conn (replyHeader 2 (rPart raw) (rQueue raw) ++ (Status.rejected off).word raw)

/-! ### When a record starts (R335, R345, R346) -/

/-- The firmware core that owns a record (R345, R346). -/
def ownerCore (raw : List Byte) : Nat :=
  match rKind raw with
  | 0x02 => 1
  | 0x08 => 3
  | 0x09 => 3
  | 0x0E => 5
  | 0x0F => 5
  | 0x10 => 5
  | 0x11 => 5
  | 0x12 => 6
  | 0x13 => 7
  | _ => 2

/-- A firmware core has nothing to do: no message, no wake, and no record of its own in the ingress buffer (R345, R346). -/
def fwIdle (s : State) (core : Nat) (c : FwCore) : Bool :=
  c.mailbox.isEmpty && !c.wake && !s.recs.any fun r => r.status == .buffered && ownerCore r.raw == core

/-- A team is resident or stops, a record or a task is in progress, or there is an engine record (R353). -/
def moduleBusy (s : State) : Bool :=
  !s.recs.isEmpty || !s.eng.isEmpty || !s.tasks.isEmpty || s.troupe.isSome || s.teams.any fun u => u.status == .resident || u.status == .stopping

/-- Records of the same queue, or control records of the same connection. -/
def sameChain (a b : HRec) : Bool :=
  if isQueued a.kind then isQueued b.kind && a.part == b.part && a.queue == b.queue else !isQueued b.kind && a.conn == b.conn

/-- An earlier record of the chain that this one waits for: one not started, a WAIT that still blocks, or for a control
record any that has not completed (R335). -/
def blocks (r e : HRec) : Bool :=
  e.id < r.id && sameChain r e && (!isQueued r.kind || e.status == .buffered || e.status == .waiting || e.kind == 0x03)

/-- The module takes records: it runs, in PS0 (R353, R354, R416). -/
def recordsRun (s : State) : Bool := s.mod.power == .ps0 && !s.mod.inReset && !s.mod.tripped

/-- The record may start: its turn has come, and firmware is awake for a buffered one (R335, R345). -/
def mayStart (s : State) (r : HRec) : Bool :=
  recordsRun s && !actionsHeld s r.raw && (r.status == .buffered || r.status == .waiting) && !s.recs.any (blocks r)
    && (r.status == .waiting || !(nth s.mod.fw (ownerCore r.raw) { retention := false, wake := false, mailbox := [] }).retention)

def modRec (s : State) (id : Nat) (f : HRec → HRec) : State :=
  { s with recs := s.recs.map fun r => if r.id == id then f r else r }

/-- Start a record of a kind (and of a DEBUG operation): it is rejected when its partition is not there; else k runs on it. -/
def startRec (s : State) (id kind : Nat) (op : Option Nat) (k : HRec → State → State) : Result :=
  .next (match s.recs.find? (fun r => r.id == id) with
    | none => s
    | some r =>
      if r.kind != kind || (match op with | some o => debugOp r.raw != o | none => false) || !mayStart s r then s
      else if !partOk s r.conn r.raw then rejectRec { s with recs := s.recs.filter fun x => x.id != id } r.conn r.raw 1
      else k r (modRec s id fun r => { r with status := .started, started := s.mod.time }))

/-- A DEBUG operation completes: its RESULT message, then the completion actions (R343). -/
def debugDone (s : State) (r : HRec) (st : Status) (data : List Byte) : State :=
  finishRec (resultTo s r { st with bytes := if data.isEmpty then st.bytes else data.length } data) r.id st

end Sys2Proof.Machine
end

