-- ==== Sys2Proof/Machine/Clovo.lean ====
section
/-!
DEFINITION. The wire (R327-R332, R339, R344, R345): the events of Clovo connections, ARP, neighbour solicitations and frames
that the ports drop.
-/

namespace Sys2Proof.Machine

/-! ### Taking records from a message (R333, R337, R339, R344, R345) -/

/-- The filter appends the record to its queue itself (R344). -/
def fastPath (s : State) (raw : List Byte) : Bool :=
  let q := s.part (rPart raw)
  let kind := rKind raw
  (kind == 3 || kind == 4 || (kind == 1 && s.images.any fun e => e.part == rPart raw && e.addr.toNat == fieldOf raw 0x20 8))
    && (match q.queues[rQueue raw]? with | some c => c.resident | none => false)
    && !s.recs.any fun r => r.status == .buffered && isQueued r.kind && r.part == rPart raw && r.queue == rQueue raw

/-- One record is delivered: rejected, appended to its queue, or buffered with a wake of its firmware core. -/
def takeRecord (s : State) (conn : Nat) (raw data : List Byte) : State :=
  match if (malformedAt raw).isSome || !safeOk s raw then recordFault s conn raw else none with
  | some off => rejectRec s conn raw off
  | none =>
    let fast := fastPath s raw
    let r : HRec :=
      { id := s.nextId, conn := conn, part := rPart raw, queue := rQueue raw, kind := rKind raw, raw := raw, data := data
        status := if fast then .waiting else .buffered, started := 0, watch := none }
    let s := { s with recs := s.recs ++ [r], nextId := s.nextId + 1 }
    if fast then s else { s with mod := { s.mod with fw := modNth s.mod.fw (ownerCore raw) fun c => { c with wake := true } } }

/-- Data bytes that follow a record: those of a HOST_COPY to the device. -/
def dataLen (raw : List Byte) : Nat :=
  let n := fieldOf raw 0x28 8
  if rKind raw == 0x05 && fieldOf raw 0x30 1 == 0 && n ≤ 2 ^ 24 then n else 0

/-- The records of a message, one after the other. -/
def takeRecords (s : State) (conn : Nat) : Nat → List Byte → State
  | 0, _ => s
  | fuel + 1, bs =>
    if bs.length < 128 then s
    else
      let raw := bs.take 128
      let rest := bs.drop 128
      let n := dataLen raw
      let id := s.nextId
      let s := takeRecord s conn raw (rest.take n)
      let s := if rest.length < n then
          modConn s conn fun c => { c with dataDue := n - rest.length, dataRec := if s.nextId == id then none else some id }
        else s
      takeRecords s conn fuel (rest.drop n)

/-- A CONT message goes on with the data of the latest HOST_COPY (R339). -/
def takeData (s : State) (c : Conn) (bs : List Byte) : State :=
  let part := bs.take c.dataDue
  let s := match c.dataRec with
    | some id => modRec s id fun r => { r with data := r.data ++ part }
    | none => s
  modConn s c.id fun c => { c with dataDue := c.dataDue - part.length }

/-- What a delivered message on COMMAND does; the module leaves PS1, and a DEBUG record wakes it from PS2 (R353). -/
def deliver (s : State) (c : Conn) (m : Clovo) : State :=
  let s := if m.flags.getLsbD 0 then takeData s c m.payload else takeRecords s c.id (m.payload.length / 128 + 1) m.payload
  match s.mod.power with
  | .ps1 => enterRun s
  | .ps2 => if s.recs.any (fun r => r.kind == 0x13) then { s with mod := { s.mod with inReset := true } } else s
  | _ => s

/-- CLOVO_DATA: a DATA message; on COMMAND its records are taken. The DATA messages of the peers' channels that the device knows are steps
of their own: COLLECTIVE_FRAME, HOLD_FRAME, COLLECTIVE_ABORT, REPLICA_SEGMENTS, PARTNER_ACK and PARTNER_FETCH; another is delivered and has no
effect. -/
def execClovoData (m : Clovo) (s : State) : Result := dataIn m s fun c s => if m.chan == 0 then deliver s c m else s

/-! ### The device as sender (R331, R332) -/

/-- Messages up to APSN are acknowledged; the attempts count from this answer (R331). -/
def retire (c : Conn) (apsn : Word32) (win : Nat) : Conn :=
  let keep := c.unacked.filter fun m => !(m.1 == apsn || (m.1 - apsn).msb)
  let gone := c.unacked.length - keep.length
  { c with unacked := keep, flight := c.flight - gone, win := win, tries := 0
           isOpen := c.isOpen && !(c.closing && keep.isEmpty) }

/-- CLOVO_ACK: a cumulative acknowledgment (R331). -/
def execClovoAck (m : Clovo) (s : State) : Result :=
  clovoIn s m fun s =>
    match connOf s m with
    | none => sendNak s m.port m.chan m.src 0 3 0
    | some c =>
      let s := modConn s c.id fun c => retire c m.apsn m.win
      match s.conns.find? (fun x => x.id == c.id) with
      | some c => if c.flight < min c.win c.unacked.length then transmit s c.id c.flight else s
      | none => s

/-- CLOVO_NAK_ORDER: resend from APSN + 1 at once (R331). -/
def execClovoNakOrder (m : Clovo) (s : State) : Result :=
  clovoIn s m fun s =>
    match connOf s m with
    | none => sendNak s m.port m.chan m.src 0 3 0
    | some c => transmit (modConn s c.id fun c => retire c m.apsn m.win) c.id 0

/-- CLOVO_NAK_FULL: nothing is resent before RETRY microseconds have passed (R332). -/
def execClovoNakFull (m : Clovo) (s : State) : Result :=
  clovoIn s m fun s =>
    match connOf s m with
    | none => sendNak s m.port m.chan m.src 0 3 0
    | some c => modConn s c.id fun c => { retire c m.apsn m.win with holdUntil := s.mod.time + 1400 * m.retry }

/-- RETRY_EXPIRY: the messages may go again (R332). -/
def execRetryExpiry (conn : Nat) (s : State) : Result :=
  .next (match s.conns.find? (fun c => c.id == conn) with
    | none => s
    | some c => if filterOn s && c.isOpen && c.holdUntil ≤ s.mod.time then transmit s conn 0 else s)

/-- ACK_TIMER: within 2 microseconds of delivery (R331). -/
def execAckTimer (conn : Nat) (s : State) : Result :=
  .next (match s.conns.find? (fun c => c.id == conn) with
    | none => s
    | some c => if filterOn s && c.owed != 0 then sendAck s c else s)

/-- The wait before the next attempt: 50 microseconds, doubled at each, at most 6.4 ms (R331). -/
def retransmitWait (c : Conn) : Nat := min (50 * 2 ^ c.tries) 6400

/-- RETRANSMIT_TIMEOUT: no ACK has come; the device resends from APSN + 1, unless a NAK FULL holds it back (R331, R332). -/
def execRetransmitTimeout (conn : Nat) (s : State) : Result :=
  .next (match s.conns.find? (fun c => c.id == conn) with
    | none => s
    | some c =>
      if filterOn s && c.isOpen && c.flight != 0 && c.tries < 8 && c.holdUntil ≤ s.mod.time && retransmitWait c ≤ micros s c.sentAt then
        transmit (modConn s conn fun c => { c with tries := c.tries + 1 }) conn 0
      else s)

/-- CONNECTION_LOST: eight attempts went unanswered (R331). -/
def execConnectionLost (conn : Nat) (s : State) : Result :=
  .next (match s.conns.find? (fun c => c.id == conn) with
    | none => s
    | some c =>
      if filterOn s && c.isOpen && c.flight != 0 && 8 ≤ c.tries && c.holdUntil ≤ s.mod.time && retransmitWait c ≤ micros s c.sentAt then
        logError (modConn s conn fun c => { c with isOpen := false, lost := true, unacked := [], flight := 0 }) conn
      else s)

/-! ### Connections (R330, R412) -/

/-- The device answers an OPEN of this channel from this node (R330). -/
def mayOpen (s : State) (m : Clovo) : Bool :=
  match m.chan with
  | 0 => s.mod.cfg.hosts.any fun h => h.1 == m.src
  | 2 => s.mod.cfg.peers.contains m.src
  | 3 => s.mod.cfg.peers.contains m.src
  | _ => false

/-- Power-feed identities are compared when a REPLICA connection opens (R412). -/
def compareFeed (s : State) (m : Clovo) : State :=
  if m.chan != 3 then s
  else
    let same := BitVec.ofNat 64 (fieldOf m.payload 0 8) == s.mod.cfg.feed
    { s with parts := s.parts.map fun q => match q.domain with
        | some d => match d.partner with
          | some (n, _) => if n == m.src && same then { q with rp := { q.rp with feed := true } } else q
          | none => q
        | none => q }

/-- CLOVO_OPEN: OPENACK for a listed host or peer, NAK NOCONN otherwise; with COMMAND the device opens REPLY (R330). -/
def execClovoOpen (m : Clovo) (s : State) : Result :=
  clovoIn s m fun s =>
    if !mayOpen s m then sendNak s m.port m.chan m.src 0 3 0
    else
      let (n, s) := fresh s
      let s := startConn s m.port m.src m.chan true m.win
      let s := send s (.clovo m.port 5 m.chan 0 0 (Config.window n) 0 0 s.mod.cfg.node m.src (if m.chan == 3 then leBytes 8 s.mod.cfg.feed.toNat else []))
      if m.chan == 0 then openTo s m.port m.src 1 else compareFeed s m

/-- CLOVO_OPENACK: the connection that the device opened is open, with this window; NAK NOCONN where there is none (R330). -/
def execClovoOpenack (m : Clovo) (s : State) : Result :=
  clovoIn s m fun s =>
    match s.conns.find? (fun c => c.node == m.src && c.chan == m.chan && !c.isOpen && !c.lost && !c.closing) with
    | none => if (connOf s m).isSome then s else sendNak s m.port m.chan m.src 0 3 0
    | some c => compareFeed (transmit (modConn s c.id fun c => { c with isOpen := true, win := m.win }) c.id 0) m

/-- CLOVO_CLOSE: what is owed is acknowledged, and the connection ends once its own DATA has been (R330). -/
def execClovoClose (m : Clovo) (s : State) : Result :=
  clovoIn s m fun s =>
    match connOf s m with
    | none => sendNak s m.port m.chan m.src 0 3 0
    | some c =>
      let s := if c.owed == 0 then s else sendAck s c
      modConn s c.id fun c => { c with closing := true, isOpen := !c.unacked.isEmpty }

/-! ### Frames (R328, R329) -/

/-- A number of so many bytes in network order. -/
def beNat (bs : List Byte) : Nat := bs.foldl (fun n b => n * 256 + b.toNat) 0

def beField (bs : List Byte) (o n : Nat) : Nat := beNat ((bs.drop o).take n)

/-- The 16-bit ones' complement sum that the Internet checksums take. -/
def onesSum (bs : List Byte) : Nat :=
  let n := (List.range ((bs.length + 1) / 2)).foldl (fun n i => n + beNat (padEven ((bs.drop (2 * i)).take 2))) 0
  let n := n / 65536 + n % 65536
  n / 65536 + n % 65536
where
  padEven (l : List Byte) : List Byte := if l.length == 1 then l ++ [0] else l

/-- The 32 bytes of a Clovo header (R329). -/
def clovoHeader (type chan reason : Nat) (win retry : Nat) (psn apsn : Word32) (src dst : Word) : List Byte :=
  [1, BitVec.ofNat 8 type, BitVec.ofNat 8 chan, BitVec.ofNat 8 (reason * 16)] ++ leBytes 2 win ++ leBytes 2 retry ++ leBytes 4 psn.toNat
    ++ leBytes 4 apsn.toNat ++ leBytes 8 src.toNat ++ leBytes 8 dst.toNat

/-- The UDP payload of a message that the module sends. -/
def clovoBytes : Out → List Byte
  | .clovo _ type chan psn apsn win retry reason src dst payload => clovoHeader type chan reason win retry psn apsn src dst ++ payload
  | .peer _ chan psn src dst x => clovoHeader 1 chan 0 0 0 psn 0 src dst ++ Config.peerBytes x
  | .arpReply .. => []
  | .neighbourAdvert .. => []

/-- TYPE and the message of a UDP payload that arrived on a port. -/
def clovoOf (port : Nat) (bs : List Byte) : Option (Nat × Clovo) :=
  if bs.length < 32 then none
  else some (fieldOf bs 1 1,
    { port := port, ver := BitVec.ofNat 8 (fieldOf bs 0 1), chan := fieldOf bs 2 1, flags := BitVec.ofNat 8 (fieldOf bs 3 1), win := fieldOf bs 4 2
      retry := fieldOf bs 6 2, psn := BitVec.ofNat 32 (fieldOf bs 8 4), apsn := BitVec.ofNat 32 (fieldOf bs 12 4)
      src := BitVec.ofNat 64 (fieldOf bs 16 8), dst := BitVec.ofNat 64 (fieldOf bs 24 8), payload := bs.drop 32 })

/-- What a supported frame carries. A Clovo message is the instruction of its TYPE, a NAK that of its reason. -/
inductive FrameKind where
  | arp (ip : BitVec 32)
  | arpReply
  | solicitation (ip : BitVec 128)
  /-- Another message of IPv6 neighbour discovery, which asks nothing of the module. -/
  | discovery
  | clovo (type : Nat) (m : Clovo)
  deriving DecidableEq, Repr

/-- A UDP datagram with its pseudo header: the checksum is there and right, and it goes to the configured Clovo port (R328, R329). -/
def datagramOf (s : State) (port : Nat) (pseudo u : List Byte) : Option FrameKind :=
  let len := beField u 4 2
  if len < 8 || u.length < len || beField u 6 2 == 0 || onesSum (pseudo ++ leBytes 1 0 ++ [17] ++ (u.drop 4).take 2 ++ u.take len) != 0xFFFF
      || beField u 2 2 != s.mod.cfg.clovoPort then none
  else (clovoOf port ((u.take len).drop 8)).bind fun x =>
    if portTakes x.2 && 1 ≤ x.1 && x.1 ≤ 6 then some (.clovo x.1 x.2) else none

/-- An IPv4 packet: no options, no fragment, a right header checksum, UDP. -/
def ipv4Of (s : State) (port : Nat) (p : List Byte) : Option FrameKind :=
  let len := beField p 2 2
  if fieldOf p 0 1 != 0x45 || len < 28 || p.length < len || onesSum (p.take 20) != 0xFFFF || beField p 6 2 % 0x4000 != 0 || fieldOf p 9 1 != 17 then none
  else datagramOf s port ((p.drop 12).take 8) ((p.take len).drop 20)

/-- An ICMPv6 message of neighbour discovery. -/
def discoveryOf (body : List Byte) : Option FrameKind :=
  let t := fieldOf body 0 1
  if t == 135 then if 24 ≤ body.length then some (.solicitation (BitVec.ofNat 128 (beField body 8 16))) else none
  else if 133 ≤ t && t ≤ 137 then some .discovery else none

/-- An IPv6 packet: no extension header; UDP, or neighbour discovery with a right checksum (R327). -/
def ipv6Of (s : State) (port : Nat) (p : List Byte) : Option FrameKind :=
  let len := beField p 4 2
  let body := (p.drop 40).take len
  let addrs := (p.drop 8).take 32
  if fieldOf p 0 1 / 16 != 6 || p.length < 40 + len then none
  else if fieldOf p 6 1 == 17 then datagramOf s port addrs body
  else if fieldOf p 6 1 == 58 && onesSum (addrs ++ [0, 58] ++ (p.drop 4).take 2 ++ body) == 0xFFFF then discoveryOf body
  else none

/-- What a frame is: Ethernet II up to the MTU of 9,216 bytes, with at most one 802.1Q tag, which is ignored, and in
it ARP, IPv6 neighbour discovery or a Clovo message. The formats of Ethernet, ARP, IP, ICMPv6 and UDP are those of their
own standards (PRESUMED, log 61). None: a frame of any other kind. -/
def wireFrame (s : State) (port : Nat) (bs : List Byte) : Option FrameKind :=
  let o := if beField bs 12 2 == 0x8100 then 4 else 0
  let p := bs.drop (14 + o)
  if bs.length < 14 + o || 9216 < p.length then none
  else
    let t := beField bs (12 + o) 2
    if t == 0x0800 then ipv4Of s port p
    else if t == 0x86DD then ipv6Of s port p
    else if t == 0x0806 && 28 ≤ p.length then
      match beField p 0 8 with
      | 0x0001080006040001 => some (.arp (BitVec.ofNat 32 (beField p 24 4)))
      | 0x0001080006040002 => some .arpReply
      | _ => none
    else none

/-- The MAC address that the configuration block gives a port (R351). -/
def macOf (s : State) (port : Nat) : BitVec 48 := s.mod.cfg.macs[port]?.getD 0

/-- ARP_REQUEST: answered for an address of the port. -/
def execArpRequest (port : Nat) (ip : BitVec 32) (s : State) : Result :=
  .next (if filterOn s && s.mod.cfg.ips.contains (port, ip) then send s (.arpReply port (macOf s port) ip) else s)

/-- NEIGHBOUR_SOLICITATION: answered for an address of the port. -/
def execNeighbourSolicitation (port : Nat) (ip : BitVec 128) (s : State) : Result :=
  .next (if filterOn s && s.mod.cfg.ip6s.contains (port, ip) then send s (.neighbourAdvert port (macOf s port) ip) else s)

/-- UNSUPPORTED_FRAME: a frame of any other kind, or on a port whose role does not list its channel, is dropped and counted. -/
def execUnsupportedFrame (f : WireFrame) (s : State) : Result :=
  .next (if filterOn s && (wireFrame s f.port f.bytes).isNone then dropFrame s else s)

end Sys2Proof.Machine
end

