-- ==== Sys2Proof/Machine/Front.lean ====
section
/-!
DEFINITION. Records of the command front end (R335-R341): LAUNCH with its kernel image, TROUPE, WAIT, SIGNAL and HOST_COPY.
-/

namespace Sys2Proof.Machine

/-! ### The kernel image (R73, R74, R339) -/

/-- The rules of the image header, by offset. -/
def imageRules (h : List Byte) : List (Nat × Bool) :=
  let f (o n : Nat) : Nat := fieldOf h o n
  let vregs := f 9 1
  let rot := f 0x0A 1
  let spad := f 0x0C 2
  let aend := f 0x10 4 + f 0x14 4
  let eend := f 0x18 4 + f 0x1C 4
  let dend := if f 0x24 4 == 0 then eend else f 0x20 4 + f 0x24 4
  [ (0x00, f 0 4 != 0x4D49584B), (0x04, f 4 2 != 1), (0x06, 8 ≤ f 6 2 || f 6 2 / 2 == 3), (0x08, f 8 1 < 1 || 64 < f 8 1), (0x09, 96 < vregs),
    (0x0A, 64 < rot || rot % 8 != 0 || (rot != 0 && vregs < rot + 32)), (0x0B, 6 < f 0x0B 1), (0x0C, 40 < spad || spad % 2 != 0),
    (0x0E, f 0x0E 2 < 1 || 32 < f 0x0E 2), (0x10, f 0x10 4 % 4 != 0 || f 0x10 4 < 64), (0x14, f 0x14 4 % 4 != 0 || f 0x14 4 < 4),
    (0x18, f 0x18 4 % 4 != 0 || f 0x18 4 < aend), (0x1C, f 0x1C 4 % 4 != 0 || f 0x1C 4 < 4),
    (0x20, if f 0x24 4 == 0 then f 0x20 4 != 0 else f 0x20 4 % 64 != 0 || f 0x20 4 < eend), (0x28, f 0x28 4 < dend),
    (0x2C, f 0x2C 4 < f 0x28 4 + f 0x0E 2), (0x30, nonzeroIn h 0x30 0x40) ]

/-- The name is ASCII (R73). -/
def nameOk (bs : List Byte) : Bool := ((bs.drop (fieldOf bs 0x28 4)).take (fieldOf bs 0x0E 2)).all fun b => b.toNat < 128

/-- Bytes rounded up to whole pages. -/
def pageUp (n : Nat) : Nat := (n + 4095) / 4096 * 4096

/-- A section of an image. -/
def sectionOf (bs : List Byte) (o : Nat) : List Byte := (bs.drop (fieldOf bs o 4)).take (fieldOf bs (o + 4) 4)

/-- Bytes go to frames of the quota, mapped from a page on with the flags of a leaf (R67, R74, R280). -/
def mapBytes (s : State) (p va flags : Nat) (bs : List Byte) : State :=
  (List.range ((bs.length + 4095) / 4096)).foldl (fun s i =>
    let (f, s) := takeFor s p
    let s := mapPage s p (va + 4096 * i) (f + flags)
    { s with mem := setCells s.mem f ((bs.drop (4096 * i)).take 4096) }) s

/-- The copies of a validated image: code sections and data lie in the image area (log 12); code is mapped with EX alone, the data
read-only (R67, R74, R281). -/
def installImage (s : State) (p : Nat) (bs : List Byte) : KImage × State :=
  let code := sectionOf bs 0x10
  let exe := sectionOf bs 0x18
  let dat := if fieldOf bs 0x24 4 == 0 then [] else sectionOf bs 0x20
  let a := s.imageNext
  let e := a + pageUp code.length
  let d := e + pageUp exe.length
  let k : KImage :=
    { threads := fieldOf bs 8 1, vregs := fieldOf bs 9 1, rotN := fieldOf bs 0x0A 1, accs := fieldOf bs 0x0B 1, spadUnits := fieldOf bs 0x0C 2
      pclass := fieldOf bs 6 2 / 2, qx := (fieldOf bs 6 2).testBit 0, abase := a, acode := code, ebase := e, ecode := exe
      dbase := d, dlen := dat.length }
  let s := { s with imageNext := d + pageUp dat.length }
  (k, mapBytes (mapBytes (mapBytes s p a 0x93 code) p e 0x93 exe) p d 0x87 dat)

/-- The entry of the table of validated images, most recently used last; a miss reads, checks and installs the image, and the
least recently used of 64 entries leaves (R339). Error: how the record completes. -/
def imageFor (s : State) (p addr : Nat) : Except (Status × State) (KImage × State) :=
  match s.images.find? (fun e => e.part == p && e.addr.toNat == addr) with
  | some e => .ok (e.img, { s with images := s.images.erase e ++ [e] })
  | none =>
    match readRange s p addr 64 with
    | .error a => .error (Status.fault a, logMalformed s p a)
    | .ok (h, s) =>
      match (imageRules h).find? (·.2) with
      | some r => .error (Status.rejected (2 ^ 31 + r.1), s)
      | none =>
        match readRange s p addr (fieldOf h 0x2C 4) with
        | .error a => .error (Status.fault a, logMalformed s p a)
        | .ok (bs, s) =>
          if !nameOk bs then .error (Status.rejected (2 ^ 31 + 0x28), s)
          else
            let (k, s) := installImage s p bs
            let s := { s with images := s.images ++ [{ part := p, addr := BitVec.ofNat 64 addr, img := k }] }
            if s.images.length ≤ 64 then .ok (k, s)
            else match s.images with
              | e :: rest => .ok (k, releaseCopy { s with images := rest } e.part e.img)
              | [] => .ok (k, s)

/-! ### LAUNCH (R338, R339) -/

/-- Mailbox values of each team: MBTAB's bytes, or MBV for all. -/
def launchMbs (raw mbtab : List Byte) (teams : Nat) : List (Vector Word 8) :=
  let row (bs : List Byte) : Vector Word 8 := Vector.ofFn fun i : Fin 8 => BitVec.ofNat 64 (fieldOf bs (8 * i.val) 8)
  if fieldOf raw 0x30 8 == 0 then List.replicate teams (row ((raw.drop 0x40).take 64))
  else (List.range teams).map fun t => row ((mbtab.drop (64 * t)).take 64)

def launchDeps (deptab : List Byte) (n : Nat) : List (Word × Word) :=
  (List.range n).map fun i => (BitVec.ofNat 64 (fieldOf deptab (16 * i) 8), BitVec.ofNat 64 (fieldOf deptab (16 * i + 8) 8))

/-- The task of a LAUNCH record, or of a part of a TROUPE. -/
def newTask (s : State) (raw : List Byte) (k : KImage) (mbs : List (Vector Word 8)) (deps : List (Word × Word)) (rec conn seq : Nat)
    (troupe : Bool) : Task :=
  let lf := fieldOf raw 0x2A 1
  { id := s.nextId, part := rPart raw, queue := rQueue raw, seq := seq, troupe := troupe, state := .queued, img := k
    pclass := max k.pclass (lf % 4), caps := (fieldOf raw 0x2B 1).lor (bitAt k.qx 0), nteams := fieldOf raw 0x28 2
    pin := troupe || lf.testBit 2, deps := deps, depsMet := 0, mbs := mbs, next := 0, endedTeams := [], record := rec, conn := conn, launch := raw
    restarts := 0, restart := [], avoid := [], enqueued := s.mod.time, watch := none }

/-- The tables of a LAUNCH, read once (R338). Error: how the record completes. -/
def launchTables (s : State) (raw : List Byte) : Except (Status × State) (List Byte × List (Word × Word) × State) :=
  let p := rPart raw
  match if fieldOf raw 0x30 8 == 0 then .ok ([], s) else readRange s p (fieldOf raw 0x30 8) (64 * fieldOf raw 0x28 2) with
  | .error a => .error (Status.fault a, logMalformed s p a)
  | .ok (mbtab, s) =>
    match readRange s p (fieldOf raw 0x38 8) (16 * fieldOf raw 0x2C 1) with
    | .error a => .error (Status.fault a, logMalformed s p a)
    | .ok (deptab, s) =>
      let deps := launchDeps deptab (fieldOf raw 0x2C 1)
      if deps.any (fun d => d.1.toNat % 8 != 0) then .error (Status.rejected 0x38, s) else .ok (mbtab, deps, s)

def noQueue : QueueCfg := { prio := 0, limit := 0, enabled := false, resident := false, launches := 0 }

/-- LAUNCH: its tables and its image are read, and its task enters its queue; or the record completes at once. -/
def execLaunch (rec : Nat) (s : State) : Result :=
  startRec s rec 0x01 none fun r s =>
    let p := r.part
    match launchTables s r.raw with
    | .error (st, s) => finishRec s rec st
    | .ok (mbtab, deps, s) =>
      match imageFor s p (fieldOf r.raw 0x20 8) with
      | .error (st, s) => finishRec s rec st
      | .ok (k, s) =>
        let q := nth (s.part p).queues r.queue noQueue
        if q.limit ≤ (s.tasks.filter fun t => t.part == p && t.queue == r.queue && !t.troupe).length then finishRec s rec (Status.refused 1)
        else
          let t := newTask s r.raw k (launchMbs r.raw mbtab (fieldOf r.raw 0x28 2)) deps rec r.conn q.launches false
          let s := { s with tasks := s.tasks ++ [t], nextId := s.nextId + 1 }
          let s := modPart s p fun x => { x with queues := modNth x.queues r.queue fun q => { q with launches := q.launches + 1 } }
          advanceQueue (wantDispatch s p) p r.queue

/-! ### TROUPE (R35, R340) -/

/-- The LAUNCH records of the parts. -/
def troupeParts (r : HRec) : List (List Byte) := (List.range (fieldOf r.raw 0x28 1)).map fun i => (r.data.drop (128 * i)).take 128

/-- A part's record obeys R337 and R340: a LAUNCH, with QUEUE 0xFF and NDEP 0, for a partition that exists and the host may
address. -/
def partRecordOk (s : State) (conn : Nat) (raw : List Byte) : Bool :=
  rKind raw == 1 && rQueue raw == 0xFF && fieldOf raw 0x2C 1 == 0 && (headerRules raw ++ launchRules raw).all (fun r => r.1 == 2 || !r.2)
    && hostMay s conn (rPart raw) && (s.part (rPart raw)).present

def distinct : List Nat → Bool
  | [] => true
  | a :: r => !r.contains a && distinct r

/-- The task of a part as it would be dispatched. -/
def partTask (s : State) (r : HRec) (raw : List Byte) : Except (Status × State) (Task × State) :=
  match launchTables s raw with
  | .error st => .error st
  | .ok (mbtab, _, s) =>
    match imageFor s (rPart raw) (fieldOf raw 0x20 8) with
    | .error st => .error st
    | .ok (k, s) =>
      .ok (newTask s raw k (launchMbs raw mbtab (fieldOf raw 0x28 2)) [] 0 r.conn (s.part (rPart raw)).troupes true, s)

/-- A reserved part stands while its cores serve its partition (R304, R340). -/
def standing (s : State) (x : Task × List (Nat × List Place)) : Bool := (placedCores x.2).all (coreServes s x.1.part [])

/-- The parts without a reservation are reserved in table order, as far as they fit (R340). Error: how the record completes. -/
def reserveParts (s : State) (r : HRec) : List (List Byte) → Except (Status × State) State
  | [] => .ok s
  | raw :: rest =>
    match partTask s r raw with
    | .error st => .error st
    | .ok (k, s) =>
      let p := k.part
      let images := k.nteams * if k.pclass == 2 then 2 else 1
      if !scheduling s p || !imageRoom s p images || (k.caps.testBit 0 && !hasN s p) then .ok s
      else match placeTeams s k (List.range k.nteams) (usesNow s) none none with
        | none => .ok s
        | some (ps, _) =>
          reserveParts { s with nextId := s.nextId + 1, troupe := s.troupe.map fun t => { t with parts := t.parts ++ [(k, ps)] } } r rest

/-- The parts reserved, in table order. -/
def inOrder (r : HRec) (parts : List (Task × List (Nat × List Place))) : List (Task × List (Nat × List Place)) :=
  (troupeParts r).filterMap fun raw => parts.find? fun x => x.1.part == rPart raw

/-- The parts of the TROUPE that hold no reservation, in table order. -/
def unreserved (r : HRec) (parts : List (Task × List (Nat × List Place))) : List (List Byte) :=
  (troupeParts r).filter fun raw => !parts.any fun x => x.1.part == rPart raw

/-- Every part holds its reservation: all parts start together in table order, each on the places reserved for it, and the TROUPE completes
(R35, R340). -/
def commitParts (s : State) (r : HRec) (parts : List (Task × List (Nat × List Place))) : State :=
  let s := (inOrder r parts).foldl (fun s x =>
    let k := { x.1 with enqueued := s.mod.time }
    let s := modPart { s with tasks := s.tasks ++ [k] } k.part fun q => { q with troupes := q.troupes + 1 }
    dispatchTeams s k x.2) { s with troupe := none }
  finishRec s r.id Status.done

/-- The TROUPE ends without starting a part: every reservation and every copy made for a part is released, which changes the
room of its partition (R74, R309, R340). -/
def endTroupe (s : State) (rec : Nat) (st : Status) : State :=
  let held : List Task := match s.troupe with | some t => t.parts.map fun x => x.1 | none => []
  let s := held.foldl (fun s k => roomChanged (releaseCopy s k.part k.img) k.part) { s with troupe := none }
  finishRec s rec st

/-- The parts not yet reserved are tried, after those whose cores have gone from under them; with the last of them the TROUPE
commits. -/
def tryTroupe (s : State) (rec : Nat) : State :=
  match s.recs.find? (fun r => r.id == rec), s.troupe with
  | some r, some t =>
    let kept := t.parts.filter (standing s)
    match reserveParts { s with troupe := some { t with parts := kept } } r (unreserved r kept) with
    | .error (st, s) => endTroupe s rec st
    | .ok s => match s.troupe with
      | some t => if t.parts.length == (troupeParts r).length then commitParts s r t.parts else s
      | none => s
  | _, _ => s

/-- TROUPE: starts when no other runs, reads its parts, and reserves; again when room has changed (R340). -/
def execTroupe (rec : Nat) (s : State) : Result :=
  match s.troupe with
  | some t => .next (if t.record == rec && recordsRun s then tryTroupe s rec else s)
  | none => startRec s rec 0x02 none fun r s =>
    match readRange s r.part (fieldOf r.raw 0x20 8) (128 * fieldOf r.raw 0x28 1) with
    | .error a => finishRec (logMalformed s r.part a) rec (Status.fault a)
    | .ok (bs, s) =>
      let r := { r with data := bs }
      if !(troupeParts r).all (partRecordOk s r.conn) || !distinct ((troupeParts r).map rPart) then finishRec s rec (Status.rejected 0x20)
      else tryTroupe (modRec { s with troupe := some { record := rec, parts := [] } } rec fun r => { r with data := bs }) rec

/-- TROUPE_TWAIT_EXPIRY: every reservation is released, and the record completes REFUSED 6 with the part that did not fit. -/
def execTroupeTwaitExpiry (rec : Nat) (s : State) : Result :=
  .next (match s.recs.find? (fun r => r.id == rec), s.troupe with
    | some r, some t =>
      if t.record == rec && recordsRun s && fieldOf r.raw 0x2C 4 ≤ micros s r.started && !actionsHeld s r.raw then
        let part := rPart ((unreserved r t.parts).getD 0 [])
        endTroupe s rec (Status.refused (6 + 256 * part))
      else s
    | _, _ => s)

/-! ### WAIT and SIGNAL (R341) -/

/-- WAIT: reads ADDR; it is done, or watches the counter. -/
def execWait (rec : Nat) (s : State) : Result :=
  startRec s rec 0x03 none fun r s =>
    let a := fieldOf r.raw 0x20 8
    match reach s r.part .load a 8 with
    | none => finishRec (logMalformed s r.part a) rec (Status.fault a)
    | some (pa, s) =>
      if fieldOf r.raw 0x28 8 ≤ getLe s.mem pa 8 then finishRec s rec Status.done
      else modRec s rec fun r => { r with watch := some pa }

/-- A write that the record makes would be held back by a commit (R406): the record waits with its start. -/
def unlessWriteHeld (s : State) (rec va len : Nat) (k : Unit → Result) : Result :=
  match s.recs.find? (fun r => r.id == rec) with
  | none => .next s
  | some r => if rangeHeld s r.part va len then .next s else k ()

def fieldOfRec (s : State) (rec off n : Nat) : Nat :=
  match s.recs.find? (fun r => r.id == rec) with
  | none => 0
  | some r => fieldOf r.raw off n

/-- SIGNAL: adds INC at ADDR as one far-atomic step. -/
def execSignal (rec : Nat) (s : State) : Result :=
  unlessWriteHeld s rec (fieldOfRec s rec 0x20 8) 8 fun _ =>
    startRec s rec 0x04 none fun r s =>
      let a := fieldOf r.raw 0x20 8
      match reach s r.part .store a 8 with
      | none => finishRec (logMalformed s r.part a) rec (Status.fault a)
      | some (pa, s) => finishRec (addDword s r.part pa (BitVec.ofNat 64 (fieldOf r.raw 0x28 8))) rec Status.done

/-! ### HOST_COPY (R287, R339, R341) -/

/-- The owner of the shared range that holds an address; none outside every range (R287). -/
def ownerAt (s : State) (p va : Nat) : Option Bool := ((s.part p).ranges.find? fun r => r.va ≤ va && va < r.va + r.len).map (·.device)

/-- Some byte of a range belongs to a shared range that the device owns. -/
def deviceOwns (s : State) (p va len : Nat) : Bool := (s.part p).ranges.any fun r => r.device && r.va < va + len && va < r.va + r.len

/-- An address as HOST_COPY reaches it: DEV does not bear on a range that the host owns (R287). -/
def hostReach (s : State) (p : Nat) (k : Kind) (va size : Nat) : Option (Nat × State) :=
  if ownerAt s p va == some false then
    let s := (copyOnTouch s p k va).getD s
    match walkVA s p va with
    | some (e, ea, psize) => match throughLeaf s k (withBit e 1 true) ea psize va size with
      | .ok pa pte => some (pa, match k with | .store => setDirty s pte | .load => s)
      | _ => none
    | none => none
  else reach s p k va size

/-- Bytes from the host, unit by unit (R290): how many were written. -/
def hostWrite (p : Nat) : Nat → State → Nat → List Byte → Nat → Nat × State
  | 0, s, _, _, done => (done, s)
  | fuel + 1, s, va, bs, done =>
    if bs.isEmpty then (done, s)
    else
      let n := min bs.length (64 - va % 64)
      match hostReach s p .store va n with
      | none => (done, s)
      | some (pa, s) => hostWrite p fuel (writePhys s (some p) pa (bs.take n)) (va + n) (bs.drop n) (done + n)

/-- Bytes to the host, up to the first that does not translate or lies in a poisoned unit (R341, R358). -/
def hostRead (p : Nat) : Nat → State → Nat → Nat → List Byte × State
  | 0, s, _, _ => ([], s)
  | fuel + 1, s, va, len =>
    if len == 0 then ([], s)
    else
      let n := min len (64 - va % 64)
      match hostReach s p .load va n with
      | none => ([], s)
      | some (pa, s) =>
        if poisonedIn s pa n then ([], s)
        else
          let (r, t) := hostRead p fuel s (va + n) (len - n)
          (readPhys s pa n ++ r, t)

/-- The range lies in the window where the host finds the idle dirty bitmap of a partition that has them (R286, log 60). -/
def inBitmap (s : State) (p va len : Nat) : Bool :=
  (s.part p).dirtyOn && Config.bitmapVA ≤ va && va + len ≤ Config.bitmapVA + Config.bitmapBytes

/-- Byte k of a bitmap given by its set bits: bit i lies at bit i mod 8 of byte i / 8 (R286). -/
def bitmapByte (bits : List Nat) (k : Nat) : Byte :=
  BitVec.ofNat 8 ((bits.filter fun i => i / 8 == k).foldl (fun n i => n + 2 ^ (i % 8)) 0)

/-- The set bits of a bitmap after bytes are written from byte k on. -/
def bitmapWrite (bits : List Nat) (k : Nat) (bs : List Byte) : List Nat :=
  (bs.zipIdx.flatMap fun x => ((List.range 8).filter fun j => x.1.getLsbD j).map fun j => 8 * (k + x.2) + j).foldl insertNat
    (bits.filter fun i => i / 8 < k || k + bs.length ≤ i / 8)

/-- RESULT messages of at most 8,192 bytes each. -/
def results (s : State) (r : HRec) (st : Status) : Nat → List Byte → State
  | 0, _ => s
  | fuel + 1, bs => if bs.isEmpty then s else results (resultTo s r st (bs.take 8192)) r st fuel (bs.drop 8192)

/-- A HOST_COPY that has moved so many bytes ends here: OWNED in a range that the device owns, or FAULT at an address that does not
translate (R287, R341). -/
def copyStatus (code moved faddr : Nat) : Status := { code := code, detail := 0, bytes := moved, faddr := faddr }

/-- The data of a HOST_COPY to the device that has come goes to its place, whole 64 B units while more is to come (R290, R339, R341). -/
def hostTake (s : State) (r : HRec) : State :=
  let a := fieldOf r.raw 0x20 8
  let len := fieldOf r.raw 0x28 8
  let at_ := a + r.moved
  let n := if r.moved + r.data.length == len then r.data.length else r.data.length - (at_ + r.data.length) % 64
  let goOn (s : State) : State :=
    if r.moved + n == len then finishRec s r.id (copyStatus 1 len 0) else modRec s r.id fun r => { r with moved := r.moved + n, data := r.data.drop n }
  if inBitmap s r.part a len then
    goOn (modPart s r.part fun q => { q with dirtyIdle := bitmapWrite q.dirtyIdle (at_ - Config.bitmapVA) (r.data.take n) })
  else if deviceOwns s r.part at_ (len - r.moved) then finishRec s r.id (copyStatus 0x0B r.moved 0)
  else
    let (m, s) := hostWrite r.part (n / 64 + 2) s at_ (r.data.take n) 0
    if m == n then goOn s else finishRec (logMalformed s r.part (at_ + m)) r.id (copyStatus 2 (r.moved + m) (at_ + m))

/-- The bytes that a HOST_COPY to the host asks for leave in RESULT messages (R341). -/
def hostGive (s : State) (r : HRec) : State :=
  let a := fieldOf r.raw 0x20 8
  let len := fieldOf r.raw 0x28 8
  let whole := copyStatus 1 len 0
  if inBitmap s r.part a len then
    let k := a - Config.bitmapVA
    finishRec (results s r whole (len / 8192 + 1) ((List.range len).map fun i => bitmapByte (s.part r.part).dirtyIdle (k + i))) r.id whole
  else if deviceOwns s r.part a len then finishRec s r.id (copyStatus 0x0B 0 0)
  else
    let (bs, s) := hostRead r.part (len / 64 + 2) s a len
    let st := if bs.length == len then whole else copyStatus 2 bs.length (a + bs.length)
    let s := if bs.length == len then s else logMalformed s r.part (a + bs.length)
    finishRec (results s r st (len / 8192 + 1) bs) r.id st

/-- A record of a kind that has started. -/
def startedRec (s : State) (rec kind : Nat) : Option HRec := s.recs.find? fun r => r.id == rec && r.kind == kind && r.status == .started

/-- HOST_COPY: moves LEN bytes between the message and DEVADDR. One to the device starts when its turn comes and goes on as its data comes
(R335, R339, log 37). -/
def execHostCopy (rec : Nat) (s : State) : Result :=
  match startedRec s rec 0x05 with
  | some r =>
    .next (if !recordsRun s || actionsHeld s r.raw || rangeHeld s r.part (fieldOf r.raw 0x20 8 + r.moved) r.data.length then s else hostTake s r)
  | none =>
    unlessWriteHeld s rec (fieldOfRec s rec 0x20 8) (if fieldOfRec s rec 0x30 1 == 0 then fieldOfRec s rec 0x28 8 else 0) fun _ =>
      startRec s rec 0x05 none fun r s => if fieldOf r.raw 0x30 1 == 0 then hostTake s r else hostGive s r

end Sys2Proof.Machine
end

