-- ==== Sys2Proof/Machine/Reset.lean ====
section
/-!
DEFINITION. What the module loses when it stops (R302, R352-R354, R402, R416): the operations that RESTART, a die reset, a warm
start, a thermal trip and the loss of power share.
-/

namespace Sys2Proof.Machine

/-- A memory range loses what it holds: every listed byte takes a free value (log 17). -/
def scramble (s : State) (lost : Nat → Bool) : State :=
  let (n, s) := fresh s
  { s with mem := (s.mem.filter fun c => lost c.1).foldl (fun m c => setCell m c.1 (Config.staleByte n c.1)) s.mem
           poison := s.poison.filter fun u => !lost u }

/-- Frames that the two slots and the journal of a domain take of the quota (R401, R403): each slot has a header part. -/
def slotHeader (nwork : Nat) : Nat := (64 + 16 * nwork + 65535) / 65536 * 65536
def slotBytes (nwork : Nat) : Nat := slotHeader nwork + nwork * 0x200000
def domainFrames (nwork : Nat) : Nat := (2 * slotBytes nwork + 4096 * 64) / 4096

/-- What a partition keeps of its work: nothing (R416); its cores, quota, heap grant, scheduling parameters, page table, shared
ranges, domain and recovery-point registers stay. -/
def Partition.idle (q : Partition) : Partition :=
  { q with frozen := false, dirtyActive := [], dirtyIdle := [], handler := none, debugger := false, stopSh := false, trapImage := none
           cueActive := none, cueStandby := none, cueStat := CueStat.zero, run := CueRun.idle, pending := [], lastQ := 63
           preempts := 0, moves := 0, usage := [], decisionLog := []
           usedFrames := q.frames.length + (match q.domain with | some d => domainFrames d.nwork | none => 0)
           domain := q.domain.map fun d => { d with held := [] } }

/-- All work is lost without a completion action: tasks, teams, images, ensembles, engine records, command records; the
connections end (R416). -/
def loseWork (s : State) : State :=
  let reserved : List Task := match s.troupe with | some t => t.parts.map fun x => x.1 | none => []
  let copies := (s.images.map (fun e => (e.part, e.img)) ++ (s.tasks ++ reserved).map fun k => (k.part, k.img)).eraseDups
  let s := { s with thr := Thread.blank, others := [], teams := [], tasks := [], images := [], troupe := none }
  let s := copies.foldl (fun s x => releaseCopy s x.1 x.2) s
  { s with eng := [], frames := [], rounds := [], ensembles := [], ensUses := [], ensGens := [], recs := [], conns := [], notices := [], fabric := []
           cores := s.cores.map fun c => { c with testing := false, tlb := [], watches := [] }
           parts := s.parts.map fun q => if q.present then q.idle else q
           mod := { s.mod with portOpen := false, inReset := true, raising := [], raisingRec := none, sealing := none } }

/-- The writes of a domain that a reset undoes, newest first: of the writes that touch a byte a prefix survives (R302). The
list is taken oldest first; `blocked` holds the ranges of those that did not survive. -/
def lostWrites (n : Nat) : Nat → List LooseWrite → List LooseWrite → List LooseWrite
  | _, [], blocked => blocked
  | i, w :: r, blocked =>
    if Config.writeSurvives n i && !blocked.any w.touches then lostWrites n (i + 1) r blocked
    else lostWrites n (i + 1) r (w :: blocked)

/-- The domain of a partition after a reset: writes that no RCV release covers survive in some subset (R302, log 17). -/
def settleDomain (s : State) (p : Nat) : State :=
  match (s.part p).domain with
  | none => s
  | some d =>
    let (n, s) := fresh s
    let s := { s with mem := (lostWrites n 0 d.loose.reverse []).foldl (fun m w => w.old.foldl (fun m c => setCell m c.1 c.2) m) s.mem }
    modPart s p fun q => { q with domain := some { d with loose := [] } }

/-- Memory that holds through a reset: the durable granules and the page tables (R402, R416). -/
def heldThrough (s : State) (a : Nat) : Bool :=
  s.parts.toList.any fun q => q.present && (q.tables.any (fun f => f ≤ a && a < f + 4096) || match q.domain with
    | some d => (d.granules ++ d.pbGranules).any fun g => g ≤ a && a < g + 0x200000
    | none => false)

/-- The module stops for a warm start (R416): work and connections are gone, domains hold what R302 gives, and other memory
holds unspecified values. -/
def stopModule (s : State) : State :=
  let s := (List.range 8).foldl settleDomain (loseWork s)
  scramble s fun a => !heldThrough s a

end Sys2Proof.Machine
end

