-- ==== Sys2Proof/Machine/Admin.lean ====
section
/-!
DEFINITION. Control and DEBUG records of partitions and of the module: CUE_LOAD, CUE_SWAP, PART_CREATE, PART_DESTROY, RANGE_ACQUIRE,
RANGE_RELEASE, CONN_SET, CIRCUIT_LIT, and the DEBUG operations of R343 (R252-R255, R286-R288, R341-R349, R351-R353, R375, R376).
-/

namespace Sys2Proof.Machine

/-! ### Cue images (R252-R254) -/

/-- The slots of an image. -/
def cueSlots (bs : List Byte) : List (BitVec 16) :=
  (List.range (fieldOf bs 6 2)).map fun i => BitVec.ofNat 16 (fieldOf bs (32 + 2 * i) 2)

def cueOpcode (h : BitVec 16) : Nat := h.toNat / 2048

/-- Immediate of a slot with the prefix before it (R241). -/
def slotImm (code : List (BitVec 16)) (i : Nat) : Nat :=
  let low := (code.getD i 0).toNat % 32
  match i with
  | 0 => low
  | j + 1 => if cueOpcode (code.getD j 0) == 1 then (code.getD j 0).toNat % 2048 * 32 + low else low

/-- The slot follows a pfx. -/
def afterPfx (code : List (BitVec 16)) (i : Nat) : Bool :=
  match i with
  | 0 => false
  | j + 1 => cueOpcode (code.getD j 0) == 1

/-- Operations that a pfx may precede (R241), and those with a target. -/
def takesImm (op : Nat) : Bool := op == 3 || op == 5 || (0x11 ≤ op && op ≤ 0x16)
def takesLabel (op : Nat) : Bool := 0x11 ≤ op && op ≤ 0x16

/-- The iterations of a program: pairs of each and next in order, and the slots that break the pairing (R253). -/
def pairIterations (code : List (BitVec 16)) : List (Nat × Nat) × List Nat :=
  let d (i : Nat) : Nat := (code.getD i 0).toNat / 256 % 8
  let r := (List.range code.length).foldl (fun (x : Option Nat × List (Nat × Nat) × List Nat) i =>
    match cueOpcode (code.getD i 0), x.1 with
    | 0x16, none => (some i, x.2)
    | 0x16, some _ => (some i, x.2.1, i :: x.2.2)
    | 0x17, none => (none, x.2.1, i :: x.2.2)
    | 0x17, some e =>
      if d e != d i then (none, x.2.1, i :: x.2.2)
      else (none, x.2.1 ++ [(e, i)], if e + slotImm code e == i + 1 then x.2.2 else e :: x.2.2)
    | _, _ => x) (none, [], [])
  match r.1 with
  | some e => (r.2.1, e :: r.2.2)
  | none => r.2

/-- A slot breaks a rule of R240, R241 or R253 by itself or by its target. -/
def slotBad (code : List (BitVec 16)) (its : List (Nat × Nat)) (i : Nat) : Bool :=
  let h := code.getD i 0
  let op := cueOpcode h
  let t := i + slotImm code i
  (match decodeCue h with | .ok _ => false | .error _ => true)
    || (op == 1 && (code.length ≤ i + 1 || !takesImm (cueOpcode (code.getD (i + 1) 0))))
    || (takesLabel op && (t ≤ i || code.length ≤ t || afterPfx code t
        || its.any fun x => x.1 < t && t ≤ x.2 && !(x.1 < i && i ≤ x.2)))
    || (i + 1 == code.length && op != 0x1D && op != 0x1E)

/-- The lowest offset of a cue image that offends (R252, R253). -/
def cueImageFault (bs : List Byte) : Option Nat :=
  let n := fieldOf bs 6 2
  let head := [(0, fieldOf bs 0 4 != 0x4555434B), (4, fieldOf bs 4 2 != 1), (6, n < 1 || 1024 < n || bs.length != 32 + 2 * n), (0x10, nonzeroIn bs 0x10 0x20)]
  match head.find? (·.2) with
  | some r => some r.1
  | none =>
    let code := cueSlots bs
    let its := pairIterations code
    let entries := (List.range 4).map fun k =>
      let e := fieldOf bs (8 + 2 * k) 2
      (8 + 2 * k, e != 0xFFFF && (n ≤ e || afterPfx code e))
    let slots := (List.range n).map fun i => (32 + 2 * i, slotBad code its.1 i || its.2.contains i)
    ((entries ++ slots).find? (·.2)).map (·.1)

/-- CUE_LOAD: a checked image goes to the standby slot (R254, R341). -/
def execCueLoad (rec : Nat) (s : State) : Result :=
  startRec s rec 0x06 none fun r s =>
    match readRange s r.part (fieldOf r.raw 0x20 8) (fieldOf r.raw 0x28 4) with
    | .error a => finishRec (logMalformed s r.part a) rec (Status.fault a)
    | .ok (bs, s) =>
      match cueImageFault bs with
      | some o => finishRec s rec (Status.rejected (2 ^ 31 + o))
      | none =>
        let img : CueImage := { entries := (List.range 4).map fun k => fieldOf bs (8 + 2 * k) 2, code := cueSlots bs }
        finishRec (modPart s r.part fun q => { q with cueStandby := some img }) rec Status.done

/-- CUE_SWAP: the slots are exchanged at the start of the next decision, once for each swap that waits (R254). -/
def execCueSwap (rec : Nat) (s : State) : Result :=
  startRec s rec 0x07 none fun r s =>
    let q := s.part r.part
    if q.cueStandby.isNone then finishRec s rec (Status.refused 5)
    else
      let s := modPart s r.part fun q =>
        if q.cueStat.swapPend then { q with cueStat := { q.cueStat with moreSwaps := q.cueStat.moreSwaps + 1 } }
        else { q with cueStat := { q.cueStat with swapPend := true } }
      finishRec s rec Status.done

/-! ### Partitions (R304, R305, R341, R342) -/

/-- Two ranges share a byte: an empty one shares none. -/
def overlapsRange (a n b m : Nat) : Bool := decide (0 < n) && decide (0 < m) && decide (a < b + m) && decide (b < a + n)

/-- Why a PART_CREATE is refused (R342). -/
def createRefusal (s : State) (raw : List Byte) : Option Nat :=
  let pa := fieldOf raw 0x40 8
  let len := fieldOf raw 0x48 8
  let others := s.parts.toList.filter (·.present)
  let hit (a n : Nat) : Bool := overlapsRange pa len a n
  let resq := ((List.range 64).filter (fieldOf raw 0x50 8).testBit).length
  let resident := others.foldl (fun n q => n + (q.queues.toList.filter (·.resident)).length) 0
  if 256 < resident + resq then some 2
  else if (createCores raw).any fun c => (s.core c).owner.isSome then some 16
  else if others.any (fun q => hit q.heapPA q.heapLen || (q.frames ++ q.tables).any (fun f => hit f 4096)
      || match q.domain with | some d => (d.granules ++ d.pbGranules).any (fun g => hit g 0x200000) | none => false)
      || s.zeroing.any (fun z => hit z.1 z.2) then some 18
  else none

/-- The partition that a PART_CREATE describes. -/
def createPart (raw : List Byte) : Partition :=
  let w := fieldOf raw 0x58 8
  let prio (q : Nat) : BitVec 4 := BitVec.ofNat 4 (fieldOf raw (0x60 + q / 2) 1 / (if q % 2 == 0 then 1 else 16))
  { Partition.absent with
    present := true, quota := fieldOf raw 0x38 8, heapPA := fieldOf raw 0x40 8, heapLen := fieldOf raw 0x48 8
    queues := Vector.ofFn fun i : Fin 64 =>
      { prio := prio i.val, limit := bitsOf w 43 16 + 1, enabled := true, resident := (fieldOf raw 0x50 8).testBit i.val, launches := 0 }
    rebal := bitsOf w 0 16, starve := bitsOf w 16 10, nimg := bitsOf w 26 16, params := BitVec.ofNat 64 w, dirtyOn := w.testBit 42 }

/-- PART_CREATE. -/
def execPartCreate (rec : Nat) (s : State) : Result :=
  startRec s rec 0x08 none fun r s =>
    match createRefusal s r.raw with
    | some k => finishRec s rec (Status.refused k)
    | none =>
      let q := { createPart r.raw with lastRebal := s.mod.time }
      let s := modPart s r.part fun _ => q
      let s := (createCores r.raw).foldl (fun s c => modCore s c fun k => { k with owner := some r.part, tlb := [], watches := [] }) s
      finishRec { s with framePool := rangesMinus s.framePool q.heapPA q.heapLen } rec Status.done

/-- The memory that leaves with a partition (R288, R402): its frames, its page table's, its heap grant and its domain. -/
def partRanges (q : Partition) : List (Nat × Nat) :=
  (q.frames ++ q.tables).map (fun f => (f, 4096)) ++ (if q.heapLen == 0 then [] else [(q.heapPA, q.heapLen)])
    ++ match q.domain with
      | some d => (d.granules ++ d.pbGranules).map fun g => (g, 0x200000)
      | none => []

/-- A record of the partition ends CANCELLED: only its NOTE leaves (R341). -/
def cancelNote (s : State) (conn : Nat) (raw : List Byte) : State :=
  if rFlag raw 2 then replyTo s conn (replyHeader 1 (rPart raw) (rQueue raw) ++ Status.cancelled.word raw) else s

/-- Everything of a partition goes: threads, teams, tasks, records, ensembles, images. -/
def wipePart (s : State) (p : Nat) : State :=
  let gone := s.tasks.filter fun k => k.part == p
  let s := dropThreads s fun t => t.live && t.part == p
  let ids := gone.map (·.id)
  { s with teams := s.teams.filter fun u => u.part != p, tasks := s.tasks.filter fun k => k.part != p, eng := s.eng.filter fun r => r.part != p
           ensembles := s.ensembles.filter fun e => e.part != p, images := s.images.filter fun e => e.part != p
           cores := s.cores.map fun c => if c.owner == some p then { c with watches := [], tlb := [] } else c
           notices := s.notices.filter fun n => match n.dest with
             | .thread tid => s.threads.any fun t => t.tid == tid
             | .task id => !ids.contains id
             | .record _ => true }

/-- PART_DESTROY: every team stops, every task and record ends CANCELLED, and the frames join the zeroing list (R288, R341). The
reservations of a TROUPE that goes with its record are released in the other partitions too (R74, R309, R340). -/
def execPartDestroy (rec : Nat) (s : State) : Result :=
  startRec s rec 0x09 none fun r s =>
    let p := r.part
    let q := s.part p
    let tasks := s.tasks.filter fun k => k.part == p
    let recs := s.recs.filter fun x => x.part == p && x.id != rec
    let s := tasks.foldl (fun s k => cancelNote s k.conn k.launch) s
    let s := (recs.filter fun x => !tasks.any fun k => k.record == x.id && !k.troupe).foldl (fun s x => cancelNote s x.conn x.raw) s
    let s := { s with recs := s.recs.filter fun x => x.part != p || x.id == rec }
    let dropped := s.troupe.filter fun t => recs.any fun x => x.id == t.record
    let reserved : List Task := match dropped with | some t => t.parts.map fun x => x.1 | none => []
    let s := wipePart (if dropped.isSome then { s with troupe := none } else s) p
    let s := { s with cores := s.cores.map fun c => if c.owner == some p then { c with owner := none } else c
                      zeroing := s.zeroing ++ partRanges q }
    let s := (reserved.filter fun k => k.part != p).foldl (fun s k => roomChanged (releaseCopy s k.part k.img) k.part) (modPart s p fun _ => Partition.absent)
    finishRec s rec Status.done

/-! ### Shared ranges (R287) -/

/-- DEV of every leaf of a range, and the owner. -/
def setOwner (s : State) (p va len : Nat) (device : Bool) : State :=
  let s := (pagesOf va len).foldl (fun s a => setLeaf s p a fun e => withBit e 1 device) s
  modPart s p fun q => { q with ranges := { va := va, len := len, device := device } :: q.ranges.filter fun r => !(r.va == va && r.len == len) }

/-- A partition holds at most 1,024 shared ranges. -/
def rangeRoom (s : State) (p va len : Nat) : Bool :=
  (s.part p).ranges.length < 1024 || (s.part p).ranges.any fun r => r.va == va && r.len == len

/-- A refusal for which the spec states no reason (log 42). -/
def refuseUnstated (s : State) (rec : Nat) : State :=
  let (n, s) := fresh s
  finishRec s rec (Status.refused (Config.unstatedReason n))

/-- RANGE_ACQUIRE hands the range to the device. -/
def execRangeAcquire (rec : Nat) (s : State) : Result :=
  startRec s rec 0x0A none fun r s =>
    let va := fieldOf r.raw 0x20 8
    let len := fieldOf r.raw 0x28 8
    if rangeRoom s r.part va len then finishRec (shootDown (setOwner s r.part va len true) r.part va len) rec Status.done else refuseUnstated s rec

/-- An access unit that was translated into one of these frames is still to be performed (R283). -/
def accessPending (s : State) (frames : List Nat) : Bool := unitPending s fun pa => frames.contains (pa / 4096 * 4096)

/-- RANGE_RELEASE: DEV := 0 by a shootdown; the record completes when the accesses translated before it have been performed (R283). -/
def execRangeRelease (rec : Nat) (s : State) : Result :=
  let finish (r : HRec) (s : State) : State :=
    let va := fieldOf r.raw 0x20 8
    let len := fieldOf r.raw 0x28 8
    if accessPending s ((pagesOf va len).filterMap (frameOf s r.part)) || actionsHeld s r.raw then s else finishRec s rec Status.done
  match s.recs.find? (fun r => r.id == rec && r.kind == 0x0B && r.status == .started) with
  | some r => .next (if recordsRun s then finish r s else s)
  | none => startRec s rec 0x0B none fun r s =>
    let va := fieldOf r.raw 0x20 8
    let len := fieldOf r.raw 0x28 8
    if rangeRoom s r.part va len then finish r (shootDown (setOwner s r.part va len false) r.part va len) else refuseUnstated s rec

/-! ### The photonic connection table (R347, R348) -/

def unitsOf (table : List (Nat × Nat × Nat)) (a b : Nat) : Nat := ((table.find? fun e => e.1 == a && e.2.1 == b).map (·.2.2)).getD 0

def setUnits (table : List (Nat × Nat × Nat)) (a b n : Nat) : List (Nat × Nat × Nat) :=
  (table.filter fun e => !(e.1 == a && e.2.1 == b)) ++ (if n == 0 then [] else [(a, b, n)])

def dieUnits (table : List (Nat × Nat × Nat)) (d : Nat) : Nat :=
  table.foldl (fun n e => if e.1 == d || e.2.1 == d then n + e.2.2 else n) 0

/-- Dies that lit entries join to die 16. -/
def joined (table : List (Nat × Nat × Nat)) : List Nat :=
  iterate 16 (fun l => (List.range 17).filter fun d => l.contains d || table.any fun e =>
    e.2.2 != 0 && ((e.1 == d && l.contains e.2.1) || (e.2.1 == d && l.contains e.1))) [16]

/-- A die in service: the store dies, the I/O die, and the chiplets that have not retired. -/
def dieServes (s : State) (d : Nat) : Bool := 12 ≤ d || !chipRetired s d

/-- Why a table is refused (R347). -/
def tableRefusal (s : State) (table : List (Nat × Nat × Nat)) : Option Nat :=
  if (List.range 17).any (fun d => Config.unitsPerDie < dieUnits table d) || Config.unitsPerModule < table.foldl (fun n e => n + e.2.2) 0 then some 3
  else if (List.range 17).any (fun d => dieServes s d && !(joined table).contains d) then some 4
  else none

/-- The entries that a CONN_SET names. -/
def connEntries (raw : List Byte) : List (Nat × Nat × Nat) :=
  (List.range (fieldOf raw 0x20 1)).map fun i =>
    (fieldOf raw (0x24 + 4 * i) 1, fieldOf raw (0x25 + 4 * i) 1, fieldOf raw (0x26 + 4 * i) 1)

/-- CONN_SET: reduced entries first, then the raised ones are lit; done when every entry has been applied (R348). -/
def execConnSet (rec : Nat) (s : State) : Result :=
  if !s.mod.raising.isEmpty then .next s
  else startRec s rec 0x12 none fun r s =>
    let now := s.mod.circuits
    let want := (connEntries r.raw).foldl (fun t e => setUnits t e.1 e.2.1 e.2.2) now
    match tableRefusal s want with
    | some k => finishRec s rec (Status.refused k)
    | none =>
      let up := want.filter fun e => unitsOf now e.1 e.2.1 < e.2.2
      let low := now.filterMap fun e =>
        let n := unitsOf want e.1 e.2.1
        if n == 0 then none else some (e.1, e.2.1, min n e.2.2)
      let s := { s with mod := { s.mod with circuits := low, raising := up, raisingRec := if up.isEmpty then none else some rec } }
      if up.isEmpty then finishRec s rec Status.done else s

/-- CIRCUIT_LIT: a raised entry is lit (R348). -/
def execCircuitLit (dieA dieB : Nat) (s : State) : Result :=
  .next (match s.mod.raising.find? (fun e => e.1 == dieA && e.2.1 == dieB) with
    | none => s
    | some e =>
      if !recordsRun s then s
      else
        let left := s.mod.raising.erase e
        let rec_ := s.mod.raisingRec
        let s := { s with mod := { s.mod with circuits := setUnits s.mod.circuits dieA dieB e.2.2, raising := left
                                              raisingRec := if left.isEmpty then none else rec_ } }
        match left, rec_ with
        | [], some id => finishRec s id Status.done
        | _, _ => s)

/-! ### DEBUG operations (R343) -/

/-- READ_CUESTAT (R255). -/
def execReadCuestat (rec : Nat) (s : State) : Result :=
  startRec s rec 0x13 (some 1) fun r s => debugDone s r Status.done (leBytes 8 (cueStatBits (s.part r.part)).toNat)

/-- READ_SCHEDSTAT (R326). -/
def execReadSchedstat (rec : Nat) (s : State) : Result :=
  startRec s rec 0x13 (some 2) fun r s => debugDone s r Status.done (leBytes 8 (schedStatBits s r.part).toNat)

/-- DSWAP: the dirty bitmaps are exchanged (R286). -/
def execDswap (rec : Nat) (s : State) : Result :=
  startRec s rec 0x13 (some 3) fun r s =>
    debugDone (modPart s r.part fun q => { q with dirtyActive := q.dirtyIdle, dirtyIdle := q.dirtyActive }) r Status.done []

/-- The attestation report without its signature (R375, R376). -/
def report (s : State) : List Byte :=
  let chips := ((List.range 12).filter (chipRetired s)).foldl (fun n c => n + 2 ^ c) 0
  let core (c : Nat) : Byte :=
    let k := s.core c
    BitVec.ofNat 8 (k.score.toNat + bitAt k.retired 6 + bitAt k.pass 7)
  leBytes 4 0x5454534B ++ leBytes 2 1 ++ leBytes 2 192 ++ leBytes 8 s.mod.testTime ++ (Config.sha256 Config.firmwareImage).take 32
    ++ (Config.sha256 s.mod.cfg.raw).take 32 ++ leBytes 2 chips ++ leBytes 1 s.mod.cfg.retire ++ List.replicate 13 0 ++ (List.range 192).map core

/-- READ_ATTESTATION. -/
def execReadAttestation (rec : Nat) (s : State) : Result :=
  startRec s rec 0x13 (some 4) fun r s => debugDone s r Status.done (report s ++ Config.attestationSignature (report s))

/-- QSET: PRIO, QEN and QLIMIT of one queue (R343). -/
def execQset (rec : Nat) (s : State) : Result :=
  startRec s rec 0x13 (some 5) fun r s =>
    let f (o n : Nat) : Nat := fieldOf r.raw o n
    let s := modPart s r.part fun q => { q with queues := modNth q.queues (f 0x22 1) fun c =>
      { c with prio := BitVec.ofNat 4 (f 0x23 1), enabled := f 0x24 1 == 1, limit := f 0x25 2 + 1 } }
    debugDone (wantDispatch s r.part) r Status.done []

/-- PSTATE: PS2, with no partition present (R353). Scratchpads and the near store are lost. -/
def execPstate (rec : Nat) (s : State) : Result :=
  startRec s rec 0x13 (some 6) fun r s =>
    if s.parts.toList.any (·.present) then
      let (n, s) := fresh s
      debugDone s r (Status.refused (Config.unstatedReason n)) []
    else
      let s := scramble (debugDone s r Status.done []) fun a => a < Config.nearEnd
      { s with mod := { s.mod with power := .ps2 } }

/-- CFGWRITE: a replacement signed part whose signature verifies; it takes effect at the next start (R351). -/
def execCfgwrite (rec : Nat) (s : State) : Result :=
  startRec s rec 0x13 (some 7) fun r s =>
    match readRange s r.part (fieldOf r.raw 0x22 8) (fieldOf r.raw 0x2A 4) with
    | .error a => debugDone (logMalformed s r.part a) r (Status.fault a) []
    | .ok (bs, s) =>
      if Config.signatureVerifies bs then
        debugDone { s with mod := { s.mod with nextCfg := some { Config.configOf bs with raw := bs } } } r Status.done []
      else
        let (n, s) := fresh s
        debugDone s r (Status.refused (Config.unstatedReason n)) []

/-- RESTART: the module stops for a warm or a cold start (R352, R416). -/
def execRestartModule (rec : Nat) (s : State) : Result :=
  startRec s rec 0x13 (some 8) fun r s =>
    let s := stopModule (debugDone s r Status.done [])
    { s with mod := { s.mod with coldDue := fieldOf r.raw 0x22 1 == 1 } }

end Sys2Proof.Machine
end

