-- ==== Sys2Proof/Machine/Image.lean ====
section
/-!
DEFINITION. The bytes of images: a team image written from a stopped or halted team and read back (R380, R389-R394), and the
partition image (R395). What the layout has no field for is listed in log 43.
-/

namespace Sys2Proof.Machine

/-! ### Writing a team image (R380, R389-R392) -/

/-- Bytes filled with zeros to n. -/
def padTo (n : Nat) (bs : List Byte) : List Byte := bs ++ List.replicate (n - bs.length) 0

def dwords (ws : List Word) : List Byte := ws.flatMap fun w => leBytes 8 w.toNat

/-- TASKID of a task (R389). -/
def taskId (k : Task) : Nat := k.part * 2 ^ 56 + (if k.troupe then 255 else k.queue) * 2 ^ 48 + k.seq % 2 ^ 48

/-- The trap record (R380). -/
def TrapRec.bytes (r : TrapRec) : List Byte :=
  let flags := bitAt r.access 0 + bitAt r.lvl 1 + bitAt r.df 2 + bitAt r.cmdv 3 + bitAt r.msv 4
  [r.cause, BitVec.ofNat 8 flags, BitVec.ofNat 8 r.thrIx, r.ocause] ++ leBytes 4 r.cmdix ++ dwords [r.tpc, r.taddr]
    ++ [BitVec.ofNat 8 r.engine, BitVec.ofNat 8 r.engNum] ++ leBytes 2 r.mstep ++ leBytes 4 0 ++ dwords [r.estat]
    ++ padTo 8 [r.dfcause] ++ dwords [r.dfaddr] ++ leBytes 8 r.time

/-- A loop level of a stream with its depth from the innermost active one (R390). -/
def loopBytes (x : StreamState) (l : Nat) : List Byte :=
  let v := getLoop x l
  dwords [v.start, v.endA] ++ leBytes 4 v.lc.toNat ++ [v.epi.setWidth 8]
    ++ leBytes 3 (bitAt v.active 0 + (if v.active then 2 * (x.order.idxOf l) else 0))

/-- The registers of the second block, in the order of R390. -/
def trapRegs (y : SysRegs) : List Word :=
  [y.tcause, y.taddr, y.tpc, y.txpc, y.tstat.bits, y.tvec] ++ y.tscr.toList ++ [y.crhnd, y.ulivec, y.uliret, y.hbase, y.hlimit, y.hoff]

/-- The wait that an image carries: the thread's, or the one that the handler where it stands has interrupted (R119, log 43). -/
def Thread.imagedWait (t : Thread) : Wait := if t.wait == .none then (t.waits.head?.map (·.2)).getD .none else t.wait

/-- The instruction at which the execute stream of a thread stands. -/
def standsAt (s : State) (t : Thread) : Option Instr := (focus s t.tid).map fun s => fetch { s with cur := .execute }

/-- WKIND, WADDR and WVAL (R390); a crc at its agreement point is a crc, and another instruction at one has no wait of this table
(R236). -/
def waitBytes (s : State) (t : Thread) : List Byte :=
  if t.crcMark.isSome then dwords [6, 0, 0] else match t.imagedWait with
  | .swait _ ea v _ => dwords [1, ea, v]
  | .ebar h n => dwords [2, h, BitVec.ofNat 64 n]
  | .wfi => dwords [3, 0, 0]
  | .rpwait q b => dwords [4, q, if b then 1 else 0]
  | .sigchk => dwords [if !t.ex.ended && standsAt s t == some .sigchk then 5 else 0, 0, 0]
  | .crc => dwords [6, 0, 0]
  | _ => dwords [0, 0, 0]

/-- AFAULT: the access stream is stopped at a faulting instruction (R119, R390). -/
def accessFault (t : Thread) : Bool := (t.trap.any fun x => x.stream == .access) || t.pf.any fun x => x.stream == .access

/-- Agreement points that a thread does not pass again when its image resumes: not the one of its end (R356). -/
def pointsPassed (t : Thread) : Nat :=
  t.ordinal - bitAt (t.sys.tstat.pclass == 2 && t.ex.ended && (t.ended || t.wait == .agreed)) 0

/-- An engine queue entry (R390). -/
def cmdBytes (c : Cmd) : List Byte :=
  leBytes 8 (wordsValue c.i).toNat ++ leBytes 4 c.cmdix ++ leBytes 4 0 ++ dwords [c.shp, c.g1, c.g2]

/-- An LFMT code (R390). -/
def LatchFmt.code : LatchFmt → Nat
  | .empty => 0 | .e4m3 => 1 | .e5m2 => 2 | .bf16 => 3 | .fp16 => 4 | .int8 => 5 | .q4 => 6

/-- log2 of an access size. -/
def sizeCode (n : Nat) : Nat := if n == 8 then 3 else if n == 4 then 2 else if n == 2 then 1 else 0

/-- The fixed part of a thread section (R390). -/
def threadFixed (s : State) (t : Thread) : List Byte :=
  let q := t.qs
  let marks := t.ax.marks ++ t.ex.marks
  let queueCounts := q.ldq.toList.map (·.length) ++ [q.saq.length, q.sdq.length, q.bq.length, q.xq.length]
  padTo 16 (leBytes 2 t.thrIx ++ leBytes 2 (bitAt t.ax.ended 0 + bitAt t.ex.ended 1 + bitAt (accessFault t) 2) ++ leBytes 1 (membershipsOf s (memberOf t)))
    ++ dwords [t.ax.pc, t.ex.pc] ++ dwords (0 :: t.g.toList.drop 1) ++ dwords t.gi.toList ++ dwords t.h.toList
    ++ (List.range 4).flatMap (loopBytes t.ax) ++ (List.range 4).flatMap (loopBytes t.ex)
    ++ dwords [rotBits t, t.shp, t.sys.sigv, t.sys.sigs] ++ dwords (trapRegs t.sys) ++ dwords t.sys.pcnt.toList ++ dwords t.sys.psel.toList
    ++ padTo 384 (dwords (t.snapG ++ t.snapH)) ++ dwords [t.sys.frozenCause, t.sys.frozenAddr] ++ waitBytes s t
    ++ leBytes 8 (t.uli.length + bitAt t.ovf 8) ++ padTo 384 (t.uli.flatMap fun u => dwords [u.status, u.bytes] ++ leBytes 8 u.engine)
    ++ queueCounts.flatMap (leBytes 1)
    ++ leBytes 4 (t.ax.marks.length + 256 * t.ex.marks.length) ++ leBytes 4 q.holdCmdix ++ padTo 32 (marks.flatMap fun m => leBytes 4 m.total)
    ++ leBytes 8 ((q.bq.zipIdx).foldl (fun n x => n + bitAt x.1 x.2) 0)
    ++ leBytes 8 (t.latch.fmt.code + bitAt t.latch.groupY 8 + bitAt t.latch.poison 16) ++ dwords [t.mat.bits (t.sys.tstat.pclass != 0)]
    ++ leBytes 4 t.table.lo.toNat ++ leBytes 4 t.table.scale.toNat ++ leBytes 8 t.table.ctl.toNat
    ++ leBytes 8 (t.vq.length + 256 * t.mq.length) ++ padTo 48 (leBytes 4 q.saqTot ++ leBytes 4 q.sdqTot)
    ++ q.ldq.toList.flatMap (fun l => padTo 512 (dwords (l.map fun e => e.getD 0)))
    ++ padTo 512 (q.saq.flatMap fun a => leBytes 8 (a.pa + sizeCode a.size * 2 ^ 57)) ++ padTo 512 (dwords q.sdq) ++ padTo 128 (dwords q.xq)
    ++ getCells t.table.segs 0 1024 ++ padTo 1280 (t.vq.flatMap cmdBytes) ++ padTo 640 (t.mq.flatMap cmdBytes) ++ getCells t.spill 0 4096

/-- Bits of a set of numbers below n. -/
def bitSet (n : Nat) (l : List Nat) : Nat := ((List.range n).filter l.contains).foldl (fun v i => v + 2 ^ i) 0

/-- An accumulator (R391). -/
def accBytes (a : Acc) : List Byte :=
  let bank (b : Cells32) : List Byte := (List.range 32768).flatMap fun i => leBytes 4 (getCell32 b i).toNat
  bank a.vis ++ bank a.work ++ leBytes 32 (bitSet 256 a.visPoison) ++ leBytes 32 (bitSet 256 a.workPoison)

/-- The variable part of a thread section (R391). The predicates are those of every loop and loop-back that has completed, also of one
whose write waits behind queued commands (R97, R148, log 43). -/
def threadVariable (k : KImage) (t : Thread) : List Byte :=
  let t := allSettled t
  getCells t.v 0 (8192 * k.vregs) ++ (t.p.toList.drop 1).flatMap (fun p => leBytes 1024 p.toNat) ++ getCells t.q 0 8192 ++ getCells t.z 0 32768
    ++ (t.acc.toList.take k.accs).flatMap accBytes
    ++ (if t.latch.fmt == .empty then [] else
        getCells t.latch.bytes 0 32768 ++ (List.range 512).flatMap fun i => leBytes 4 (getCell32 t.latch.factors i).toNat)
    ++ getCells t.spad 0 (4096 * k.spadUnits) ++ getCells t.spad 0x40000 (4096 * k.spadUnits)

/-- A record entry (R392). -/
def recordEntry (r : EngRec) : List Byte :=
  padTo 128 (padTo 64 (dwords r.words) ++ leBytes 8 r.bytes ++ leBytes 8 r.seq
    ++ [BitVec.ofNat 8 r.eng, BitVec.ofNat 8 r.owner.2.2, BitVec.ofNat 8 (bitAt r.begun 0 + bitAt r.faulted 1), 0, 0, 0, 0, 0] ++ dwords [r.faddr])

/-- Length and CHECK of an image are set into its header: CHECK is the CRC-32C of the image with CHECK zero (R389, R395). -/
def sealImage (bs : List Byte) : List Byte :=
  let b := bs.take 8 ++ leBytes 4 bs.length ++ leBytes 4 0 ++ bs.drop 16
  b.take 12 ++ leBytes 4 (crc32c b).toNat ++ b.drop 16

/-- The records that a stop took into the image of a team; a pair's lie in the image of replica 0. -/
def imagedRecords (s : State) (u : Team) : List EngRec :=
  if u.rep == 0 then s.eng.filter fun r => r.status == .imaged && r.owner.1 == u.task && r.owner.2.1 == u.ix else []

/-- The team image (R389). ORDINAL is the count over the team's threads (log 43). -/
def teamImage (s : State) (k : Task) (u : Team) (ts : List Thread) (recs : List EngRec) : List Byte :=
  let ts := ts.mergeSort fun a b => a.thrIx ≤ b.thrIx
  let seated := u.status == .resident || u.status == .stopping
  let flags := bitAt (if seated then Config.nClass u.chip else u.classN) 0 + bitAt (k.pclass == 2) 1 + bitAt (u.rep == 1) 2 + bitAt u.mig 3
    + bitAt k.pin 4 + bitAt u.trapRec.isSome 5 + bitAt u.dbgHalt 6
  let g := k.img
  let head := leBytes 4 0x4D414554 ++ leBytes 2 1 ++ leBytes 1 0 ++ leBytes 1 flags ++ leBytes 8 0 ++ leBytes 8 (taskId k) ++ leBytes 2 u.ix
    ++ [g.threads, g.vregs, g.rotN, g.accs, g.spadUnits, k.pclass, k.caps, if u.home < 12 then u.home else 15].flatMap (leBytes 1)
    ++ leBytes 2 recs.length ++ leBytes 4 (ts.foldl (fun n t => n + pointsPassed t) 0)
  sealImage (padTo 64 head ++ dwords u.mb.toList ++ padTo 64 (match u.trapRec with | some r => r.bytes | none => []) ++ List.replicate 64 0
    ++ ts.flatMap (fun t => threadFixed s t ++ threadVariable g t) ++ recs.flatMap recordEntry)

/-- The image of a team as it stands. -/
def teamImageNow (s : State) (u : Team) : Option (List Byte) :=
  (findTask s u.task).map fun k => teamImage s k u (threadsOf s u) (imagedRecords s u)

/-! ### Reading a team image (R393, R394) -/

/-- Where a thread section stands: its own bytes, its class, and where its variable part lies. -/
structure Section where
  bs : List Byte
  img : KImage
  deriving DecidableEq, Repr

def Section.f (x : Section) (o n : Nat) : Nat := fieldOf x.bs o n
def Section.w (x : Section) (o : Nat) : Word := BitVec.ofNat 64 (fieldOf x.bs o 8)
def Section.ws (x : Section) (o n : Nat) : List Word := (List.range n).map fun i => x.w (o + 8 * i)
def Section.at (x : Section) (o n : Nat) : List Byte := (x.bs.drop o).take n

/-- A vector of words from an offset. -/
def Section.vec (x : Section) (o n : Nat) : Vector Word n := Vector.ofFn fun i : Fin n => x.w (o + 8 * i.val)

/-- Length of a section whose latch is loaded or not (R390, R391). -/
def sectionLen (k : KImage) (latch : Bool) : Nat :=
  0x3000 + 8192 * k.vregs + 15360 + 8192 + 32768 + 262208 * k.accs + (if latch then 34816 else 0) + 8192 * k.spadUnits

/-- The sections of an image, with the offset of each, by their number. -/
def sectionsOf (k : KImage) (bs : List Byte) : Nat → Nat → List (Nat × Section)
  | 0, _ => []
  | n + 1, o =>
    let len := sectionLen k (fieldOf bs (o + 0x7A8) 1 != 0)
    (o, { bs := (bs.drop o).take len, img := k }) :: sectionsOf k bs n (o + len)

/-- The instruction that the words of an engine queue entry hold, for one queue or the other. -/
def queuedInstr (x : Section) (o : Nat) (matrix : Bool) : Option Instr :=
  let w := BitVec.ofNat 32 (x.f o 4)
  let maj := (fMaj w).toNat
  if if matrix then maj == 0x38 || maj == 0x39 else (0x30 ≤ maj && maj ≤ 0x35) || maj == 0x3C || maj == 0x3D then
    match decode .execute w (BitVec.ofNat 32 (x.f (o + 4) 4)) with
    | .ok i => some i
    | .error _ => none
  else none

/-- A V name that reaches a physical register, and a P name, for some VBASE and PBASE (R91). -/
def someV (k : KImage) (b : Nat) (x : BitVec 7) : BitVec 7 :=
  if 32 ≤ x.toNat && x.toNat < 32 + k.rotN then BitVec.ofNat 7 (32 + (x.toNat - 32 + b) % k.rotN) else x

def someP (b x : Nat) : Nat := if x < 8 then x else 8 + (x + b) % 8

/-- The instruction as it was fetched: tint and tload raise format faults that show its words (R66). -/
def fetched (k : KImage) (b c : Nat) (i : Instr) : Instr :=
  match i with
  | .tint f => .tint { f with vd := someV k b f.vd, va := someV k b f.va, pred := BitVec.ofNat 4 (someP c f.pred.toNat) }
  | i => i

/-- Whether VD names a predicate (R129). -/
def namesP : Instr → Bool
  | .vceq _ | .vcne _ | .vclt _ | .vcle _ | .vcgt _ | .vcge _ | .pand _ | .por _ | .pxor _ | .pnot _ | .pset _ | .pld _ => true
  | _ => false

/-- The entries of an engine queue. Their addresses, the bases that their V and P names were rotated by, and the bank of G24-G31 are
not in the image (log 43). Pair 0 stands for the pairs formed before the latest, whose mark lies at HOLDIX. -/
def queueOf (x : Section) (o n : Nat) (matrix : Bool) (marks : List Mark) (free : Nat) : List Cmd :=
  let base := if matrix then 32 else 0
  (List.range n).filterMap fun i =>
    let o := o + 40 * i
    (queuedInstr x o matrix).map fun op =>
      let ix := x.f (o + 8) 4
      { i := op, cmdix := ix, shp := x.w (o + 16), g1 := x.w (o + 24), g2 := x.w (o + 32)
        marks := if ix < x.f 0x77C 4 then 0 else 1 + (marks.filter fun m => m.cmdix ≤ ix).length
        pc := BitVec.ofNat 64 (Config.notCarried free (256 + base + i))
        vd := let v := BitVec.ofNat 7 (bitsOf (x.f o 4) 19 7)
          if namesP op then BitVec.ofNat 7 (someP (Config.notCarried free (384 + i)) v.toNat) else someV x.img (Config.notCarried free (320 + i)) v
        bank := (Config.notCarried free (448 + base + i)).testBit 0
        words := wordsValue (fetched x.img (Config.notCarried free (320 + i)) (Config.notCarried free (384 + i)) op) }

/-- Bytes as a sparse array. -/
def cellsOf (bs : List Byte) : Cells := (bs.zipIdx.filter fun x => x.1 != 0).map fun x => (x.2, x.1)

/-- 32-bit elements as a sparse array. -/
def cells32Of (bs : List Byte) (n : Nat) : Cells32 :=
  (List.range n).filterMap fun i =>
    let v := BitVec.ofNat 32 (fieldOf bs (4 * i) 4)
    if v == 0 then none else some (i, v)

def membersOf (n v : Nat) : List Nat := (List.range n).filter v.testBit

/-- A loop level, and the order of the active ones (R390). -/
def levelOf (x : Section) (o : Nat) : LoopLevel :=
  { start := x.w o, endA := x.w (o + 8), lc := BitVec.ofNat 32 (x.f (o + 16) 4), epi := BitVec.ofNat 4 (x.f (o + 20) 1), active := (x.f (o + 21) 1).testBit 0 }

def streamOf (x : Section) (pc : Word) (ended : Bool) (o : Nat) (marks : List Mark) : StreamState :=
  let depth (l : Nat) : Nat := bitsOf (x.f (o + 24 * l + 21) 1) 1 2
  { StreamState.blank with
    pc := pc, ended := ended, marks := marks, loops := Vector.ofFn fun l : Fin 4 => levelOf x (o + 24 * l.val)
    order := ((List.range 4).filter fun l => (levelOf x (o + 24 * l)).active).mergeSort fun a b => depth a ≤ depth b }

/-- An accumulator at an offset. -/
def accOf (x : Section) (o : Nat) : Acc :=
  { vis := cells32Of (x.at o 131072) 32768, work := cells32Of (x.at (o + 131072) 131072) 32768
    visPoison := membersOf 256 (x.f (o + 262144) 32), workPoison := membersOf 256 (x.f (o + 262176) 32) }

/-- The latch (R390, R391). -/
def latchOf (x : Section) (o : Nat) : Latch :=
  let fmt : LatchFmt := match x.f 0x7A8 1 with
    | 1 => .e4m3 | 2 => .e5m2 | 3 => .bf16 | 4 => .fp16 | 5 => .int8 | 6 => .q4 | _ => .empty
  if fmt == .empty then Latch.empty
  else { fmt := fmt, groupY := x.f 0x7A9 1 == 1, poison := x.f 0x7AA 1 == 1, bytes := cellsOf (x.at o 32768), factors := cells32Of (x.at (o + 32768) 2048) 512 }

/-- The table; SCALE of a loaded one is above zero (R175), so zero says that it is empty. -/
def tableOf (x : Section) : Table :=
  if x.f 0x7BC 4 == 0 then Table.empty
  else { lo := BitVec.ofNat 32 (x.f 0x7B8 4), scale := BitVec.ofNat 32 (x.f 0x7BC 4), ctl := BitVec.ofNat 32 (x.f 0x7C0 4)
         nseg := x.f 0x7C0 1 + 1, segs := cellsOf (x.at 0x1480 1024) }

/-- A wait that an installed thread goes on with; every other instruction that waited issues again (R386, R387). -/
def waitOf (x : Section) : Wait :=
  match x.f 0x5D0 1 with
  | 2 => .ebar (x.w 0x5D8) (x.f 0x5E0 8)
  | 6 => .crc
  | _ => .none

/-- The unpaired marks. Their CMDIX counts, and which of those of the execute stream is a cro whose pair has not formed, with its handler and
its part of the snapshot, are not in the image (log 43). -/
def marksOf (x : Section) (n cmdix free : Nat) (ex : Bool) : List Mark :=
  let word (i : Nat) : Word := BitVec.ofNat 64 (Config.notCarried free (576 + i))
  let isCro (i : Nat) : Bool := ex && !(TStat.ofBits (x.w 0x2E0)).cropen && Config.notCarried free 40 == i + 1
  ((List.range n).foldl (fun (l : List Mark) i =>
    let last := match l.getLast? with | some m => m.cmdix | none => x.f 0x77C 4
    let m : Mark := { kind := .mark, total := x.f (0x780 + 4 * i) 4, cmdix := min cmdix (max last (Config.notCarried free (16 + i)))
                      pc := 0, handler := 0, regs := [], traffic := Traffic.zero }
    l ++ [if ex && i + 1 == n && x.f 0x5D0 1 == 6 then { m with kind := .crc }
      else if isCro i then { m with kind := .cro, handler := word 32, regs := 0 :: (List.range 31).map fun k => word (k + 1) }
      else m]) [])

/-- The system registers (R390). -/
def sysOf (x : Section) (y : SysRegs) : SysRegs :=
  let w (i : Nat) : Word := x.w (0x2C0 + 8 * i)
  { y with tcause := w 0, taddr := w 1, tpc := w 2, txpc := w 3, tstat := TStat.ofBits (w 4), tvec := w 5, tscr := x.vec 0x2F0 4
           crhnd := w 10, ulivec := w 11, uliret := w 12, hbase := w 13, hlimit := w 14, hoff := w 15, sigv := x.w 0x2B0, sigs := x.w 0x2B8
           pcnt := x.vec 0x340 16, psel := x.vec 0x3C0 16, frozenCause := x.w 0x5C0, frozenAddr := x.w 0x5C8 }

/-- Entries of the queues (R390). An SAQ entry's effective address is not in the image (log 43). -/
def queuesOf (x : Section) (ax ex : List Mark) (free : Nat) : Queues :=
  let n (k : Nat) : Nat := x.f (0x770 + k) 1
  let saqTot := x.f 0x7D0 4
  let sdqTot := x.f 0x7D4 4
  let paired := saqTot - n 4
  { Queues.empty with
    ldq := Vector.ofFn fun k : Fin 4 => (x.ws (0x800 + 512 * k.val) (n k.val)).map some
    saq := (List.range (n 4)).map fun i =>
      let e := x.f (0x1000 + 8 * i) 8
      { ea := BitVec.ofNat 64 (Config.notCarried free (64 + i)), pa := bitsOf e 0 57, size := 2 ^ bitsOf e 57 2
        marks := 1 + (ax.filter fun m => m.total ≤ paired + i).length }
    sdq := x.ws 0x1200 (n 5), bq := (List.range (n 6)).map (x.f 0x7A0 8).testBit, xq := x.ws 0x1400 (n 7)
    saqTot := saqTot, sdqTot := sdqTot, paired := paired, holdCmdix := x.f 0x77C 4, execMarks := 1 + ex.length, pairsFormed := 1
    pushed := { ldq := Vector.ofFn fun k : Fin 4 => n k.val, bq := n 6, xq := n 7 } }

/-- ORDINAL is the team's; thread 0 takes what the others, whose counts stay as they are, leave of it (R356, log 43). -/
def ordinalOf (total : Nat) (old : List (Nat × Nat)) (ix : Nat) : Nat :=
  let others := (old.filter fun x => x.1 != 0).foldl (fun n x => n + x.2) 0
  let own := ((old.find? fun x => x.1 == ix).map (·.2)).getD 0
  if total < others then (if ix == 0 then total else 0) else if ix == 0 then total - others else own

/-- A thread as its section gives it, in the place of t: identity, core and context stay (R387, R394). The CMDIX count is at least HOLDIX and
above those of the queued commands; the image has no other field for it (R381, log 43). R393 lists no test of APC and EPC: one that is not a
multiple of 4 is installed as it stands, and the stream fetches the word there (DESIGN CHOICE, log 43). -/
def installThread (free : Nat) (x : Section) (ordinal : Nat) (t : Thread) : Thread :=
  let k := x.img
  let vcount := x.f 0x7C8 1
  let mcount := x.f 0x7C9 1
  let ixs := (List.range vcount).map (fun i => x.f (0x1888 + 40 * i) 4) ++ (List.range mcount).map fun i => x.f (0x1D88 + 40 * i) 4
  let cmdix := max (x.f 0x77C 4) ((ixs.map (· + 1)).foldl max 0) + Config.notCarried free 3
  let axM := if x.f 0x778 1 == 0 then [] else marksOf x (x.f 0x778 1) cmdix free false
  let exM := if x.f 0x779 1 == 0 then [] else marksOf x (x.f 0x779 1) cmdix free true
  let oP := 0x3000 + 8192 * k.vregs
  let oQ := oP + 15360
  let oA := oQ + 40960
  let oL := oA + 262208 * k.accs
  let latch := latchOf x oL
  let oS := oL + if latch.fmt == .empty then 0 else 34816
  let y := sysOf x t.sys
  let trapped := y.tstat.lvl
  let inAccess := y.tcause.getLsbD 8
  let halt (b : Bool) (z : StreamState) : StreamState := { z with stopped := b }
  let region := y.tstat.cropen
  let base : Thread := { Thread.blank with
    tid := t.tid, live := true, resident := t.resident, part := t.part, task := t.task, team := t.team, teamIx := t.teamIx, thrIx := t.thrIx
    rep := t.rep, core := t.core, ctx := t.ctx, vregs := k.vregs, rotN := k.rotN, accs := k.accs, spadSize := 8192 * k.spadUnits
    ax := halt (trapped && !inAccess) (streamOf x (x.w 0x10) ((x.f 2 1).testBit 0) 0x1E0 axM)
    ex := halt (trapped && inAccess) (streamOf x (x.w 0x18) ((x.f 2 1).testBit 1) 0x240 exM)
    g := upd (x.vec 0x20 32) 0 0, gi := x.vec 0x120 8, h := x.vec 0x160 16, sys := y
    vbase := BitVec.ofNat 6 (x.f 0x2A0 1), pbase := BitVec.ofNat 3 (x.f 0x2A1 1), shp := x.w 0x2A8
    p := Vector.ofFn fun i : Fin 16 => if i.val == 0 then 0 else BitVec.ofNat 8192 (leNat (x.at (oP + 1024 * (i.val - 1)) 1024))
    v := cellsOf (x.at 0x3000 (8192 * k.vregs)), q := cellsOf (x.at oQ 8192), z := cellsOf (x.at (oQ + 8192) 32768)
    acc := Vector.ofFn fun i : Fin 6 => if i.val < k.accs then accOf x (oA + 262208 * i.val) else Acc.zero
    latch := latch, table := tableOf x, spill := cellsOf (x.at 0x2000 4096), spad := cellsOf (x.at oS (4096 * k.spadUnits)) ++ (cellsOf (x.at (oS + 4096 * k.spadUnits) (4096 * k.spadUnits))).map fun c => (c.1 + 0x40000, c.2)
    mat := { passes := BitVec.ofNat 32 (x.f 0x7B4 4), skips := BitVec.ofNat 16 (x.f 0x7B2 2), cskip := (x.f 0x7B0 1).testBit 0 }
    qs := queuesOf x axM exM free, vq := queueOf x 0x1880 vcount false exM free, mq := queueOf x 0x1D80 mcount true exM free
    cmdix := cmdix, wait := waitOf x, ordinal := ordinal, snapG := if region then x.ws 0x440 32 else [], snapH := if region then x.ws 0x540 16 else []
    openMark := if region then BitVec.ofNat 64 (Config.notCarried free 0) else 0
    regionCmdix := if region then min cmdix (Config.notCarried free 1) else 0
    regionMark := if region then Config.notCarried free 2 % 2 else 0, crcMark := if x.f 0x5D0 1 == 6 && exM.isEmpty then some 1 else none
    uli := (List.range (x.f 0x5E8 1)).map fun i => { status := x.w (0x5F0 + 24 * i), bytes := x.w (0x5F8 + 24 * i), engine := x.f (0x600 + 24 * i) 1 }
    ovf := x.f 0x5E9 1 == 1 }
  if region && !y.tstat.promo then
    { base with wings := (Config.regionLines free).foldl (fun (l : List WingsLine) c =>
        let u := c.1 / 64 * 64
        if l.any fun w => w.unit == u then l.map fun w => if w.unit == u then { w with cells := putBytes w.cells c.1 [c.2] } else w
        else l ++ [{ unit := u, cells := [c], held := false, sig := 0, poison := false }]) [] }
  else base

/-- Where a handler of the execute stream runs and does not itself wait at an ebar or a crc, the wait of the image is that of the instruction
that it has interrupted (R119, log 43). -/
def homeWait (s : State) (t : Thread) : Thread :=
  let own : Bool := match fetch { s with thr := t, cur := .execute } with | .ebar .. | .crc => true | _ => false
  if t.wait == .none || !t.sys.tstat.lvl || t.sys.tcause.getLsbD 8 || own then t
  else { t with wait := .none, waits := [(t.sys.tpc, t.wait)] }

/-! ### The tests of R393 -/

/-- A word of a system register with bits that no field has. -/
def regBad (n : Nat) (v : Word) : Bool := v != (if n == 0 then v &&& mask 0 9 else if n == 5 then v &&& mask 9 48
  else if n == 0x11 || n == 0x12 then v &&& mask 2 62 else if 0x20 ≤ n && n ≤ 0x22 then v &&& mask 12 45 else v)

/-- The tests of a thread section, at offsets of the section, in their order. -/
def sectionFaults (x : Section) (ix : Nat) (mclass : Bool) : List (Nat × Bool) :=
  let z (a b : Nat) : Nat × Bool := (a, nonzeroIn x.bs a b)
  let above (o lim : Nat) : Nat × Bool := (o, lim < x.f o 1)
  let k := x.img
  let rot := x.f 0x2A0 8
  let tstat := x.w 0x2E0
  let lfmt := x.f 0x7A8 1
  let ctl := x.f 0x7C0 4
  let loops := (List.range 8).flatMap fun i => let o := 0x1E0 + 24 * i; [above (o + 20) 15, above (o + 21) 7, z (o + 22) (o + 24)]
  let ulis := (List.range 16).map fun i => z (0x601 + 24 * i) (0x608 + 24 * i)
  let saq := (List.range 64).map fun i => (0x1007 + 8 * i, decide (8 ≤ x.f (0x1007 + 8 * i) 1))
  let cmds (o n room : Nat) (matrix : Bool) := (List.range room).flatMap fun i =>
    [(o + 40 * i, decide (i < n) && (queuedInstr x (o + 40 * i) matrix).isNone), z (o + 40 * i + 12) (o + 40 * i + 16),
      (o + 40 * i + 16, decide (2 ^ 19 ≤ x.f (o + 40 * i + 16) 8))]
  [(0, x.f 0 2 != ix), (2, 8 ≤ x.f 2 2), above 4 8, z 5 16] ++ loops
    ++ [(0x2A0, bitsOf rot 6 2 != 0 || bitsOf rot 11 53 != 0 || max 1 k.rotN ≤ bitsOf rot 0 6), (0x2A8, 2 ^ 19 ≤ x.f 0x2A8 8 || !shapeValid (x.w 0x2A8)),
        (0x2C0, regBad 0 (x.w 0x2C0)), (0x2E0, tstat != (TStat.ofBits tstat).bits), (0x2E8, regBad 5 (x.w 0x2E8)),
        (0x318, regBad 0x11 (x.w 0x318)), (0x320, regBad 0x12 (x.w 0x320)), (0x328, regBad 0x20 (x.w 0x328)), (0x330, regBad 0x21 (x.w 0x330)),
        (0x338, regBad 0x22 (x.w 0x338))]
    ++ (List.range 16).map (fun i => (0x3C0 + 8 * i, decide (256 ≤ x.f (0x3C0 + 8 * i) 8)))
    ++ [(0x5C0, regBad 0 (x.w 0x5C0)), above 0x5D0 6, z 0x5D1 0x5D8, above 0x5E8 16, above 0x5E9 1, z 0x5EA 0x5F0] ++ ulis
    ++ (List.range 7).map (fun i => above (0x770 + i) 64)
    ++ [above 0x777 16, above 0x778 8, (0x779, 8 < x.f 0x779 1 || (x.f 0x778 1 != 0 && x.f 0x779 1 != 0)), z 0x77A 0x77C,
        (0x7A8, 6 < lfmt || (mclass && lfmt == 6)), above 0x7A9 1, above 0x7AA 1, z 0x7AB 0x7B0, (0x7B0, 4 ≤ x.f 0x7B0 2),
        (0x7BC, mclass && x.f 0x7BC 4 != 0), (0x7C0, bitsOf ctl 12 20 != 0), z 0x7C4 0x7C8, above 0x7C8 32, above 0x7C9 16, z 0x7CA 0x7D0, z 0x7D8 0x800]
    ++ saq ++ cmds 0x1880 (x.f 0x7C8 1) 32 false ++ cmds 0x1D80 (x.f 0x7C9 1) 16 true

/-- The tests of the header of a team image that is to stand for a team of a task (R389, R393). -/
def teamHeaderFaults (k : Task) (bs : List Byte) : List (Nat × Bool) :=
  let f (o n : Nat) : Nat := fieldOf bs o n
  let z (a b : Nat) : Nat × Bool := (a, nonzeroIn bs a b)
  let g := k.img
  [(0, f 0 4 != 0x4D414554), (4, f 4 2 != 1), (6, f 6 1 != 0), (7, (f 7 1).testBit 7 || (f 7 1).testBit 1 != (k.pclass == 2) || ((f 7 1).testBit 2 && k.pclass != 2)),
    (0x1A, f 0x1A 1 != g.threads), (0x1B, f 0x1B 1 != g.vregs), (0x1C, f 0x1C 1 != g.rotN), (0x1D, f 0x1D 1 != g.accs), (0x1E, f 0x1E 1 != g.spadUnits),
    (0x1F, f 0x1F 1 != k.pclass), (0x20, f 0x20 1 != k.caps), (0x21, 12 ≤ f 0x21 1 && f 0x21 1 != 15), (0x22, 576 < f 0x22 2), z 0x28 0x40,
    (0x81, 32 ≤ f 0x81 1), z 0x9C 0xA0, z 0xA9 0xB0, z 0xC0 0x100]

/-- RSVD bits of dword r of a record as pushed (R185, R186, R189). -/
def recordRsvd (w : List Word) (r : Nat) : Bool :=
  let k := recKind w
  (r == 0 && bitsOf (recDword w 0) 11 5 != 0) || (r == 3 && (k == 1 || k == 3) && bitsOf (recDword w 3) 48 16 != 0)
    || (r == 3 && isColl k && bitsOf (recDword w 3) 40 8 != 0)

/-- The tests of the record entries. -/
def recordFaults (k : Task) (bs : List Byte) (o n : Nat) : List (Nat × Bool) :=
  let z (a b : Nat) : Nat × Bool := (a, nonzeroIn bs a b)
  (List.range n).flatMap fun i =>
    let o := o + 128 * i
    let w := (List.range 8).map fun j => BitVec.ofNat 64 (fieldOf bs (o + 8 * j) 8)
    (List.range 8).map (fun r => (o + 8 * r, recordRsvd w r)) ++ [(o + 0x50, decide (32 < fieldOf bs (o + 0x50) 1)), (o + 0x51, decide (k.img.threads ≤ fieldOf bs (o + 0x51) 1)), (o + 0x52, decide (4 ≤ fieldOf bs (o + 0x52) 1)),
      z (o + 0x53) (o + 0x58), z (o + 0x60) (o + 0x80)]

/-- Where the record entries begin. -/
def sectionsEnd (ss : List (Nat × Section)) : Nat := match ss.getLast? with | some x => x.1 + x.2.bs.length | none => 0x100

/-- CHECK holds: the CRC-32C of the image with CHECK zero. -/
def checkOk (bs : List Byte) : Bool := fieldOf bs 12 4 == (crc32c (bs.take 12 ++ leBytes 4 0 ++ bs.drop 16)).toNat

/-- The offset at which the bytes given are no team image of the task (R393): the lowest field at fault, CHECK last, as the
worked example has it. -/
def teamImageFault (k : Task) (bs : List Byte) (mclass : Bool) : Option Nat :=
  let n := fieldOf bs 8 4
  let ss := sectionsOf k.img bs k.img.threads 0x100
  let nrec := fieldOf bs 0x22 2
  let head := teamHeaderFaults k bs
  let early := (head.filter fun r => r.1 < 8) ++ [(8, n != sectionsEnd ss + 128 * nrec || bs.length != n)]
  let rest := (head.filter fun r => 8 < r.1) ++ (ss.zipIdx).flatMap (fun x => (sectionFaults x.1.2 x.2 mclass).map fun r => (x.1.1 + r.1, r.2))
    ++ recordFaults k bs (sectionsEnd ss) nrec ++ [(12, !checkOk bs)]
  ((early ++ rest).find? (·.2)).map (·.1)

/-- The trap record of an image (R380). -/
def trapRecOf (bs : List Byte) : TrapRec :=
  let f (o n : Nat) : Nat := fieldOf bs (0x80 + o) n
  let w (o : Nat) : Word := BitVec.ofNat 64 (f o 8)
  let b (o : Nat) : Byte := BitVec.ofNat 8 (f o 1)
  { cause := b 0, access := (f 1 1).testBit 0, lvl := (f 1 1).testBit 1, df := (f 1 1).testBit 2, cmdv := (f 1 1).testBit 3, thrIx := f 2 1, ocause := b 3
    cmdix := f 4 4, tpc := w 8, taddr := w 0x10, engine := f 0x18 1, engNum := f 0x19 1, mstep := f 0x1A 2, msv := (f 1 1).testBit 4, estat := w 0x20, dfcause := b 0x28, dfaddr := w 0x30
    time := f 0x38 8 }

/-- A thread that an image shows halted at a brk: the trap record names its stream and the address of the brk (R399). -/
def haltedAt (u : Team) (t : Thread) : Thread :=
  match u.trapRec with
  | some r =>
    let st : Stream := if r.access then .access else .execute
    if u.dbgHalt && r.cause == 0x11 && r.thrIx == t.thrIx && (t.st st).pc == r.tpc then { t with brkAt := some st } else t
  | none => t

/-- The team's own fields of an image. -/
def installTeam (bs : List Byte) (u : Team) : Team :=
  let flags := fieldOf bs 7 1
  { u with mb := Vector.ofFn fun i : Fin 8 => BitVec.ofNat 64 (fieldOf bs (0x40 + 8 * i.val) 8), mig := flags.testBit 3
           classN := flags.testBit 0, trapRec := if flags.testBit 5 then some (trapRecOf bs) else none, dbgHalt := flags.testBit 6 }

/-- The records of an image enter their queues behind every record there, in list order (R392, R396). -/
def installRecords (s : State) (k : Task) (u : Team) (bs : List Byte) (status : EngStatus) : State :=
  let o := sectionsEnd (sectionsOf k.img bs k.img.threads 0x100)
  (List.range (fieldOf bs 0x22 2)).foldl (fun s i =>
    let o := o + 128 * i
    let e := fieldOf bs (o + 0x50) 1
    let thr := fieldOf bs (o + 0x51) 1
    let tid := ((s.threads.find? fun t => t.team == u.id && t.live && t.thrIx == thr).map (·.tid)).getD 0
    let r : EngRec :=
      { id := s.nextId, part := k.part, eng := e, tid := tid, owner := (k.id, u.ix, thr)
        words := (List.range 8).map fun j => BitVec.ofNat 64 (fieldOf bs (o + 8 * j) 8), seq := nextSeq s k.part e, bytes := fieldOf bs (o + 0x40) 8
        status := status, started := (fieldOf bs (o + 0x52) 1).testBit 0, faulted := (fieldOf bs (o + 0x52) 1).testBit 1, faddr := BitVec.ofNat 64 (fieldOf bs (o + 0x58) 8), code := 0, detail := 0
        coll := none }
    { s with eng := s.eng ++ [r], nextId := s.nextId + 1 }) s

/-! ### The partition image (R395) -/

def taskStateCode : TaskState → Nat
  | .queued => 1
  | .head => 2
  | _ => 3

/-- The next team to dispatch (R395); after a restart the lowest that waits to be dispatched again (log 43). -/
def nextTeam (k : Task) : Nat := (undispatched k).head?.getD k.nteams

/-- A task entry. -/
def taskEntry (k : Task) : List Byte :=
  padTo 128 k.launch ++ padTo 64 (leBytes 8 (taskId k) ++ leBytes 2 (taskStateCode k.state) ++ leBytes 2 (nextTeam k) ++ leBytes 2 k.endedTeams.length)
    ++ padTo 128 (dwords (k.deps.flatMap fun d => [d.1, d.2])) ++ (k.mbs.drop (nextTeam k)).flatMap fun m => dwords m.toList

/-- TASKID of the task of a member. -/
def memberTask (s : State) (id : Nat) : Nat := match findTask s id with | some k => taskId k | none => 0

/-- An ensemble entry. -/
def ensembleEntry (s : State) (e : Ensemble) : List Byte :=
  let b := dwords [e.handle] ++ leBytes 4 e.members.length ++ leBytes 4 (e.members.filter (·.2)).length ++ leBytes 8 e.done ++ leBytes 8 0
    ++ e.members.flatMap fun m => leBytes 8 (memberTask s m.1.1) ++ leBytes 2 m.1.2.1 ++ leBytes 1 m.1.2.2 ++ leBytes 1 (bitAt m.2 0) ++ leBytes 4 0
  padTo ((b.length + 63) / 64 * 64) b

/-- The tasks of a partition in the order of its image: by queue, troupe parts last, and as they were enqueued. -/
def tasksOf (s : State) (p : Nat) : List Task := (s.tasks.filter fun k => k.part == p).mergeSort fun a b => (if a.troupe then 255 else a.queue) ≤ (if b.troupe then 255 else b.queue)

/-- The images in the context area that IMAGE_OUT numbers, by TASKID, TEAMIX and replica (R396). -/
def imagesOf (s : State) (p : Nat) : List Team :=
  let key (u : Team) : Nat := (memberTask s u.task * 65536 + u.ix) * 2 + u.rep
  (s.teams.filter fun u => u.part == p && u.rep < 2 && match u.status with
    | .suspended | .faultWait _ | .voting => true
    | _ => false).mergeSort fun a b => key a ≤ key b

/-- PRIOS of a partition. -/
def priosOf (q : Partition) : List Byte :=
  (List.range 32).map fun i => (nth q.queues (2 * i) noQueue).prio.setWidth 8 + (nth q.queues (2 * i + 1) noQueue).prio.setWidth 8 * 16

/-- The partition image. -/
def partImage (s : State) (p : Nat) : List Byte :=
  let q := s.part p
  let ens := s.ensembles.filter fun e => e.part == p
  let qen := bitSet 64 ((List.range 64).filter fun i => (nth q.queues i noQueue).enabled)
  sealImage (padTo 128 (leBytes 4 0x4D414554 ++ leBytes 2 1 ++ leBytes 2 1 ++ leBytes 8 0 ++ leBytes 4 p ++ leBytes 4 (imagesOf s p).length
      ++ leBytes 4 (tasksOf s p).length ++ leBytes 4 ens.length ++ dwords [q.params] ++ leBytes 8 qen ++ priosOf q)
    ++ (tasksOf s p).flatMap taskEntry ++ ens.flatMap (ensembleEntry s))

/-- Where the entries of a partition image lie: tasks, ensembles, and the end. -/
def taskOffsets (bs : List Byte) : Nat → Nat → List Nat × Nat
  | 0, o => ([], o)
  | n + 1, o =>
    let teams := fieldOf bs (o + 0x28) 2 - fieldOf bs (o + 0x8A) 2
    let r := taskOffsets bs n (o + 320 + 64 * teams)
    (o :: r.1, r.2)

def ensembleOffsets (bs : List Byte) : Nat → Nat → List Nat × Nat
  | 0, o => ([], o)
  | n + 1, o =>
    let r := ensembleOffsets bs n (o + (32 + 16 * fieldOf bs (o + 8) 4 + 63) / 64 * 64)
    (o :: r.1, r.2)

/-- The tests of a task entry. -/
def taskEntryFaults (p : Nat) (bs : List Byte) (o : Nat) : List (Nat × Bool) :=
  let raw := (bs.drop o).take 128
  let f (i n : Nat) : Nat := fieldOf bs (o + i) n
  let troupe := rQueue raw == 0xFF
  let bad := ((headerRules raw).map (fun r => if r.1 == 2 then (2, r.2 && !troupe) else if r.1 == 1 then (1, rPart raw != p) else r) ++ launchRules raw)
  bad.map (fun r => (o + r.1, r.2 || (r.1 == 0 && rKind raw != 1)))
    ++ [(o + 0x80, f 0x80 8 / 2 ^ 48 != p * 256 + rQueue raw), (o + 0x88, f 0x88 1 < 1 || 3 < f 0x88 1), (o + 0x89, f 0x89 1 != 0),
        (o + 0x8A, f 0x28 2 < f 0x8A 2), (o + 0x8C, f 0x8A 2 < f 0x8C 2), (o + 0x8E, nonzeroIn bs (o + 0x8E) (o + 0xC0))]

/-- The tests of an ensemble entry. -/
def ensembleEntryFaults (p : Nat) (bs : List Byte) (o : Nat) : List (Nat × Bool) :=
  let f (i n : Nat) : Nat := fieldOf bs (o + i) n
  let n := f 8 4
  [(o, bitsOf (f 0 8) 48 16 != 0 || bitsOf (f 0 8) 12 4 != p || bitsOf (f 0 8) 16 32 == 0), (o + 8, n < 1 || Config.maxMembers < n),
    (o + 12, f 12 4 != ((List.range n).filter fun i => f (43 + 16 * i) 1 == 1).length), (o + 24, nonzeroIn bs (o + 24) (o + 32))]
    ++ (List.range n).flatMap (fun i => [(o + 43 + 16 * i, decide (1 < f (43 + 16 * i) 1)), (o + 44 + 16 * i, f (44 + 16 * i) 4 != 0)])
    ++ [(o + 32 + 16 * n, nonzeroIn bs (o + 32 + 16 * n) (o + (32 + 16 * n + 63) / 64 * 64))]

/-- The offset at which the bytes given are no image of the partition. -/
def partImageFault (p : Nat) (bs : List Byte) : Option Nat :=
  let f (o n : Nat) : Nat := fieldOf bs o n
  let w := f 0x20 8
  let ts := taskOffsets bs (f 0x18 4) 128
  let es := ensembleOffsets bs (f 0x1C 4) ts.2
  let rules := [(0, f 0 4 != 0x4D414554), (4, f 4 2 != 1), (6, f 6 1 != 1), (7, f 7 1 != 0), (8, f 8 4 != es.2 || bs.length != es.2), (0x10, f 0x10 1 != p),
      (0x11, nonzeroIn bs 0x11 0x14), (0x20, bitsOf w 59 5 != 0), (0x50, nonzeroIn bs 0x50 0x80)]
    ++ ts.1.flatMap (taskEntryFaults p bs) ++ es.1.flatMap (ensembleEntryFaults p bs) ++ [(12, !checkOk bs)]
  (rules.find? (·.2)).map (·.1)

end Sys2Proof.Machine
end

