-- ==== Sys2Proof/Machine/Freeze.lean ====
section
/-!
DEFINITION. Freezing, exporting and importing a partition: PART_FREEZE, PART_RESUME, IMAGE_OUT and IMAGE_IN (R306, R389-R397).
-/

namespace Sys2Proof.Machine

/-! ### Freezing (R396) -/

/-- Every team of the partition that is resident or staged stops; a decision under way ends without an output. -/
def freezeTeams (s : State) (p : Nat) : State :=
  let s := modPart s p fun q => { q with frozen := true, run := CueRun.idle }
  (s.teams.filter fun u => u.part == p).foldl (fun s u => match u.status with
    | .resident => requestStop s u.id .freeze
    | .staged => freezeStaged s u
    | _ => s) s

/-- Every team image is in the context area, and no engine record of the partition is in progress. -/
def freezeDone (s : State) (p : Nat) : Bool :=
  (s.teams.all fun u => u.part != p || !(u.status == .resident || u.status == .stopping || u.status == .staged))
    && s.eng.all fun r => r.part != p || !(r.status == .running || r.status == .done || (r.status == .queued && r.begun))

/-- PART_FREEZE: stops the partition's scheduling and cuts every team image (R396). -/
def execPartFreeze (rec : Nat) (s : State) : Result :=
  match startedRec s rec 0x0E with
  | some r => .next (if recordsRun s && freezeDone s r.part && !actionsHeld s r.raw then finishRec s rec Status.done else s)
  | none => startRec s rec 0x0E none fun r s =>
    if (s.part r.part).frozen then finishRec s rec Status.done
    else
      let s := freezeTeams s r.part
      if freezeDone s r.part then finishRec s rec Status.done else s

/-- PART_RESUME: lifts the freeze, and R317 serves the partition. -/
def execPartResume (rec : Nat) (s : State) : Result :=
  startRec s rec 0x0F none fun r s =>
    if (s.part r.part).frozen then finishRec (roomChanged (modPart s r.part fun q => { q with frozen := false }) r.part) rec Status.done
    else finishRec s rec (Status.refused 9)

/-! ### IMAGE_OUT (R396) -/

/-- An image written to memory: how the record completes. -/
def writeImage (s : State) (p va len : Nat) (bs : List Byte) : Status × State :=
  if len < bs.length then (Status.refused 7, s)
  else
    let (n, s) := writeRange s p va bs
    (if n == bs.length then { code := 1, detail := 0, bytes := n, faddr := 0 } else { code := 2, detail := 0, bytes := n, faddr := va + n }, s)

/-- The image that INDEX names. -/
def imageAt (s : State) (p ix : Nat) : Option (List Byte) :=
  if ix == 0 then some (partImage s p) else (imagesOf s p)[ix - 1]?.bind (teamImageNow s)

/-- IMAGE_OUT: INDEX 0 is the partition image, 1 upward the team images. -/
def execImageOut (rec : Nat) (s : State) : Result :=
  unlessWriteHeld s rec (fieldOfRec s rec 0x28 8) (fieldOfRec s rec 0x30 8) fun _ =>
    startRec s rec 0x10 none fun r s =>
      if !(s.part r.part).frozen then finishRec s rec (Status.refused 9)
      else match imageAt s r.part (fieldOf r.raw 0x20 4) with
        | none => finishRec s rec (Status.refused 10)
        | some bs =>
          let (st, s) := writeImage s r.part (fieldOf r.raw 0x28 8) (fieldOf r.raw 0x30 8) bs
          finishRec s rec st

/-! ### IMAGE_IN (R306, R393, R396) -/

/-- The bytes of an image at an address: as many as its header says and LEN holds. -/
def readImage (s : State) (p va len : Nat) : Except Nat (List Byte × State) :=
  match readRange s p va (min len 128) with
  | .error a => .error a
  | .ok (h, s) => readRange s p va (min len (max 128 (fieldOf h 8 4)))

/-- The task that an entry of a partition image describes. Error: how the record completes. -/
def importTask (s : State) (p conn : Nat) (bs : List Byte) (o : Nat) : Except (Status × State) State :=
  let raw := (bs.drop o).take 128
  let f (i n : Nat) : Nat := fieldOf bs (o + i) n
  match imageFor s p (fieldOf raw 0x20 8) with
  | .error st => .error st
  | .ok (k, s) =>
    let teams := fieldOf raw 0x28 2
    let next := f 0x8A 2
    let mbs := List.replicate next (Vector.replicate 8 0) ++ launchMbs (raw.take 0x30 ++ leBytes 8 1 ++ raw.drop 0x38) ((bs.drop (o + 320)).take (64 * (teams - next))) (teams - next)
    let seq := f 0x80 8 % 2 ^ 48
    let t := newTask s raw k mbs (launchDeps ((bs.drop (o + 0xC0)).take 128) (fieldOf raw 0x2C 1)) 0 conn seq (rQueue raw == 0xFF)
    let t := { t with state := if f 0x88 1 == 3 then .running else .queued, next := next, endedTeams := List.range (f 0x8C 2) }
    let s := modPart { s with tasks := s.tasks ++ [t], nextId := s.nextId + 1 } p fun q =>
      if t.troupe then { q with troupes := max q.troupes (seq + 1) }
      else { q with queues := modNth q.queues t.queue fun c => { c with launches := max c.launches (seq + 1) } }
    .ok s

def importTasks (p conn : Nat) (bs : List Byte) : List Nat → State → Except (Status × State) State
  | [], s => .ok s
  | o :: rest, s => match importTask s p conn bs o with
    | .error st => .error st
    | .ok s => importTasks p conn bs rest s

/-- The ensemble of an entry; its members belong to installed tasks. -/
def importEnsemble (s : State) (p : Nat) (bs : List Byte) (o : Nat) : State :=
  let h := fieldOf bs o 8
  let slot := bitsOf h 0 12
  let member (i : Nat) : Option ((Nat × Nat × Nat) × Bool) :=
    let m := o + 32 + 16 * i
    (s.tasks.find? fun k => k.part == p && taskId k == fieldOf bs m 8).map fun k =>
      ((k.id, fieldOf bs (m + 8) 2, fieldOf bs (m + 10) 1), fieldOf bs (m + 11) 1 == 1)
  let e : Ensemble := { slot := slot, gen := bitsOf h 16 32, part := p, members := (List.range (fieldOf bs (o + 8) 4)).filterMap member, done := fieldOf bs (o + 16) 8 }
  { s with ensembles := s.ensembles ++ [e], ensGens := (slot, e.gen) :: s.ensGens, ensUses := (slot, slotUses s slot + 1) :: s.ensUses.filter fun u => u.1 != slot }

/-- The parameters of a partition image. -/
def importParams (q : Partition) (bs : List Byte) : Partition :=
  let w := fieldOf bs 0x20 8
  { q with
    params := BitVec.ofNat 64 w, rebal := bitsOf w 0 16, starve := bitsOf w 16 10, nimg := bitsOf w 26 16, dirtyOn := w.testBit 42
    queues := Vector.ofFn fun i : Fin 64 =>
      { nth q.queues i.val noQueue with
        prio := BitVec.ofNat 4 (fieldOf bs (0x30 + i.val / 2) 1 / (if i.val % 2 == 0 then 1 else 16)), limit := bitsOf w 43 16 + 1
        enabled := (fieldOf bs 0x28 8).testBit i.val } }

/-- A partition image is installed: parameters, tasks, ensembles; every queue takes its head (R36, R37). One that cannot be leaves nothing but
what the walks logged (R281). -/
def importPart (s : State) (p conn : Nat) (bs : List Byte) : Except (Status × State) State :=
  let ts := taskOffsets bs (fieldOf bs 0x18 4) 128
  let es := ensembleOffsets bs (fieldOf bs 0x1C 4) ts.2
  match importTasks p conn bs ts.1 (modPart s p fun q => importParams q bs) with
  | .error (st, x) => .error (st, { s with mod := { s.mod with errorLog := x.mod.errorLog } })
  | .ok s =>
    let s := es.1.foldl (fun s o => importEnsemble s p bs o) s
    .ok ((List.range 64).foldl (fun s q => advanceQueue s p q) s)

/-- The partition holds a task or an ensemble, or a slot that the image names is in use (R396). -/
def alreadyThere (s : State) (p : Nat) (bs : List Byte) : Bool :=
  let ts := taskOffsets bs (fieldOf bs 0x18 4) 128
  let es := ensembleOffsets bs (fieldOf bs 0x1C 4) ts.2
  s.tasks.any (fun k => k.part == p) || s.ensembles.any (fun e => e.part == p)
    || es.1.any fun o => s.ensembles.any fun e => e.slot == bitsOf (fieldOf bs o 8) 0 12

/-- A task counts the teams that have ended; of those dispatched, the ones without an image have (R395). -/
def recountEnded (s : State) (k : Task) (ix : Nat) : State :=
  let held (i : Nat) : Bool := s.teams.any fun u => u.task == k.id && u.ix == i
  modTask s k.id fun k =>
    let k := if (undispatched k).contains ix then { k with restart := (undispatched k).filter (· != ix), next := k.nteams } else k
    { k with endedTeams := (((List.range k.next).filter fun i => !held i && !k.restart.contains i).take k.endedTeams.length) }

/-- A team image is put on the resume list with no home (R396). DESIGN CHOICE (log 43): a thread of a pair sees the mailboxes of the
image, also a value whose agreement point the replica it was cut from had not passed (R93). -/
def importTeam (s : State) (k : Task) (bs : List Byte) : State :=
  let flags := fieldOf bs 7 1
  let ix := fieldOf bs 0x18 2
  let (n, s) := fresh s
  let u : Team :=
    { id := s.nextId, part := k.part, task := k.id, ix := ix, rep := bitAt (flags.testBit 2) 0, chip := 15, home := 15, status := .suspended, stopFor := .none
      mb := Vector.replicate 8 0, mbLaunch := Vector.replicate 8 0, mig := false, since := s.mod.time, shadow := [], heldPages := [], log := [], mbLog := []
      trapRec := none, votePos := endPos, suspect := none, starts := 0, agreedEnd := false, dbgHalt := false, awaits := none, moving := none, classN := false }
  let u := installTeam bs u
  let u := { u with mbLaunch := u.mb }
  let s := { s with teams := s.teams ++ [u], nextId := s.nextId + 1 }
  let s := ((sectionsOf k.img bs k.img.threads 0x100).zipIdx).foldl (fun s x =>
    let t := { newThread s k u x.2 0 with resident := false }
    let t := haltedAt u (homeWait s { installThread (64 * n + x.2) x.1.2 (ordinalOf (fieldOf bs 0x24 4) [] x.2) t with mbView := u.mb })
    { s with others := s.others ++ [t], nextId := s.nextId + 1 }) s
  recountEnded (installRecords s k u bs .imaged) k ix

/-- How an IMAGE_IN of a team image completes. -/
def imageInTeam (s : State) (p : Nat) (bs : List Byte) : Status × State :=
  match s.tasks.find? fun k => k.part == p && taskId k == fieldOf bs 0x10 8 with
  | none => (Status.refused 10, s)
  | some k =>
    if k.state != .running || k.nteams ≤ fieldOf bs 0x18 2 then (Status.refused 10, s)
    else if s.teams.any (fun u => u.task == k.id && u.ix == fieldOf bs 0x18 2 && u.rep == bitAt ((fieldOf bs 7 1).testBit 2) 0) then (Status.refused 11, s)
    else match teamImageFault k bs (!hasN s p) with
      | some o => (Status.rejected (2 ^ 31 + o), s)
      | none => if imageRoom s p 1 then (Status.done, importTeam s k bs) else (Status.refused 7, s)

/-- How an IMAGE_IN of a partition image completes. -/
def imageInPart (s : State) (p conn : Nat) (bs : List Byte) : Status × State :=
  match partImageFault p bs with
  | some o => (Status.rejected (2 ^ 31 + o), s)
  | none => if alreadyThere s p bs then (Status.refused 11, s)
    else match importPart s p conn bs with
      | .error x => x
      | .ok s => (Status.done, s)

/-- What makes bytes no image of either kind: MAGIC, VERSION or KIND (R393). -/
def imageKindFault (bs : List Byte) : Option Nat :=
  (([(0, fieldOf bs 0 4 != 0x4D414554), (4, fieldOf bs 4 2 != 1), (6, 1 < fieldOf bs 6 1)] : List (Nat × Bool)).find? (·.2)).map (·.1)

/-- IMAGE_IN: installs a partition image or a team image into a frozen partition. -/
def execImageIn (rec : Nat) (s : State) : Result :=
  startRec s rec 0x11 none fun r s =>
    let p := r.part
    if !(s.part p).frozen then finishRec s rec (Status.refused 9)
    else match readImage s p (fieldOf r.raw 0x20 8) (fieldOf r.raw 0x28 8) with
      | .error a => finishRec (logMalformed s p a) rec (Status.fault a)
      | .ok (bs, s) =>
        match imageKindFault bs with
        | some o => finishRec s rec (Status.rejected (2 ^ 31 + o))
        | none =>
          let (st, s) := if fieldOf bs 6 1 == 1 then imageInPart s p r.conn bs else imageInTeam s p bs
          finishRec s rec st

end Sys2Proof.Machine
end

