-- ==== Sys2Proof/Machine/Debugger.lean ====
section
/-!
DEFINITION. The debugger: HANDLER, ATTACH, DETACH, HALT, RESUME, STEP, READ, WRITE and TRAPIMG, and STEP_TIMEOUT (R218, R382,
R398-R400).
-/

namespace Sys2Proof.Machine

/-- The team that TASKID and TEAMIX of a DEBUG record name, by its replica 0 (R398). -/
def debugTeam (s : State) (r : HRec) : Option Team :=
  (s.tasks.find? fun k => k.part == r.part && taskId k == fieldOf r.raw 0x22 8).bind fun k =>
    s.teams.find? fun u => u.task == k.id && u.ix == fieldOf r.raw 0x2A 2 && u.rep == 0 && u.status != .ended

/-- A DEBUG operation that finds no such team, or no halted one. -/
def noTeam (s : State) (r : HRec) : State := debugDone s r (Status.refused 10) []

/-- The virtual address is mapped, or lies in the heap grant. -/
def placed (s : State) (p va : Nat) : Bool :=
  (walkVA s p va).isSome || match translatePart s p .load va 1 with | .ok _ _ => true | _ => false

/-- The pages of a handler image. -/
def handlerPages (r : HRec) : List Nat := pagesOf (fieldOf r.raw 0x22 8) (fieldOf r.raw 0x2A 4)

/-- HANDLER completes when the accesses translated before its shootdown have been performed (R283). -/
def endHandler (s : State) (r : HRec) : State :=
  if accessPending s ((handlerPages r).filterMap (frameOf s r.part)) || actionsHeld s r.raw then s else debugDone s r Status.done []

/-- HANDLER: the image is mapped with EX = 1 as a code section of every task, by a shootdown; threads dispatched afterwards take TVEC. -/
def execHandler (rec : Nat) (s : State) : Result :=
  match startedRec s rec 0x13 with
  | some r => .next (if debugOp r.raw == 0x100 && recordsRun s then endHandler s r else s)
  | none => startRec s rec 0x13 (some 0x100) fun r s =>
    let a := fieldOf r.raw 0x22 8
    let n := fieldOf r.raw 0x2A 4
    match (handlerPages r).find? fun v => !placed s r.part v with
    | some v => debugDone (logMalformed s r.part v) r (Status.fault (max a v)) []
    | none =>
      let s := shootDown ((handlerPages r).foldl (fun s v => setLeaf s r.part v fun e => withBit e 4 true) s) r.part a n
      endHandler (modPart s r.part fun q => { q with handler := some (a, n) }) r

/-- ATTACH. -/
def execAttach (rec : Nat) (s : State) : Result :=
  startRec s rec 0x13 (some 0x101) fun r s =>
    debugDone (modPart s r.part fun q => { q with debugger := true, stopSh := (fieldOf r.raw 0x22 1).testBit 0 }) r Status.done []

/-- The brk at which a thread halted completes (R399); so does the same brk of the other replica, when it stands there. -/
def passBrk (s : State) (t : Thread) : State :=
  match t.brkAt with
  | none => s
  | some st =>
    let s := modTid s t.tid fun t => { t.advance st 1 with brkAt := none }
    (twins s t).foldl (fun s w => if w.brkAt.isNone && (w.st st).pc == (t.st st).pc then modTid s w.tid fun w => w.advance st 1 else s) s

/-- A halted team goes on, both replicas of a pair. -/
def releaseTeam (s : State) (u : Team) : State :=
  let s := (replicasOf s u).foldl (fun s w => modTeam s w.id fun w => { w with dbgHalt := false }) s
  ((replicasOf s u).flatMap (threadsOf s)).foldl passBrk s

/-- DETACH: every halted team resumes; breakpoints then enter the handler. -/
def execDetach (rec : Nat) (s : State) : Result :=
  startRec s rec 0x13 (some 0x102) fun r s =>
    let s := modPart s r.part fun q => { q with debugger := false, stopSh := false }
    debugDone ((s.teams.filter fun u => u.part == r.part && u.rep == 0 && u.dbgHalt).foldl releaseTeam s) r Status.done []

/-- HALT. -/
def execDebugHalt (rec : Nat) (s : State) : Result :=
  startRec s rec 0x13 (some 0x103) fun r s => match debugTeam s r with
    | none => noTeam s r
    | some u => debugDone ((replicasOf s u).foldl (fun s w => modTeam s w.id fun w => { w with dbgHalt := true }) s) r Status.done []

/-- RESUME: completes the brk and continues after it. -/
def execDebugResume (rec : Nat) (s : State) : Result :=
  startRec s rec 0x13 (some 0x104) fun r s => match debugTeam s r with
    | none => noTeam s r
    | some u => if u.dbgHalt then debugDone (releaseTeam s u) r Status.done [] else noTeam s r

/-! ### STEP -/

/-- The stream that STRM names. -/
def stepStream (r : HRec) : Stream := if fieldOf r.raw 0x2D 1 == 1 then .access else .execute

/-- The threads that a STEP steps: the one named, in both replicas of a pair. -/
def stepThreads (s : State) (r : HRec) : List Thread :=
  match debugTeam s r with
  | none => []
  | some u => ((replicasOf s u).flatMap (threadsOf s)).filter fun t => t.thrIx == fieldOf r.raw 0x2C 1 && t.rep < 2

/-- The instruction has issued, and any command that it queued has run out. -/
def stepDone (t : Thread) : Bool :=
  t.stepping.isNone && match t.stepFrom with
    | some n => (t.vq ++ t.mq).all fun c => n < c.cmdix || t.cmdix ≤ n
    | none => true

/-- No STEP of the thread is under way. -/
def stopStep (s : State) (ts : List Thread) : State :=
  ts.foldl (fun s t => modTid s t.tid fun t => { t with stepping := none, stepFrom := none }) s

/-- STEP: one instruction of the named stream issues; the record completes when it has. -/
def execDebugStep (rec : Nat) (s : State) : Result :=
  match startedRec s rec 0x13 with
  | some r =>
    .next (if debugOp r.raw != 0x105 || !recordsRun s || actionsHeld s r.raw then s
      else if (stepThreads s r).isEmpty then noTeam s r
      else if (stepThreads s r).all stepDone then debugDone (stopStep s (stepThreads s r)) r Status.done [] else s)
  | none => startRec s rec 0x13 (some 0x105) fun r s => match debugTeam s r with
    | none => noTeam s r
    | some u =>
      if !u.dbgHalt || (stepThreads s r).isEmpty then noTeam s r
      else (stepThreads s r).foldl (fun s t => modTid s t.tid fun t => { t with stepping := some (stepStream r), stepFrom := some t.cmdix }) s

/-- STEP_TIMEOUT: the instruction has not issued within 1 ms; it stays unissued. -/
def execStepTimeout (rec : Nat) (s : State) : Result :=
  .next (match startedRec s rec 0x13 with
    | none => s
    | some r =>
      if debugOp r.raw == 0x105 && recordsRun s && !actionsHeld s r.raw && 1000 ≤ micros s r.started && (stepThreads s r).any (·.stepping.isSome) then
        debugDone (stopStep s (stepThreads s r)) r (Status.refused 12) []
      else s)

/-! ### READ, WRITE and TRAPIMG -/

/-- What a halted thread had in flight has been performed (R399), and no barrier that has completed still holds it (R400). -/
def haltQuiet (s : State) (t : Thread) : Bool :=
  !released s t .execute && t.qs.loads.isEmpty && t.qs.xfers.all (·.faulted) && !t.storeNow && t.wait != .drain && !midway t .execute && !midway t .access && t.stepFrom.isNone

/-- READ and WRITE wait until a halted team is quiet; k goes on. -/
def whenQuiet (s : State) (rec : Nat) (k : Unit → Result) : Result :=
  match (s.recs.find? fun r => r.id == rec).bind (debugTeam s) with
  | some u => if u.dbgHalt && !(threadsOf s u).all (haltQuiet s) then .next s else k ()
  | none => k ()

/-- READ: the image of the halted team, as it stands (R400). -/
def execDebugRead (rec : Nat) (s : State) : Result :=
  whenQuiet s rec fun _ => unlessWriteHeld s rec (fieldOfRec s rec 0x2C 8) (fieldOfRec s rec 0x34 8) fun _ =>
    startRec s rec 0x13 (some 0x106) fun r s => match debugTeam s r with
      | none => noTeam s r
      | some u => match if u.dbgHalt then teamImageNow s u else none with
        | none => noTeam s r
        | some bs =>
          let (st, s) := writeImage s r.part (fieldOf r.raw 0x2C 8) (fieldOf r.raw 0x34 8) bs
          debugDone s r st []

/-- A team's fields in a halted team, of whose chiplet the image takes the class (R381, R394, R400). -/
def writtenTeam (bs : List Byte) (u : Team) : Team :=
  let v := { installTeam bs u with dbgHalt := true, badImage := false }
  let n := Config.nClass u.chip
  if u.status != .resident || v.classN == n then v else { v with classN := n, mig := true, trapRec := v.trapRec.map TrapRec.translated }

/-- An image is installed into a halted team, thread by thread (R400); its records take the place of those in the image before. -/
def writeTeam (s : State) (k : Task) (u : Team) (bs : List Byte) : State :=
  let (n, s) := fresh s
  let v := writtenTeam bs u
  let old := (threadsOf s u).map fun t => (t.thrIx, t.ordinal)
  let s := modTeam s u.id fun u => writtenTeam bs u
  let s := ((sectionsOf k.img bs k.img.threads 0x100).zipIdx).foldl (fun s x => mapThreads s fun t =>
    if t.team == u.id && t.live && t.thrIx == x.2 then
      let t := { installThread (64 * n + x.2) x.1.2 (ordinalOf (fieldOf bs 0x24 4) old x.2) t with mbView := v.mb }
      haltedAt v (homeWait s { t with table := if !(installTeam bs u).classN && u.status == .resident && Config.nClass u.chip then Table.empty else t.table })
    else t) s
  let gone := (imagedRecords s u).map (·.id)
  installRecords { s with eng := s.eng.filter fun r => !gone.contains r.id } k u bs (if u.status == .suspended then .imaged else .queued)

/-- WRITE: R393 against the halted team's own class and sizes. -/
def execDebugWrite (rec : Nat) (s : State) : Result :=
  whenQuiet s rec fun _ => startRec s rec 0x13 (some 0x107) fun r s => match debugTeam s r with
    | none => noTeam s r
    | some u => match if u.dbgHalt then findTask s u.task else none with
      | none => noTeam s r
      | some k => match readImage s r.part (fieldOf r.raw 0x2C 8) (fieldOf r.raw 0x34 8) with
        | .error a => debugDone (logMalformed s r.part a) r (Status.fault a) []
        | .ok (bs, s) =>
          let named := if (fieldOf bs 7 1).testBit 2 then (replicasOf s u).find? fun w => w.rep == 1 else some u
          match teamImageFault k bs (12 ≤ u.chip || !Config.nClass u.chip), named with
          | some o, _ => debugDone s r (Status.rejected (2 ^ 31 + o)) []
          | none, some w => debugDone (writeTeam s k w bs) r Status.done []
          | none, none => noTeam s r

/-- TRAPIMG: the partition's trap image (R382). -/
def execTrapimg (rec : Nat) (s : State) : Result :=
  unlessWriteHeld s rec (fieldOfRec s rec 0x22 8) (fieldOfRec s rec 0x2A 8) fun _ =>
    startRec s rec 0x13 (some 0x108) fun r s => match (s.part r.part).trapImage with
      | none => noTeam s r
      | some (u, k, ts) =>
        let (st, s) := writeImage s r.part (fieldOf r.raw 0x22 8) (fieldOf r.raw 0x2A 8) (teamImage s k u ts [])
        debugDone s r st []

end Sys2Proof.Machine
end

