-- ==== Sys2Proof/Machine/Ckpt.lean ====
section
/-!
DEFINITION. Checkpoint domains and recovery points as firmware handles them (R401-R413): the operations of CKPT_OPEN, CKPT_COMMIT,
COMMIT_END, STALL_END, and the partner's REPLICA_SEGMENTS, PARTNER_ACK and PARTNER_FETCH.
-/

namespace Sys2Proof.Machine

/-- Start a CKPT_OPEN record with this OP (R408). -/
def startCkpt (s : State) (rec op : Nat) (k : HRec → State → State) : Result :=
  if fieldOfRec s rec 0x20 1 == op then startRec s rec 0x0C none k else .next s

/-- BYTES of a record that is done. -/
def doneWith (n : Nat) : Status := { code := 1, detail := 0, bytes := n, faddr := 0 }

/-- A task of the partition is RUNNING (R307, R401, R410). -/
def anyRunning (s : State) (p : Nat) : Bool :=
  s.tasks.any fun k => k.part == p && (k.state == .running || s.teams.any fun u => u.task == k.id)

/-! ### OPEN, DOMAIN, PARTNER, JREAD (R401, R403, R408, R412) -/

/-- OPEN: as rpopen. -/
def execCkptOpen (rec : Nat) (s : State) : Result :=
  startCkpt s rec 0 fun r s =>
    let (v, s) := openPoint s r.part
    finishRec s rec (doneWith v.toNat)

/-- The granule that a 2 MiB leaf maps at a virtual address: an HBM4 frame outside every heap grant (R401). -/
def granuleAt (s : State) (p va : Nat) : Option Nat :=
  match walkVA s p va with
  | some (e, _, size) =>
    let b := leafPA e size va
    if size == 0x200000 && Config.hbmBase ≤ b && b + 0x200000 ≤ Config.hbmEnd && s.parts.toList.all (fun q => !q.present || !overlapsRange b 0x200000 q.heapPA q.heapLen)
    then some b else none
  | none => none

/-- The granules of a region, when each is mapped as R401 requires. -/
def granulesOf (s : State) (p va : Nat) : Nat → Option (List Nat)
  | 0 => some []
  | n + 1 => match granuleAt s p va, granulesOf s p (va + 0x200000) n with
    | some b, some r => some (b :: r)
    | _, _ => none

def Slot.blank : Slot := { valid := false, version := 0, slot := 0, part := 0, seq := 0, nseg := 0, time := 0, pbix := 0, tcrc := 0, table := [], segs := [] }

/-- The domain that a DOMAIN record designates; none: refused with reason 17. -/
def newDomain (s : State) (p va nwork npb pbva : Nat) : Option Domain :=
  match granulesOf s p va nwork, granulesOf s p pbva npb with
  | some g, some b =>
    let durable (a : Nat) : Bool := s.parts.toList.any fun q => match q.domain with
      | some d => (d.granules ++ d.pbGranules).contains a
      | none => false
    if overlapsRange va (nwork * 0x200000) pbva (npb * 0x200000) || (g ++ b).any durable || freeQuota s p < domainFrames nwork then none
    else some
      { workVA := va, nwork := nwork, npb := npb, pbva := pbva, granules := g, pbGranules := b, slot0 := Slot.blank, slot1 := Slot.blank
        cur := List.range nwork, prev := List.range nwork, journal := [], jseq := 0, commit := none, held := [], loose := [], partner := none }
  | _, _ => none

/-- DOMAIN (R401, R408). -/
def execDomain (rec : Nat) (s : State) : Result :=
  startCkpt s rec 1 fun r s =>
    let q := s.part r.part
    if q.domain.isSome || anyRunning s r.part || q.rp.state != 0 then finishRec s rec (Status.refused 13)
    else
      let w := fieldOf r.raw 0x30 8
      match newDomain s r.part (fieldOf r.raw 0x28 8) (bitsOf w 0 32) (bitsOf w 32 16) (fieldOf r.raw 0x38 8) with
      | none => finishRec s rec (Status.refused 17)
      | some d => finishRec (modPart s r.part fun q => { q with domain := some d, usedFrames := q.usedFrames + domainFrames d.nwork }) rec Status.done

/-- PARTNER: names the partner and opens a REPLICA connection to it, or stops replication; the partner may refuse (R412, log 44). -/
def execPartner (rec : Nat) (s : State) : Result :=
  startCkpt s rec 3 fun r s =>
    match (s.part r.part).domain with
    | none => finishRec s rec (Status.refused 13)
    | some d =>
      let node := BitVec.ofNat 64 (fieldOf r.raw 0x28 8)
      let port := fieldOf r.raw 0x30 1
      let name (x : Option (Word × Nat)) (s : State) : State :=
        modPart s r.part fun q => { q with domain := some { d with partner := x }, rp := { q.rp with feed := false } }
      if port == 0 then finishRec (name none s) rec Status.done
      else
        let (n, s) := fresh s
        if Config.partnerRefuses n then finishRec s rec (Status.refused 15)
        else finishRec (openTo (name (some (node, port)) s) port node 3) rec Status.done

/-- JREAD: the latest entries, oldest first. -/
def execJread (rec : Nat) (s : State) : Result :=
  unlessWriteHeld s rec (fieldOfRec s rec 0x28 8) (64 * fieldOfRec s rec 0x30 8) fun _ =>
    startCkpt s rec 4 fun r s =>
      match (s.part r.part).domain with
      | none => finishRec s rec (Status.refused 13)
      | some d =>
        let n := fieldOf r.raw 0x30 8
        let bs := (d.journal.drop (d.journal.length - n)).flatMap (JEntry.bytes r.part)
        let (m, s) := writeRange s r.part (fieldOf r.raw 0x28 8) bs
        finishRec s rec (if m == bs.length then Status.done else { code := 2, detail := 0, bytes := m, faddr := fieldOf r.raw 0x28 8 + m })

/-! ### Commit (R404-R408) -/

/-- Bytes of a segment. -/
def segmentBytes (c : Cells) : List Byte := getCells c 0 0x200000

/-- The segment table as bytes (R404). -/
def tableBytes (t : List (Word32 × Word)) : List Byte :=
  t.zipIdx.flatMap fun x => leBytes 4 x.2 ++ leBytes 4 x.1.1.toNat ++ leBytes 8 x.1.2.toNat

/-- The commit record (R404). -/
def commitRecord (x : Slot) : List Byte :=
  leBytes 4 (if x.valid then 0x5043524B else 0) ++ leBytes 2 x.version ++ leBytes 1 x.slot ++ leBytes 1 x.part ++ leBytes 8 x.seq.toNat ++ leBytes 4 x.nseg ++ leBytes 4 0
    ++ leBytes 8 x.time ++ leBytes 8 x.pbix.toNat ++ List.replicate 16 0 ++ leBytes 8 x.tcrc.toNat

/-- COUNT of the Promptbook section at the place of a sequence (R411). -/
def sectionCount (s : State) (d : Domain) (seq : Word) : Nat := getLe s.mem (promptPA d (sectionOff d seq.toNat) + 8) 8

/-- COUNT of the Promptbook section of a sequence, when the section is that one's. -/
def promptCount (s : State) (d : Domain) (seq : Word) : Option Nat :=
  if getLe s.mem (promptPA d (sectionOff d seq.toNat)) 8 == seq.toNat then some (sectionCount s d seq) else none

/-- Started CKPT_COMMIT records of a partition complete, but one whose actions a stall still holds back (R406, R408). -/
def endCommits (s : State) (p : Nat) (st : Status) : State :=
  (s.recs.filter fun r => r.part == p && r.kind == 0x0D && r.status == .started && !actionsHeld s r.raw).foldl (fun s r => finishRec s r.id st) s

/-- After CEND the partner is sent the changed segments, the table and the commit record, on the REPLICA connection (R412). -/
def replicate (s : State) (p : Nat) (d : Domain) (c : Commit) : State :=
  match d.partner with
  | none => s
  | some (node, port) =>
    let x := d.slot c.slot
    sendPeer s port node 3 (.replica
      { node := s.mod.cfg.node, part := p, seq := c.seq, feed := s.mod.cfg.feed, nseg := d.nwork
        segments := c.granules.map fun g => (g, segmentBytes (x.segs.getD g [])), commit := commitRecord x, table := tableBytes x.table })

/-- The commit record becomes durable: CEND, then RPDUR and STATE (R405), COMMITIX := COUNT (R411), and the partner (R412). -/
def finishCommit (s : State) (p : Nat) (d : Domain) (c : Commit) : State :=
  let x := d.slot c.slot
  let n := sectionCount s d c.seq
  let table := (List.range d.nwork).map fun g =>
    if c.granules.contains g then (crc32c (segmentBytes (x.segs.getD g [])), c.seq) else x.table.getD g (0, 0)
  let x := { x with valid := true, version := 1, slot := c.slot, part := p, seq := c.seq, nseg := d.nwork, time := s.mod.time, pbix := BitVec.ofNat 64 n
                    table := table, tcrc := crc64 0 (tableBytes table) }
  let d := { d.setSlot c.slot x with commit := none }
  let s := journal (modPart s p fun q => { q with domain := some d }) p 4 c.seq
  let s := modPart s p fun q => { q with rp := { q.rp with rpdur := c.seq, state := 0 } }
  replicate (writeCommitix s p d c.seq.toNat n) p d c

/-- A commit fails: CUR takes back what was to be copied, and the point stays open (R407). -/
def failCommit (s : State) (p : Nat) (d : Domain) (c : Commit) : State :=
  let s := journal (modPart s p fun q => { q with domain := some { d with commit := none, cur := c.granules.foldl insertNat d.cur } }) p 5 c.seq
  modPart s p fun q => { q with rp := { q.rp with state := 1, cfail := true } }

/-- COMMIT_END: the commit of a partition ends, when every frame is copied; a poisoned unit makes it fail (R405, R407). Without a domain RPDUR := RPSEQ (R232). -/
def execCommitEnd (part : Nat) (ok : Bool) (s : State) : Result :=
  let q := s.part part
  .next (if !q.present || q.rp.state != 2 || !recordsRun s then s
    else match q.domain with
      | none =>
        endCommits (modPart s part fun q => { q with rp :=
          if ok then { q.rp with rpdur := q.rp.rpseq, state := 0 } else { q.rp with state := 1, cfail := true } }) part (if ok then Status.done else Status.fault 0)
      | some d => match d.commit with
        | none => s
        | some c =>
          if ok && !c.poisoned && !c.todo.isEmpty then s
          else if ok && !c.poisoned then endCommits (finishCommit s part d c) part Status.done
          else endCommits (failCommit s part d c) part (Status.fault 0))

/-- STALL_END: stop-mode stalls end at their exact time; frames of G not yet copied lose write permission by a shootdown (R406). -/
def execStallEnd (part : Nat) (s : State) : Result :=
  .next (match (s.part part).domain with
    | none => s
    | some d =>
      let ended := (d.held.filter fun h => h.2 ≤ s.mod.time).map (·.1)
      let left := match d.commit with | some c => ended.filter c.todo.contains | none => []
      modPart (shootGranules s d left) part fun q => { q with domain := some { d with held := d.held.filter fun h => !(h.2 ≤ s.mod.time : Bool) } })

/-- CKPT_COMMIT: as rpcommit without the fence; done at CEND, FAULT at CFAIL (R408). -/
def execCkptCommit (rec : Nat) (s : State) : Result :=
  match startedRec s rec 0x0D with
  | some r =>
    let p := (s.part r.part).rp
    .next (if p.state == 2 && p.rpseq.toNat == fieldOf r.raw 0x20 8 || !recordsRun s || actionsHeld s r.raw then s
      else finishRec s rec (if fieldOf r.raw 0x20 8 ≤ p.rpdur.toNat then Status.done else Status.fault 0))
  | none => startRec s rec 0x0D none fun r s =>
    let q := (s.part r.part).rp
    let seq := BitVec.ofNat 64 (fieldOf r.raw 0x20 8)
    if q.state == 1 && seq == q.rpseq then beginCommit s r.part seq else finishRec s rec (Status.refused 13)

/-! ### Restore (R409-R411, R413) -/

/-- What makes slot t of a partition hold a valid recovery point of so many segments (R409): MAGIC, VERSION, SLOT, PART, NSEG, and the
checksums. -/
def slotSound (nwork t part : Nat) (x : Slot) : Bool :=
  x.valid && x.version == 1 && x.slot == t && x.part == part && x.nseg == nwork && x.tcrc == crc64 0 (tableBytes x.table)
    && (List.range nwork).all fun g => (x.table.getD g (0, 0)).1 == crc32c (segmentBytes (x.segs.getD g []))

/-- The slot that a restore takes and whether it fell back past a torn one (R410). None: refused. -/
def restoreSlot (d : Domain) (p : Nat) (want : Word) : Option (Nat × Bool) :=
  let pick (t : Nat) : Option (Nat × Bool) :=
    let x := d.slot t
    let y := d.slot (1 - t)
    if !x.valid || x.seq != want then none
    else if slotSound d.nwork t p x then some (t, false)
    else if slotSound d.nwork (1 - t) p y && y.seq.toNat < want.toNat then some (1 - t, true)
    else none
  match pick 0 with
  | some r => some r
  | none => pick 1

/-- The counters that agents watch within a range (R197, R308, R341). -/
def watchedIn (s : State) (a n : Nat) : List Nat :=
  let pas := s.recs.filterMap (·.watch) ++ s.tasks.filterMap (·.watch) ++ s.cores.toList.flatMap fun c => c.watches.map (·.pa)
  (pas.filter fun x => a ≤ x && x < a + n).eraseDups

/-- The bytes of a range become those of a segment. -/
def putGranule (s : State) (b : Nat) (c : Cells) : State :=
  let out (x : Nat × Byte) : Bool := x.1 < b || b + 0x200000 ≤ x.1
  let s := { s with mem := c.foldl (fun (m : Cells) (x : Nat × Byte) => setCell m (b + x.1) x.2) (s.mem.filter out), poison := s.poison.filter fun u => u < b || b + 0x200000 ≤ u }
  notify s (watchedIn s b 0x200000)

/-- An entry of a section is torn: its CRC does not hold (R411). -/
def entryTorn (s : State) (d : Domain) (seq i : Nat) : Bool :=
  let bs := (List.range 32).map fun k => getCell s.mem (promptPA d (sectionOff d seq + 64 + 32 * i + k))
  fieldOf bs 28 4 != (crc32c (bs.take 28)).toNat

/-- Entries that a section holds. -/
def sectionEntries (d : Domain) : Nat := (d.npb * 0x80000 - 64) / 32

/-- The Promptbook at a restore to a sequence (R411): PBLOST, and the state. -/
def restorePrompt (s : State) (p : Nat) (d : Domain) (seq pbix : Nat) : Bool × State :=
  let s := [1, 2, 3].foldl (fun s k => writeSection s p d (seq + k) allOnes64 0 allOnes64) s
  match promptCount s d (BitVec.ofNat 64 seq) with
  | some n =>
    let torn := ((List.range (min n (sectionEntries d) - pbix)).map (pbix + ·)).find? (entryTorn s d seq)
    (false, writeSection s p d seq seq (torn.getD n) pbix)
  | none => (true, writeSection s p d seq seq pbix pbix)

/-- The restore itself (R410). -/
def restoreFrom (s : State) (p : Nat) (d : Domain) (t : Nat) (torn : Bool) : State :=
  let x := d.slot t
  let y := d.slot (1 - t)
  let s := (List.range d.nwork).foldl (fun s g => putGranule s (d.granules.getD g 0) (x.segs.getD g [])) s
  let d := d.setSlot (1 - t) (if x.seq.toNat < y.seq.toNat then { y with valid := false } else y)
  let d := { d with cur := List.range d.nwork, prev := List.range d.nwork, loose := d.loose.filter fun w => !d.granules.any fun b => w.old.any fun c => b ≤ c.1 && c.1 < b + 0x200000 }
  let s := modPart s p fun q => { q with domain := some d }
  let (lost, s) := restorePrompt s p d x.seq.toNat x.pbix.toNat
  let s := modPart s p fun q => { q with
    rp := { q.rp with rpseq := x.seq, rpdur := x.seq, rppar := if x.seq.toNat < q.rp.rppar.toNat then x.seq else q.rp.rppar, state := 0
                      torn := q.rp.torn || torn, pblost := lost } }
  journal s p 6 x.seq

/-- RESTORE can go on: no commit runs, and no stall holds writes to the working region (R406, R410). -/
def restoreFree (s : State) (p : Nat) : Bool :=
  (s.part p).rp.state != 2 && match (s.part p).domain with | some d => d.held.isEmpty | none => true

/-- A slot as a REPLICA message brings it, over what the slot held; the firmware gives the commit record the number of the slot that it
fills (R404, R412, log 45). -/
def slotOf (m : Replica) (t : Nat) (x : Slot) : Slot :=
  let f (o n : Nat) : Nat := fieldOf m.commit o n
  { valid := f 0 4 == 0x5043524B, version := f 4 2, slot := t, part := f 7 1, seq := BitVec.ofNat 64 (f 8 8), nseg := f 0x10 4, time := f 0x18 8
    pbix := BitVec.ofNat 64 (f 0x20 8), tcrc := BitVec.ofNat 64 (f 0x38 8)
    table := (List.range (f 0x10 4)).map fun g => (BitVec.ofNat 32 (fieldOf m.table (16 * g + 4) 4), BitVec.ofNat 64 (fieldOf m.table (16 * g + 8) 8))
    segs := (List.range (f 0x10 4)).map fun g => match m.segments.find? fun y => y.1 == g with
      | some y => cellsOf y.2
      | none => x.segs.getD g [] }

/-- The fetched recovery point: refused while a task runs, or when its NSEG is not NWORK; else it goes into slot 0, slot 1 holds none, and it
is validated and restored (R410, R413). -/
def restoreFetched (s : State) (r : HRec) (d : Domain) (m : Replica) : State :=
  let p := r.part
  let x := slotOf m 0 Slot.blank
  if anyRunning s p then finishRec s r.id (Status.refused 14)
  else if x.nseg != d.nwork then finishRec s r.id (Status.refused 13)
  else
    let d := { d with slot0 := x, slot1 := { d.slot1 with valid := false } }
    if !slotSound d.nwork 0 p x then finishRec (modPart s p fun q => { q with domain := some d }) r.id (Status.refused 13)
    else
      let s := restoreFrom s p d 0 false
      let s := modPart s p fun q => { q with rp := { q.rp with rppar := if q.rp.feed then q.rp.rppar else q.rp.rpdur } }
      finishRec s r.id (doneWith x.seq.toNat)

/-- A RESTORE whose partner has answered goes on when it can. -/
def endRestore (s : State) (r : HRec) : State :=
  match (s.part r.part).domain, r.fetched with
  | some d, some m => if !recordsRun s || !restoreFree s r.part || actionsHeld s r.raw then s else restoreFetched s r d m
  | _, _ => s

/-- RESTORE from the local slots, or a fetch from the partner (R410, R413); it waits while a commit runs. -/
def execRestore (rec : Nat) (s : State) : Result :=
  match startedRec s rec 0x0C with
  | some r => .next (endRestore s r)
  | none => match s.recs.find? fun r => r.id == rec with
    | none => .next s
    | some r =>
      if !restoreFree s r.part then .next s
      else startCkpt s rec 2 fun r s =>
        let p := r.part
        if anyRunning s p then finishRec s rec (Status.refused 14)
        else match (s.part p).domain with
          | none => finishRec s rec (Status.refused 13)
          | some d =>
            let seq := BitVec.ofNat 64 (fieldOf r.raw 0x28 8)
            if fieldOf r.raw 0x30 8 == 0 then
              match restoreSlot d p (if seq == 0 then (s.part p).rp.rpdur else seq) with
              | none => finishRec s rec (Status.refused 13)
              | some (t, torn) => finishRec (restoreFrom s p d t torn) rec (doneWith (d.slot t).seq.toNat)
            else match d.partner with
              | none => finishRec s rec (Status.refused 13)
              | some (node, port) => sendPeer s port node 3 (.fetch p seq)

/-! ### The partner (R412, R413) -/

/-- The RESTORE of a partition that waits for this message from its partner (log 45). -/
def fetching (s : State) (node : Word) (m : Replica) : Option HRec :=
  if ((s.part m.part).domain.bind (·.partner)).map (·.1) != some node then none
  else s.recs.find? fun r => r.part == m.part && r.kind == 0x0C && r.status == .started && r.fetched.isNone && fieldOf r.raw 0x20 1 == 2
    && fieldOf r.raw 0x30 8 == 1 && (fieldOf r.raw 0x28 8 == 0 || fieldOf r.raw 0x28 8 == m.seq.toNat)

/-- Space for a partition's two slots that the configuration block gives to a peer (R412). -/
def replicaRoom (s : State) (node : Word) (m : Replica) : Bool :=
  let room := ((s.mod.cfg.replicaSpace.find? fun x => x.1 == node).map (·.2)).getD 0
  let others := (s.replicas.filter fun x => x.node == node && x.part != m.part).foldl (fun n x => n + 2 * slotBytes (max x.slot0.nseg x.slot1.nseg)) 0
  others + 2 * slotBytes m.nseg ≤ room

/-- A partner's slots take a recovery point: the slot that does not hold the latest one (R405, R412). -/
def keepReplica (s : State) (node : Word) (m : Replica) : State :=
  let old : ReplicaSlot := (s.replicas.find? fun x => x.node == node && x.part == m.part).getD { node := node, part := m.part, slot0 := Slot.blank, slot1 := Slot.blank }
  let zero := old.slot0.valid && (!old.slot1.valid || old.slot1.seq.toNat < old.slot0.seq.toNat)
  let new := if zero then { old with slot1 := slotOf m 1 old.slot1 } else { old with slot0 := slotOf m 0 old.slot0 }
  { s with replicas := (s.replicas.filter fun x => !(x.node == node && x.part == m.part)) ++ [new] }

/-- What a listed peer sends on REPLICA reaches the checkpoint firmware (R330, R412). -/
def replicaIn (s : State) (node : Word) : Bool := engineOn s && s.mod.cfg.peers.contains node

/-- The answer to a node goes back on its REPLICA connection. -/
def answerPeer (s : State) (m : Clovo) (x : PeerMsg) : State := sendPeer s m.port m.src 3 x

/-- A recovery point that has arrived: a fetched one is restored; another is kept and acknowledged, or refused for want of space (R412,
R413). -/
def takeReplica (s : State) (m : Clovo) (x : Replica) : State :=
  if !replicaIn s m.src then s
  else match fetching s m.src x with
    | some r => endRestore (modRec s r.id fun r => { r with fetched := some x }) { r with fetched := some x }
    | none =>
      if replicaRoom s m.src x then answerPeer (keepReplica s m.src x) m (.answer ⟨x.part, x.seq, false⟩) else answerPeer s m (.answer ⟨x.part, x.seq, true⟩)

/-- REPLICA_SEGMENTS: a DATA message that carries a recovery point of a partition. -/
def execReplicaSegments (x : Clovo × Replica) (s : State) : Result := peerIn x.1 3 s fun s => takeReplica s x.1 x.2

/-- A partner's answer: an acknowledgment sets RPPAR and writes a PACK entry, or is dropped; a refusal changes nothing (R412). -/
def takeAnswer (s : State) (node : Word) (x : PartnerReply) : State :=
  let q := s.part x.part
  if !engineOn s || (q.domain.bind (·.partner)).map (·.1) != some node || x.refused || q.rp.feed || q.rp.rpseq.toNat < x.seq.toNat then s
  else journal (modPart s x.part fun q => { q with rp := { q.rp with rppar := x.seq } }) x.part 7 x.seq

/-- PARTNER_ACK: a DATA message that carries the partner's answer for a sequence. -/
def execPartnerAck (m : Clovo) (x : PartnerReply) (s : State) : Result := peerIn m 3 s fun s => takeAnswer s m.src x

/-- The valid recovery points that the module keeps for a partition of a node. -/
def keptPoints (s : State) (node : Word) (part : Nat) : List Slot :=
  match s.replicas.find? fun x => x.node == node && x.part == part with
  | none => []
  | some x => ([(0, x.slot0), (1, x.slot1)].filter fun y => slotSound y.2.nseg y.1 part y.2).map (·.2)

/-- The recovery point asked for, or the latest (R413). -/
def keptPoint (s : State) (node : Word) (part : Nat) (seq : Word) : Option Slot :=
  (keptPoints s node part).foldl (fun o x =>
    if seq != 0 && x.seq != seq then o
    else match o with
      | none => some x
      | some y => if y.seq.toNat < x.seq.toNat then some x else some y) none

/-- A recovery point as the partner sends it back; a blank commit record says that it has none. -/
def replicaOf (s : State) (part : Nat) (seq : Word) (x : Slot) : Replica :=
  { node := s.mod.cfg.node, part := part, seq := seq, feed := s.mod.cfg.feed, nseg := x.nseg, segments := x.segs.zipIdx.map fun g => (g.2, segmentBytes g.1)
    commit := commitRecord x, table := tableBytes x.table }

/-- PARTNER_FETCH: a DATA message that asks for a recovery point; it goes back, or word that there is none (R408, R413, log 45). -/
def execPartnerFetch (m : Clovo) (part : Nat) (seq : Word) (s : State) : Result :=
  peerIn m 3 s fun s =>
    if !replicaIn s m.src then s
    else match keptPoint s m.src part seq with
      | some x => answerPeer s m (.replica (replicaOf s part x.seq x))
      | none => answerPeer s m (.replica (replicaOf s part seq Slot.blank))

end Sys2Proof.Machine
end

