-- ==== Sys2Proof/Machine/Sealed.lean ====
section
/-!
DEFINITION. The sealed part of the configuration block (R351): what it holds, the two copies that firmware core 7 writes in turn, and
what a start loads from them (log 46).
-/

namespace Sys2Proof.Machine

/-- What the sealed part would hold if it were written now. -/
def sealedNow (s : State) : SealedPart :=
  { scores := s.cores.toList.map (·.score), trims := s.mod.trims, warmFails := s.mod.warmFails, coldFails := s.mod.coldFails
    serial := s.mod.appliedSerial }

/-- The latest copy whose HMAC verifies; none when neither does. -/
def latestSeal (m : Module) : Option SealedCopy :=
  match m.seal0.sound, m.seal1.sound with
  | true, true => some (if m.seal0.order < m.seal1.order then m.seal1 else m.seal0)
  | true, false => some m.seal0
  | false, true => some m.seal1
  | false, false => none

/-- A copy of the sealed part, by its number. -/
def Module.setSeal (m : Module) (k : Nat) (c : SealedCopy) : Module := if k = 0 then { m with seal0 := c } else { m with seal1 := c }

/-- A step of firmware core 7 in keeping the sealed part: a write of the copy that is not the latest begins when what it would hold
differs, and the next one ends it (log 46). -/
def sealStep (s : State) : State :=
  let m := s.mod
  match m.sealing with
  | some k => { s with mod := { m.setSeal k { (if k = 0 then m.seal0 else m.seal1) with sound := true } with sealing := none } }
  | none =>
    let now := sealedNow s
    let begin (k order : Nat) : State := { s with mod := { m.setSeal k { order := order, sound := false, part := now } with sealing := some k } }
    match latestSeal m with
    | none => begin 0 0
    | some c => if c.part == now then s else begin (if c == m.seal0 then 1 else 0) (c.order + 1)

/-- A start, which firmware core 7 runs, ends with the sealed part written whole. -/
def sealWhole (s : State) : State := sealStep (sealStep s)

/-- What a start loads: the latest sound copy, and nothing but zeros where neither is sound. Retirement holds (R373). -/
def loadSealed (s : State) : State :=
  let x := match latestSeal s.mod with
    | some c => c.part
    | none => SealedPart.zero
  { s with
    cores := Vector.ofFn fun i : Fin 192 => { s.cores[i] with score := x.scores.getD i.val 0 }
    mod := { s.mod with trims := x.trims, warmFails := x.warmFails, coldFails := x.coldFails, appliedSerial := x.serial } }

end Sys2Proof.Machine
end

