-- ==== Sys2Proof/Machine/Power.lean ====
section
/-!
DEFINITION. The module as a whole: the firmware cores' wake registers and mailboxes (R345, R346), power states (R353), starts
(R351, R352, R371, R373, R416), die resets (R302, R416) and die temperature (R354).
-/

namespace Sys2Proof.Machine

/-! ### Firmware cores (R345, R346) -/

def modFw (s : State) (c : Nat) (f : FwCore → FwCore) : State := { s with mod := { s.mod with fw := modNth s.mod.fw c f } }

/-- WAKE_WRITE: the filter's write to a core's wake register brings the core out of retention. -/
def execWakeWrite (core : Nat) (s : State) : Result :=
  .next (modFw s core fun c => if c.wake then { c with retention := false, wake := false } else c)

/-- FIRMWARE_MAILBOX_MESSAGE: 64 bytes join the mailbox of the core `dst`, in send order, and bring it out of retention; a
send to a full mailbox waits. -/
def execFirmwareMailboxMessage (src dst : Nat) (msg : List Byte) (s : State) : Result :=
  .next (modFw s dst fun c => if c.mailbox.length < 32 then
      { c with retention := false, mailbox := c.mailbox ++ [(src, (msg ++ List.replicate 64 0).take 64)] } else c)

/-- GREEN_ROOM: a core reads its messages in order; with its mailbox empty and nothing to do for 50 µs it enters retention. -/
def execGreenRoom (core : Nat) (s : State) : Result :=
  .next (modFw s core fun c => match c.mailbox with
    | _ :: rest => { c with mailbox := rest }
    | [] => if fwIdle s core c && c.idleAt + Config.greenCycles ≤ s.mod.time then { c with retention := true } else c)

/-! ### Power states (R353) -/

/-- PS1_ENTRY: 10 ms with no resident team, no record in progress and no engine record. -/
def execPs1Entry (s : State) : Result :=
  .next (if !recordsRun s || moduleBusy s || s.mod.time < s.mod.busyAt + Config.ps1Cycles then s
    else { s with mod := { s.mod with power := .ps1, fw := Vector.ofFn fun i : Fin 8 =>
        if i.val == 0 then s.mod.fw[i] else { s.mod.fw[i] with retention := true } } })

/-- What a cold start finds: nothing but the configuration block with its sealed part (R351, R402), and the
fields of the model's own. No self-test has run yet (R376); the powered time since the scores were halved goes on (R371, log 6). -/
def coldState (s : State) : State :=
  { State.reset with
    cores := s.cores.map fun c => { c with owner := none, pass := false, testing := false, tlb := [], watches := [] }
    mod := { Module.initial with cfg := s.mod.cfg, nextCfg := s.mod.nextCfg, appliedSerial := s.mod.appliedSerial, circuits := []
                                 seal0 := s.mod.seal0, seal1 := s.mod.seal1, trims := s.mod.trims
                                 warmFails := s.mod.warmFails, coldFails := s.mod.coldFails, hot := s.mod.hot, portOpen := false, inReset := true, coldDue := true
                                 powered := s.mod.powered }
    out := s.out, nextId := s.nextId, sched := s.sched, rotation := s.rotation, freeCtr := s.freeCtr }

/-- POWER_REMOVED: PS3 holds nothing, the powered time of R371 neither (log 6). -/
def execPowerRemoved (s : State) : Result :=
  .next (let s := coldState s
    { s with mod := { s.mod with power := .ps3, inReset := false, coldDue := false, powered := 0 } })

/-- POWER_ON: a cold start is due. -/
def execPowerOn (s : State) : Result :=
  .next (if s.mod.power == .ps3 then { s with mod := { s.mod with inReset := true, coldDue := true } } else s)

/-! ### Starts (R351, R352, R371, R373) -/

/-- The configuration block as this start finds it: a replacement signed part has come into force, and a list of overrides
not applied before has written its scores (R351, R373). -/
def applyConfig (s : State) : State :=
  let cfg := s.mod.nextCfg.getD s.mod.cfg
  let s := { s with mod := { s.mod with cfg := cfg, nextCfg := none } }
  if cfg.serial == s.mod.appliedSerial then s
  else
    cfg.overrides.foldl (fun s o => modCore s o.1 fun c =>
      { c with score := o.2, cleared := c.retired && (c.cleared || o.2.toNat < cfg.retire) })
      { s with mod := { s.mod with appliedSerial := cfg.serial } }

/-- The scan self-test of a core at a start: a failed one sets the score to 15; a retired core whose score an override has
cleared returns when it passes (R371, R373). -/
def testCore (retire : Nat) (failed : Bool) (c : Core) : Core :=
  let c := { c with pass := !failed }
  if failed then { c with score := 15, retired := true, cleared := false }
  else if c.retired && c.cleared && c.score.toNat < retire then { c with retired := false, cleared := false }
  else if retire ≤ c.score.toNat then { c with retired := true } else c

/-- The self-tests of a start: of every core, or of the cores whose score is not 0 and the retired ones (R352, R373); TESTTIME is that of
the latest test of a core (R375). -/
def startTests (s : State) (every : Bool) (failed : List Nat) : State :=
  let due (c : Core) : Bool := every || c.score != 0 || c.retired
  let test (i : Nat) (c : Core) : Core := if due c then testCore s.mod.cfg.retire (failed.contains i) c else c
  { s with cores := Vector.ofFn fun i : Fin 192 => test i.val s.cores[i]
           mod := { s.mod with testTime := if s.cores.toList.any due then s.mod.time else s.mod.testTime } }

/-- The last steps of a start: the default connection table is lit, the failure counts clear, the port opens (R352). -/
def openModule (s : State) : State :=
  enterRun { s with mod := { s.mod with
    circuits := s.mod.cfg.table, raising := [], raisingRec := none, warmFails := 0, coldFails := 0, safeMode := false, portOpen := true
    inReset := false, coldDue := false, fw := Module.initial.fw.map fun c => { c with idleAt := s.mod.time } } }

/-- The recovery-point registers and the journal at a warm start (R214, R403, R407): a commit that the reset cut off gets its
CFAIL entry, and CUR takes back its granules; STATE becomes 0, CFAIL says whether a commit was cut off, TORN and FEED have their reset
values; a START entry follows. -/
def startPoint (s : State) (p : Nat) : State :=
  let q := s.part p
  if !q.present then s
  else
    let s := if q.rp.state != 2 then s
      else match q.domain with
        | none => s
        | some d => match d.commit with
          | none => s
          | some c => failCommit s p d c
    let s := modPart s p fun r => { r with rp := { r.rp with state := 0, cfail := q.rp.state == 2, torn := false, feed := false } }
    journal s p 8 0

/-- The default connection table is lit at step 5 of a start, when R347 does not refuse it (R17, R352). -/
def tableLights (s : State) : Bool := (tableRefusal s s.mod.cfg.table).isNone

/-- A cold start, from what the sealed part holds (R351, R352): HBM4 is trained and new trims are stored; after the third failure
in a row the module enters safe mode. -/
def coldStart (ok : Bool) (failed : List Nat) (s : State) : State :=
  let s := loadSealed (coldState s)
  let s := { s with mod := { s.mod with trims := s.mod.trims + 1 } }
  let x := startTests (applyConfig s) true failed
  sealWhole (if ok && tableLights x then openModule x
    else if s.mod.coldFails + 1 < 3 then { s with mod := { s.mod with coldFails := s.mod.coldFails + 1 } }
    else { s with mod := { s.mod with coldFails := s.mod.coldFails + 1, safeMode := true, portOpen := true, inReset := false, coldDue := false } })

/-- WARM_START: ends well, or fails at some step; the third failure in a row forces a cold start (R352). In PS2 no partition is
there, and the record that woke the module stays (R353). With neither copy of the sealed part sound it proceeds as a cold start (R351). -/
def execWarmStart (ok : Bool) (failed : List Nat) (s : State) : Result :=
  .next (if !s.mod.inReset || s.mod.coldDue || s.mod.tripped then s
    else if (latestSeal s.mod).isNone then coldStart ok failed s
    else
      let s := loadSealed s
      let n := s.mod.warmFails + 1
      let fails := { s with mod := { s.mod with warmFails := n, coldDue := 3 ≤ n } }
      let x := startTests (applyConfig ((List.range 8).foldl startPoint s)) false failed
      sealWhole (if ok && tableLights x then openModule x else fails))

/-- COLD_START: ends well, with nothing kept but the configuration block, or fails (R352). -/
def execColdStart (ok : Bool) (failed : List Nat) (s : State) : Result :=
  .next (if !s.mod.inReset || !s.mod.coldDue || s.mod.tripped then s else coldStart ok failed s)

/-- DIE_RESET: a reset of any die stops the whole module until the warm start (R416). -/
def execDieReset (die : Nat) (s : State) : Result :=
  .next (if 17 ≤ die || s.mod.power == .ps3 || s.mod.tripped then s else stopModule s)

/-! ### Die temperature (R354) -/

/-- THERMAL_HOT: a die is above 95 °C: nothing is dispatched, resumed, staged or moved; a decision under way commits nothing. -/
def execThermalHot (die : Nat) (s : State) : Result :=
  .next (if 17 ≤ die then s
    else { s with mod := { s.mod with hot := true }, parts := s.parts.map fun q => { q with run := CueRun.idle } })

/-- THERMAL_CLEAR: every die has been at or below 90 °C for 100 ms; scheduling returns in each partition. -/
def execThermalClear (s : State) : Result :=
  .next (if s.mod.hot then
      (List.range 8).foldl (fun s p => if (s.part p).present then roomChanged s p else s) { s with mod := { s.mod with hot := false } }
    else s)

/-- A THERMAL reply on every open REPLY connection. -/
def thermalReplies (s : State) : State :=
  (s.conns.filter fun c => c.chan == 1 && c.isOpen).foldl (fun s c => sendData s c.id (.bytes (replyHeader 4 0 0xFF))) s

/-- THERMAL_TRIP: a die is above 105 °C: the replies leave, then every die is held in reset, and the checkpoint domains are lost
with the work. -/
def execThermalTrip (die : Nat) (s : State) : Result :=
  .next (if 17 ≤ die || s.mod.power == .ps3 || s.mod.tripped then s
    else
      let s := loseWork (if filterOn s then thermalReplies s else s)
      let s := scramble { s with parts := s.parts.map fun q => { q with domain := none } } fun _ => true
      { s with mod := { s.mod with tripped := true } })

/-- THERMAL_COOLED: every die has been at or below 85 °C for 1 s; the module runs a cold start by itself. -/
def execThermalCooled (s : State) : Result :=
  .next (if s.mod.tripped then { s with mod := { s.mod with tripped := false, hot := false, inReset := true, coldDue := true } } else s)

end Sys2Proof.Machine
end

