-- ==== Sys2Proof/Machine/Dispatch.lean ====
section
/-!
DEFINITION. Dispatch: one arm per constructor of Instr, each one direct call of its meaning.
-/

namespace Sys2Proof.Machine

/-- The meaning of every row of the opcode table. -/
def exec (i : Instr) (s : State) : Host.Outcome State Fault Refusal :=
  match i with
  | .add d a b => Sys2Proof.Machine.execAdd d a b s
  | .sub d a b => Sys2Proof.Machine.execSub d a b s
  | .and d a b => Sys2Proof.Machine.execAnd d a b s
  | .or d a b => Sys2Proof.Machine.execOr d a b s
  | .xor d a b => Sys2Proof.Machine.execXor d a b s
  | .andn d a b => Sys2Proof.Machine.execAndn d a b s
  | .shl d a b => Sys2Proof.Machine.execShl d a b s
  | .shr d a b => Sys2Proof.Machine.execShr d a b s
  | .sra d a b => Sys2Proof.Machine.execSra d a b s
  | .min d a b => Sys2Proof.Machine.execMin d a b s
  | .max d a b => Sys2Proof.Machine.execMax d a b s
  | .minu d a b => Sys2Proof.Machine.execMinu d a b s
  | .maxu d a b => Sys2Proof.Machine.execMaxu d a b s
  | .clz d a => Sys2Proof.Machine.execClz d a s
  | .ctz d a => Sys2Proof.Machine.execCtz d a s
  | .popc d a => Sys2Proof.Machine.execPopc d a s
  | .mov d a => Sys2Proof.Machine.execMov d a s
  | .mul d a b => Sys2Proof.Machine.execMul d a b s
  | .mulh d a b => Sys2Proof.Machine.execMulh d a b s
  | .mulhu d a b => Sys2Proof.Machine.execMulhu d a b s
  | .mulhsu d a b => Sys2Proof.Machine.execMulhsu d a b s
  | .div d a b => Sys2Proof.Machine.execDiv d a b s
  | .divu d a b => Sys2Proof.Machine.execDivu d a b s
  | .rem d a b => Sys2Proof.Machine.execRem d a b s
  | .remu d a b => Sys2Proof.Machine.execRemu d a b s
  | .seq d a b => Sys2Proof.Machine.execSeq d a b s
  | .sne d a b => Sys2Proof.Machine.execSne d a b s
  | .slt d a b => Sys2Proof.Machine.execSlt d a b s
  | .sltu d a b => Sys2Proof.Machine.execSltu d a b s
  | .sle d a b => Sys2Proof.Machine.execSle d a b s
  | .sleu d a b => Sys2Proof.Machine.execSleu d a b s
  | .addi d a imm => Sys2Proof.Machine.execAddi d a imm s
  | .andi d a imm => Sys2Proof.Machine.execAndi d a imm s
  | .ori d a imm => Sys2Proof.Machine.execOri d a imm s
  | .xori d a imm => Sys2Proof.Machine.execXori d a imm s
  | .shli d a imm => Sys2Proof.Machine.execShli d a imm s
  | .shri d a imm => Sys2Proof.Machine.execShri d a imm s
  | .srai d a imm => Sys2Proof.Machine.execSrai d a imm s
  | .slti d a imm => Sys2Proof.Machine.execSlti d a imm s
  | .sltiu d a imm => Sys2Proof.Machine.execSltiu d a imm s
  | .seqi d a imm => Sys2Proof.Machine.execSeqi d a imm s
  | .movi d imm => Sys2Proof.Machine.execMovi d imm s
  | .movk d h imm => Sys2Proof.Machine.execMovk d h imm s
  | .beq a b o => Sys2Proof.Machine.execBeq a b o s
  | .bne a b o => Sys2Proof.Machine.execBne a b o s
  | .blt a b o => Sys2Proof.Machine.execBlt a b o s
  | .bge a b o => Sys2Proof.Machine.execBge a b o s
  | .bqt o => Sys2Proof.Machine.execBqt o s
  | .bqf o => Sys2Proof.Machine.execBqf o s
  | .jalr d a => Sys2Proof.Machine.execJalr d a s
  | .mbrd d k => Sys2Proof.Machine.execMbrd d k s
  | .mbput k a b => Sys2Proof.Machine.execMbput k a b s
  | .rotrd d => Sys2Proof.Machine.execRotrd d s
  | .rotwr a => Sys2Proof.Machine.execRotwr a s
  | .jal d o => Sys2Proof.Machine.execJal d o s
  | .loop l src r n => Sys2Proof.Machine.execLoop l src r n s
  | .ldb d b o => Sys2Proof.Machine.execLdb d b o s
  | .ldbu d b o => Sys2Proof.Machine.execLdbu d b o s
  | .ldh d b o => Sys2Proof.Machine.execLdh d b o s
  | .ldhu d b o => Sys2Proof.Machine.execLdhu d b o s
  | .ldw d b o => Sys2Proof.Machine.execLdw d b o s
  | .ldwu d b o => Sys2Proof.Machine.execLdwu d b o s
  | .ldd d b o => Sys2Proof.Machine.execLdd d b o s
  | .lqb q b o => Sys2Proof.Machine.execLqb q b o s
  | .lqbu q b o => Sys2Proof.Machine.execLqbu q b o s
  | .lqh q b o => Sys2Proof.Machine.execLqh q b o s
  | .lqhu q b o => Sys2Proof.Machine.execLqhu q b o s
  | .lqw q b o => Sys2Proof.Machine.execLqw q b o s
  | .lqwu q b o => Sys2Proof.Machine.execLqwu q b o s
  | .lqd q b o => Sys2Proof.Machine.execLqd q b o s
  | .sab b o => Sys2Proof.Machine.execSab b o s
  | .sah b o => Sys2Proof.Machine.execSah b o s
  | .saw b o => Sys2Proof.Machine.execSaw b o s
  | .sad b o => Sys2Proof.Machine.execSad b o s
  | .qpop d q => Sys2Proof.Machine.execQpop d q s
  | .sdq a => Sys2Proof.Machine.execSdq a s
  | .xqput a => Sys2Proof.Machine.execXqput a s
  | .xqget d => Sys2Proof.Machine.execXqget d s
  | .bqput a => Sys2Proof.Machine.execBqput a s
  | .tld d a b => Sys2Proof.Machine.execTld d a b s
  | .tst d a b => Sys2Proof.Machine.execTst d a b s
  | .gth d a b => Sys2Proof.Machine.execGth d a b s
  | .sct d a b => Sys2Proof.Machine.execSct d a b s
  | .spld d o => Sys2Proof.Machine.execSpld d o s
  | .spst d o => Sys2Proof.Machine.execSpst d o s
  | .amadd d a b c z => Sys2Proof.Machine.execAmadd d a b c z s
  | .ammin d a b c z => Sys2Proof.Machine.execAmmin d a b c z s
  | .ammax d a b c z => Sys2Proof.Machine.execAmmax d a b c z s
  | .amand d a b c z => Sys2Proof.Machine.execAmand d a b c z s
  | .amor d a b c z => Sys2Proof.Machine.execAmor d a b c z s
  | .amxor d a b c z => Sys2Proof.Machine.execAmxor d a b c z s
  | .amswp d a b c z => Sys2Proof.Machine.execAmswp d a b c z s
  | .amcas d a b c z => Sys2Proof.Machine.execAmcas d a b c z s
  | .rel c => Sys2Proof.Machine.execRel c s
  | .acq c => Sys2Proof.Machine.execAcq c s
  | .fence c => Sys2Proof.Machine.execFence c s
  | .push d a e => Sys2Proof.Machine.execPush d a e s
  | .swait d a b => Sys2Proof.Machine.execSwait d a b s
  | .ssig d a b => Sys2Proof.Machine.execSsig d a b s
  | .srd d a => Sys2Proof.Machine.execSrd d a s
  | .ecreate d => Sys2Proof.Machine.execEcreate d s
  | .ejoin d a => Sys2Proof.Machine.execEjoin d a s
  | .eleave d a => Sys2Proof.Machine.execEleave d a s
  | .equery d a b => Sys2Proof.Machine.execEquery d a b s
  | .ebar d a => Sys2Proof.Machine.execEbar d a s
  | .uimask d a => Sys2Proof.Machine.execUimask d a s
  | .sysrd d n => Sys2Proof.Machine.execSysrd d n s
  | .sysrdSigv d => Sys2Proof.Machine.execSysrdSigv d s
  | .sysrdSigs d => Sys2Proof.Machine.execSysrdSigs d s
  | .sysrdTrapInfo d n => Sys2Proof.Machine.execSysrdTrapInfo d n s
  | .syswr a n => Sys2Proof.Machine.execSyswr a n s
  | .syswrHeapWindow a n => Sys2Proof.Machine.execSyswrHeapWindow a n s
  | .trap n => Sys2Proof.Machine.execTrap n s
  | .cro o => Sys2Proof.Machine.execCro o s
  | .locq d a n => Sys2Proof.Machine.execLocq d a n s
  | .brk n => Sys2Proof.Machine.execBrk n s
  | .rpopen d => Sys2Proof.Machine.execRpopen d s
  | .rpcommit d a => Sys2Proof.Machine.execRpcommit d a s
  | .rpwait d a w => Sys2Proof.Machine.execRpwait d a w s
  | .vadd f => Sys2Proof.Machine.execVadd f s
  | .vsub f => Sys2Proof.Machine.execVsub f s
  | .vmul f => Sys2Proof.Machine.execVmul f s
  | .vfma f => Sys2Proof.Machine.execVfma f s
  | .vfms f => Sys2Proof.Machine.execVfms f s
  | .vmin f => Sys2Proof.Machine.execVmin f s
  | .vmax f => Sys2Proof.Machine.execVmax f s
  | .vabs f => Sys2Proof.Machine.execVabs f s
  | .vneg f => Sys2Proof.Machine.execVneg f s
  | .vaddsat f => Sys2Proof.Machine.execVaddsat f s
  | .vsubsat f => Sys2Proof.Machine.execVsubsat f s
  | .vceq f => Sys2Proof.Machine.execVceq f s
  | .vcne f => Sys2Proof.Machine.execVcne f s
  | .vclt f => Sys2Proof.Machine.execVclt f s
  | .vcle f => Sys2Proof.Machine.execVcle f s
  | .vcgt f => Sys2Proof.Machine.execVcgt f s
  | .vcge f => Sys2Proof.Machine.execVcge f s
  | .pand f => Sys2Proof.Machine.execPand f s
  | .por f => Sys2Proof.Machine.execPor f s
  | .pxor f => Sys2Proof.Machine.execPxor f s
  | .pnot f => Sys2Proof.Machine.execPnot f s
  | .pset f => Sys2Proof.Machine.execPset f s
  | .vand f => Sys2Proof.Machine.execVand f s
  | .vor f => Sys2Proof.Machine.execVor f s
  | .vxor f => Sys2Proof.Machine.execVxor f s
  | .vandn f => Sys2Proof.Machine.execVandn f s
  | .vnot f => Sys2Proof.Machine.execVnot f s
  | .vshl f => Sys2Proof.Machine.execVshl f s
  | .vshr f => Sys2Proof.Machine.execVshr f s
  | .vsra f => Sys2Proof.Machine.execVsra f s
  | .vshli f => Sys2Proof.Machine.execVshli f s
  | .vshri f => Sys2Proof.Machine.execVshri f s
  | .vsrai f => Sys2Proof.Machine.execVsrai f s
  | .vrsumr f => Sys2Proof.Machine.execVrsumr f s
  | .vrsumc f => Sys2Proof.Machine.execVrsumc f s
  | .vrmaxr f => Sys2Proof.Machine.execVrmaxr f s
  | .vrmaxc f => Sys2Proof.Machine.execVrmaxc f s
  | .vrminr f => Sys2Proof.Machine.execVrminr f s
  | .vrminc f => Sys2Proof.Machine.execVrminc f s
  | .vbcast f => Sys2Proof.Machine.execVbcast f s
  | .vtrans f => Sys2Proof.Machine.execVtrans f s
  | .vperm f => Sys2Proof.Machine.execVperm f s
  | .vshuf f => Sys2Proof.Machine.execVshuf f s
  | .vcomp f => Sys2Proof.Machine.execVcomp f s
  | .vexpd f => Sys2Proof.Machine.execVexpd f s
  | .vsel f => Sys2Proof.Machine.execVsel f s
  | .vmov f => Sys2Proof.Machine.execVmov f s
  | .vmovi f => Sys2Proof.Machine.execVmovi f s
  | .vld f => Sys2Proof.Machine.execVld f s
  | .vst f => Sys2Proof.Machine.execVst f s
  | .vldac f => Sys2Proof.Machine.execVldac f s
  | .pst f => Sys2Proof.Machine.execPst f s
  | .pld f => Sys2Proof.Machine.execPld f s
  | .shp f => Sys2Proof.Machine.execShp f s
  | .shpr f => Sys2Proof.Machine.execShpr f s
  | .mwld f => Sys2Proof.Machine.execMwld f s
  | .mwldq f => Sys2Proof.Machine.execMwldq f s
  | .mclr f => Sys2Proof.Machine.execMclr f s
  | .mswap f => Sys2Proof.Machine.execMswap f s
  | .mcks f => Sys2Proof.Machine.execMcks f s
  | .mmac f => Sys2Proof.Machine.execMmac f s
  | .cvt f => Sys2Proof.Machine.execCvt f s
  | .cvtsr f => Sys2Proof.Machine.execCvtsr f s
  | .rng f => Sys2Proof.Machine.execRng f s
  | .tint f => Sys2Proof.Machine.execTint f s
  | .tload f => Sys2Proof.Machine.execTload f s
  | .cuePfx imm => Sys2Proof.Machine.execCuePfx imm s
  | .cueMov d a => Sys2Proof.Machine.execCueMov d a s
  | .cueLi d imm => Sys2Proof.Machine.execCueLi d imm s
  | .cueAdd d a b => Sys2Proof.Machine.execCueAdd d a b s
  | .cueAddi d a imm => Sys2Proof.Machine.execCueAddi d a imm s
  | .cueSub d a b => Sys2Proof.Machine.execCueSub d a b s
  | .cueAnd d a b => Sys2Proof.Machine.execCueAnd d a b s
  | .cueOr d a b => Sys2Proof.Machine.execCueOr d a b s
  | .cueXor d a b => Sys2Proof.Machine.execCueXor d a b s
  | .cueShl d a n => Sys2Proof.Machine.execCueShl d a n s
  | .cueShr d a n => Sys2Proof.Machine.execCueShr d a n s
  | .cueMin d a b => Sys2Proof.Machine.execCueMin d a b s
  | .cueMax d a b => Sys2Proof.Machine.execCueMax d a b s
  | .cueSlt d a b => Sys2Proof.Machine.execCueSlt d a b s
  | .cueSeq d a b => Sys2Proof.Machine.execCueSeq d a b s
  | .cueMul d a b => Sys2Proof.Machine.execCueMul d a b s
  | .cueBeq d a imm => Sys2Proof.Machine.execCueBeq d a imm s
  | .cueBne d a imm => Sys2Proof.Machine.execCueBne d a imm s
  | .cueBlt d a imm => Sys2Proof.Machine.execCueBlt d a imm s
  | .cueBge d a imm => Sys2Proof.Machine.execCueBge d a imm s
  | .cueJmp imm => Sys2Proof.Machine.execCueJmp imm s
  | .cueEach d src imm => Sys2Proof.Machine.execCueEach d src imm s
  | .cueNext d => Sys2Proof.Machine.execCueNext d s
  | .cueVget d a f => Sys2Proof.Machine.execCueVget d a f s
  | .cueCget d a f => Sys2Proof.Machine.execCueCget d a f s
  | .cueVglob d f => Sys2Proof.Machine.execCueVglob d f s
  | .cuePick a => Sys2Proof.Machine.execCuePick a s
  | .cuePlace a => Sys2Proof.Machine.execCuePlace a s
  | .cueDeny n => Sys2Proof.Machine.execCueDeny n s
  | .vectorCommand tid e => Sys2Proof.Machine.execVectorCommand tid e s
  | .matrixCommand tid e => Sys2Proof.Machine.execMatrixCommand tid e s
  | .loadReturn tid => Sys2Proof.Machine.execLoadReturn tid s
  | .storePairing tid => Sys2Proof.Machine.execStorePairing tid s
  | .tileTransferCompletion tid => Sys2Proof.Machine.execTileTransferCompletion tid s
  | .wingsDrain tid => Sys2Proof.Machine.execWingsDrain tid s
  | .queueProtocolError tid => Sys2Proof.Machine.execQueueProtocolError tid s
  | .uliDelivery tid => Sys2Proof.Machine.execUliDelivery tid s
  | .trapEntry tid => Sys2Proof.Machine.execTrapEntry tid s
  | .semaphoreNotice pa => Sys2Proof.Machine.execSemaphoreNotice pa s
  | .semaphorePoll tid => Sys2Proof.Machine.execSemaphorePoll tid s
  | .pageWalk tid => Sys2Proof.Machine.execPageWalk tid s
  | .pageFaultResolve tid => Sys2Proof.Machine.execPageFaultResolve tid s
  | .threadEnd tid => Sys2Proof.Machine.execThreadEnd tid s
  | .teamEnd team => Sys2Proof.Machine.execTeamEnd team s
  | .taskEnd task => Sys2Proof.Machine.execTaskEnd task s
  | .agreementPoint tid => Sys2Proof.Machine.execAgreementPoint tid s
  | .vote team => Sys2Proof.Machine.execVote team s
  | .dispatch part => Sys2Proof.Machine.execDispatch part s
  | .preempt part => Sys2Proof.Machine.execPreempt part s
  | .fault part => Sys2Proof.Machine.execFault part s
  | .rebalance part => Sys2Proof.Machine.execRebalance part s
  | .stop team => Sys2Proof.Machine.execStop team s
  | .stopComplete team => Sys2Proof.Machine.execStopComplete team s
  | .teamResume team => Sys2Proof.Machine.execTeamResume team s
  | .moveMessage team => Sys2Proof.Machine.execMoveMessage team s
  | .stagehandSegment rec => Sys2Proof.Machine.execStagehandSegment rec s
  | .recordCompletion rec => Sys2Proof.Machine.execRecordCompletion rec s
  | .collectiveRecordStart rec => Sys2Proof.Machine.execCollectiveRecordStart rec s
  | .illegalInstruction w0 w1 => Sys2Proof.Machine.execIllegalInstruction w0 w1 s
  | .agreementTimeout tid => Sys2Proof.Machine.execAgreementTimeout tid s
  | .rebalPeriod part => Sys2Proof.Machine.execRebalPeriod part s
  | .starveTimeout part => Sys2Proof.Machine.execStarveTimeout part s
  | .collectiveFrame x => Sys2Proof.Machine.execCollectiveFrame x s
  | .holdFrame m epoch => Sys2Proof.Machine.execHoldFrame m epoch s
  | .holdTimer rec => Sys2Proof.Machine.execHoldTimer rec s
  | .collectiveTimeout rec => Sys2Proof.Machine.execCollectiveTimeout rec s
  | .collectiveAbort x => Sys2Proof.Machine.execCollectiveAbort x s
  | .scrub pa => Sys2Proof.Machine.execScrub pa s
  | .eccError w => Sys2Proof.Machine.execEccError w s
  | .clovoData m => Sys2Proof.Machine.execClovoData m s
  | .clovoAck m => Sys2Proof.Machine.execClovoAck m s
  | .clovoNakOrder m => Sys2Proof.Machine.execClovoNakOrder m s
  | .clovoNakFull m => Sys2Proof.Machine.execClovoNakFull m s
  | .retryExpiry conn => Sys2Proof.Machine.execRetryExpiry conn s
  | .clovoOpen m => Sys2Proof.Machine.execClovoOpen m s
  | .clovoOpenack m => Sys2Proof.Machine.execClovoOpenack m s
  | .clovoClose m => Sys2Proof.Machine.execClovoClose m s
  | .ackTimer conn => Sys2Proof.Machine.execAckTimer conn s
  | .retransmitTimeout conn => Sys2Proof.Machine.execRetransmitTimeout conn s
  | .connectionLost conn => Sys2Proof.Machine.execConnectionLost conn s
  | .arpRequest port ip => Sys2Proof.Machine.execArpRequest port ip s
  | .neighbourSolicitation port ip => Sys2Proof.Machine.execNeighbourSolicitation port ip s
  | .unsupportedFrame f => Sys2Proof.Machine.execUnsupportedFrame f s
  | .launch rec => Sys2Proof.Machine.execLaunch rec s
  | .troupe rec => Sys2Proof.Machine.execTroupe rec s
  | .troupeTwaitExpiry rec => Sys2Proof.Machine.execTroupeTwaitExpiry rec s
  | .wait rec => Sys2Proof.Machine.execWait rec s
  | .signal rec => Sys2Proof.Machine.execSignal rec s
  | .hostCopy rec => Sys2Proof.Machine.execHostCopy rec s
  | .cueLoad rec => Sys2Proof.Machine.execCueLoad rec s
  | .cueSwap rec => Sys2Proof.Machine.execCueSwap rec s
  | .partCreate rec => Sys2Proof.Machine.execPartCreate rec s
  | .partDestroy rec => Sys2Proof.Machine.execPartDestroy rec s
  | .rangeAcquire rec => Sys2Proof.Machine.execRangeAcquire rec s
  | .rangeRelease rec => Sys2Proof.Machine.execRangeRelease rec s
  | .ckptOpen rec => Sys2Proof.Machine.execCkptOpen rec s
  | .domain rec => Sys2Proof.Machine.execDomain rec s
  | .restore rec => Sys2Proof.Machine.execRestore rec s
  | .partner rec => Sys2Proof.Machine.execPartner rec s
  | .jread rec => Sys2Proof.Machine.execJread rec s
  | .ckptCommit rec => Sys2Proof.Machine.execCkptCommit rec s
  | .commitEnd part ok => Sys2Proof.Machine.execCommitEnd part ok s
  | .stallEnd part => Sys2Proof.Machine.execStallEnd part s
  | .replicaSegments x => Sys2Proof.Machine.execReplicaSegments x s
  | .partnerAck m x => Sys2Proof.Machine.execPartnerAck m x s
  | .partFreeze rec => Sys2Proof.Machine.execPartFreeze rec s
  | .partResume rec => Sys2Proof.Machine.execPartResume rec s
  | .imageOut rec => Sys2Proof.Machine.execImageOut rec s
  | .imageIn rec => Sys2Proof.Machine.execImageIn rec s
  | .connSet rec => Sys2Proof.Machine.execConnSet rec s
  | .circuitLit dieA dieB => Sys2Proof.Machine.execCircuitLit dieA dieB s
  | .readCuestat rec => Sys2Proof.Machine.execReadCuestat rec s
  | .readSchedstat rec => Sys2Proof.Machine.execReadSchedstat rec s
  | .dswap rec => Sys2Proof.Machine.execDswap rec s
  | .readAttestation rec => Sys2Proof.Machine.execReadAttestation rec s
  | .qset rec => Sys2Proof.Machine.execQset rec s
  | .pstate rec => Sys2Proof.Machine.execPstate rec s
  | .cfgwrite rec => Sys2Proof.Machine.execCfgwrite rec s
  | .restartModule rec => Sys2Proof.Machine.execRestartModule rec s
  | .handler rec => Sys2Proof.Machine.execHandler rec s
  | .attach rec => Sys2Proof.Machine.execAttach rec s
  | .detach rec => Sys2Proof.Machine.execDetach rec s
  | .debugHalt rec => Sys2Proof.Machine.execDebugHalt rec s
  | .debugResume rec => Sys2Proof.Machine.execDebugResume rec s
  | .debugStep rec => Sys2Proof.Machine.execDebugStep rec s
  | .stepTimeout rec => Sys2Proof.Machine.execStepTimeout rec s
  | .debugRead rec => Sys2Proof.Machine.execDebugRead rec s
  | .debugWrite rec => Sys2Proof.Machine.execDebugWrite rec s
  | .trapimg rec => Sys2Proof.Machine.execTrapimg rec s
  | .wakeWrite core => Sys2Proof.Machine.execWakeWrite core s
  | .firmwareMailboxMessage src dst msg => Sys2Proof.Machine.execFirmwareMailboxMessage src dst msg s
  | .greenRoom core => Sys2Proof.Machine.execGreenRoom core s
  | .coldStart ok failed => Sys2Proof.Machine.execColdStart ok failed s
  | .warmStart ok failed => Sys2Proof.Machine.execWarmStart ok failed s
  | .dieReset die => Sys2Proof.Machine.execDieReset die s
  | .thermalHot die => Sys2Proof.Machine.execThermalHot die s
  | .thermalTrip die => Sys2Proof.Machine.execThermalTrip die s
  | .inFieldTestDone core pass => Sys2Proof.Machine.execInFieldTestDone core pass s
  | .partnerFetch m part seq => Sys2Proof.Machine.execPartnerFetch m part seq s
  | .mark => Sys2Proof.Machine.execMark s
  | .uret => Sys2Proof.Machine.execUret s
  | .eret => Sys2Proof.Machine.execEret s
  | .crc => Sys2Proof.Machine.execCrc s
  | .sigchk => Sys2Proof.Machine.execSigchk s
  | .halt => Sys2Proof.Machine.execHalt s
  | .yield => Sys2Proof.Machine.execYield s
  | .wfi => Sys2Proof.Machine.execWfi s
  | .ps1Entry => Sys2Proof.Machine.execPs1Entry s
  | .powerOn => Sys2Proof.Machine.execPowerOn s
  | .powerRemoved => Sys2Proof.Machine.execPowerRemoved s
  | .thermalClear => Sys2Proof.Machine.execThermalClear s
  | .thermalCooled => Sys2Proof.Machine.execThermalCooled s
  | .inFieldTest => Sys2Proof.Machine.execInFieldTest s
  | .scoreHalving => Sys2Proof.Machine.execScoreHalving s
  | .cueStop => Sys2Proof.Machine.execCueStop s

end Sys2Proof.Machine
end

