-- ==== Sys2Proof/Machine/Select.lean ====
section
/-!
DEFINITION. Who moves next (log 2): the turn at the head of State.sched, and when none is listed the module's own agents in
rotation; how TIME goes on (log 5).
-/

namespace Sys2Proof.Machine

/-- A stream of a thread is selected, and the instruction at its program counter; an interrupt that is due is delivered before the
next execute-stream instruction issues (R199); none when the stream may not issue. -/
def issueTurn (s : State) (tid : Nat) (st : Stream) : Option Instr × State :=
  match focus s tid with
  | none => (none, s)
  | some x => if recordsRun x && mayIssue x x.thr st then
      let x := { x with cur := st }
      if st == .execute && (uliDue x x.thr).isSome then (some (.uliDelivery tid), x) else (some (fetch x), noteFetch x)
    else (none, s)

/-- The decision of a partition takes its next operation; none when no decision runs. -/
def cueTurn (s : State) (p : Nat) : Option Instr × State :=
  let s := { s with curPart := p }
  (if recordsRun s then cueFetch s.run else none, s)

/-- One turn: the instruction, and the state it runs in. -/
def takeTurn (s : State) : Turn → Option Instr × State
  | .event e => (some e, s)
  | .issue tid st => issueTurn s tid st
  | .cue p => cueTurn s p

/-- The turns of a thread. -/
def threadTurns (tid : Nat) : List Turn :=
  [.issue tid .execute, .issue tid .access, .event (.vectorCommand tid {}), .event (.matrixCommand tid {}), .event (.loadReturn tid),
    .event (.storePairing tid), .event (.tileTransferCompletion tid), .event (.wingsDrain tid), .event (.trapEntry tid), .event (.pageWalk tid),
    .event (.pageFaultResolve tid), .event (.agreementPoint tid), .event (.uliDelivery tid), .event (.semaphorePoll tid),
    .event (.queueProtocolError tid), .event (.threadEnd tid)]

def teamTurns (u : Nat) : List Turn :=
  [.event (.teamEnd u), .event (.stop u), .event (.stopComplete u), .event (.vote u), .event (.teamResume u), .event (.moveMessage u)]

def partTurns (p : Nat) : List Turn := [.cue p, .event (.fault p), .event (.preempt p), .event (.dispatch p), .event (.rebalance p)]

def recordTurns (r : Nat) : List Turn := [.event (.collectiveRecordStart r), .event (.stagehandSegment r), .event (.recordCompletion r)]

/-- Everything that the module's own agents could do next, in a fixed order. -/
def agenda (s : State) : List Turn :=
  if !recordsRun s then []
  else
    ((s.threads.filter (·.live)).map (·.tid)).foldl insertNat [] |>.flatMap threadTurns
      |>.append (s.teams.flatMap fun u => teamTurns u.id)
      |>.append (s.tasks.map fun k => .event (.taskEnd k.id))
      |>.append (((List.range 8).filter fun p => (s.part p).present).flatMap partTurns)
      |>.append (s.eng.flatMap fun r => recordTurns r.id)
      |>.append (if s.zeroing.isEmpty && !copiesDue s then [] else [.event (.stagehandSegment 0)])
      |>.append (s.notices.map fun n => .event (.semaphoreNotice n.pa))

/-- The next step: its instruction, none when whoever has the turn cannot act, and the state it runs in. -/
def select (s : State) : Option Instr × State :=
  match s.sched with
  | t :: rest => takeTurn { s with sched := rest } t
  | [] =>
    let l := agenda s
    match l[s.rotation % l.length]? with
    | some t => takeTurn { s with rotation := s.rotation + 1 } t
    | none => (none, s)

/-- The core-time of an interval that ends now goes to the queues that hold the cores; what lies before the last 100 microseconds
is forgotten (R246 QUSE). -/
def noteUse (s : State) (n : Nat) : State :=
  let now := s.mod.time
  { s with parts := Vector.ofFn fun p : Fin 8 =>
      let q := s.parts[p]
      if q.present then { q with usage := (q.usage.filter fun x => now < x.1 + useWindow) ++ [(now, n, queueCores s p.val)] } else q }

/-- TIME of the last moment of work, of the module and of each firmware core (R346, R353). -/
def noteIdle (s : State) : State :=
  { s with mod := { s.mod with
    busyAt := if moduleBusy s then s.mod.time else s.mod.busyAt
    fw := Vector.ofFn fun i : Fin 8 => let c := s.mod.fw[i]; if fwIdle s i.val c then c else { c with idleAt := s.mod.time } } }

/-- TIME goes on by a free number of C-cycles, except in PS3, and the counters of C-cycles with it (R210, R216, log 5);
firmware core 7 keeps the sealed part (R351). -/
def tick (s : State) : State :=
  if s.mod.power == .ps3 then s
  else
    let (n, s) := fresh s
    let s := noteUse { s with mod := { s.mod with time := s.mod.time + Config.elapsed n, powered := s.mod.powered + Config.elapsed n } } (Config.elapsed n)
    let s := noteIdle s
    let s := if s.mod.inReset then s else sealStep s
    mapThreads s fun t => if t.live && t.resident then t.cycles (Config.elapsed n) (debugHeld s t) else t

end Sys2Proof.Machine
end

