-- ==== Sys2Proof/Machine/Step.lean ====
section
/-!
DEFINITION. One step of the module: the agent that moves next runs its instruction, and TIME goes on.
-/

namespace Sys2Proof.Machine

/-- TIME goes on after a step. -/
def andTick : Host.Outcome State Fault Refusal → Host.Outcome State Fault Refusal
  | .next s => .next (tick s)
  | .fault r => .fault r
  | .refused r => .refused r

/-- One step. Without power and without a scheduled turn nothing happens any more; whoever cannot act lets TIME go on. -/
def step (s : State) : Host.Outcome State Fault Refusal :=
  match select s with
  | (some i, s) => andTick (exec i s)
  | (none, s') => if s.mod.power == .ps3 && s.sched.isEmpty then .fault .powerOff else .next (tick s')

/-- The state in which the very next step fetches and runs the instruction of an opcode-table row (log 4). -/
def State.withFetchWord (s : State) (nbits w : Nat) : State := placeWord s nbits w

end Sys2Proof.Machine
end

