-- ==== Sys2Proof/Safety.lean ====
section
/-!
DEFINITION. What a safe run is, and the terms in which claims speak of one instruction: which registers are ready, what
completing, jumping and stalling change, what taking a trap leaves, and what stays outside a thread.
-/

namespace Sys2Proof.Machine

/-- A step goes on: it ends in a next state. -/
def Goes (s : State) : Prop := ∃ t, step s = .next t

/-- The invariant: memory is in canonical form. -/
def MemInv (s : State) : Prop := Memory.wf s.mem = true

/-- A run of n steps from s, each ending in a next state, whose states all satisfy the invariant. -/
def SafeRun : Nat → State → Prop
  | 0, s => MemInv s
  | n + 1, s => MemInv s ∧ ∃ t, step s = .next t ∧ SafeRun n t

/-! ### One instruction -/

/-- No register named waits for the result of an earlier instruction (R76). -/
def Ready (s : State) (rs : List Reg) : Prop := ∀ r ∈ rs, pendingReg s.thr s.cur r = false

/-- Some register named waits for the result of an earlier instruction (R76). -/
def Waiting (s : State) (rs : List Reg) : Prop := ∃ r ∈ rs, pendingReg s.thr s.cur r = true

/-- The registers that a scalar or control instruction (R75-R96) reads. -/
def scalarReads : Instr → List Reg
  | .add _ a b | .sub _ a b | .and _ a b | .or _ a b | .xor _ a b | .andn _ a b | .shl _ a b | .shr _ a b | .sra _ a b => [a, b]
  | .min _ a b | .max _ a b | .minu _ a b | .maxu _ a b => [a, b]
  | .clz _ a | .ctz _ a | .popc _ a | .mov _ a => [a]
  | .mul _ a b | .mulh _ a b | .mulhu _ a b | .mulhsu _ a b | .div _ a b | .divu _ a b | .rem _ a b | .remu _ a b => [a, b]
  | .seq _ a b | .sne _ a b | .slt _ a b | .sltu _ a b | .sle _ a b | .sleu _ a b => [a, b]
  | .addi _ a _ | .andi _ a _ | .ori _ a _ | .xori _ a _ | .slti _ a _ | .sltiu _ a _ | .seqi _ a _ => [a]
  | .shli _ a _ | .shri _ a _ | .srai _ a _ => [a]
  | .movk d _ _ => [d]
  | .beq a b _ | .bne a b _ | .blt a b _ | .bge a b _ => [a, b]
  | .jalr _ a => [a]
  | .mbput _ a b => [a, b]
  | .rotwr a => [a]
  | .loop _ src r _ => if src then [] else [r]
  | _ => []

/-- The register that a scalar or control instruction (R75-R96) writes. -/
def scalarWrites : Instr → List Reg
  | .add d _ _ | .sub d _ _ | .and d _ _ | .or d _ _ | .xor d _ _ | .andn d _ _ | .shl d _ _ | .shr d _ _ | .sra d _ _ => [d]
  | .min d _ _ | .max d _ _ | .minu d _ _ | .maxu d _ _ => [d]
  | .clz d _ | .ctz d _ | .popc d _ | .mov d _ => [d]
  | .mul d _ _ | .mulh d _ _ | .mulhu d _ _ | .mulhsu d _ _ | .div d _ _ | .divu d _ _ | .rem d _ _ | .remu d _ _ => [d]
  | .seq d _ _ | .sne d _ _ | .slt d _ _ | .sltu d _ _ | .sle d _ _ | .sleu d _ _ => [d]
  | .addi d _ _ | .andi d _ _ | .ori d _ _ | .xori d _ _ | .slti d _ _ | .sltiu d _ _ | .seqi d _ _ => [d]
  | .shli d _ _ | .shri d _ _ | .srai d _ _ => [d]
  | .movi d _ | .movk d _ _ | .rotrd d | .mbrd d _ | .jal d _ | .jalr d _ => [d]
  | _ => []

/-- No active loop level of the issuing stream ends at the last word of an n-word instruction (R88). -/
def NoLoopEnd (s : State) (n : Nat) : Prop :=
  ∀ l ∈ s.stream.order, (getLoop s.stream l).active = true → (getLoop s.stream l).endA ≠ s.pc + BitVec.ofNat 64 (4 * (n - 1))

/-- x is the state with the instruction's effect, t the state after the n-word instruction has completed without
transferring control: only the issuing stream goes on, with the loop check of R88, the other one may issue again if it was
stalled, and PCNT counts (R216). -/
structure Completed (x t : State) (n : Nat) : Prop where
  model : t = complete x n
  outside : t = { x with thr := t.thr }
  memory : ∀ a, getCell t.mem a = getCell x.mem a
  thread : t.thr = { x.thr with ex := t.thr.ex, ax := t.thr.ax, stallCount := 0, stepping := none, vbase := t.thr.vbase
                                pbase := t.thr.pbase, p := t.thr.p, loopP := t.thr.loopP, sys := { x.thr.sys with pcnt := t.thr.sys.pcnt } }
  other : t.thr.st (otherStream x.cur) = { x.thr.st (otherStream x.cur) with stall := .no }
  issuing : t.stream = { x.stream with pc := t.pc, loops := t.stream.loops, order := t.stream.order, stall := .no }
  straight : NoLoopEnd x n → t.stream = { x.stream with pc := x.pc + BitVec.ofNat 64 (4 * n), stall := .no } ∧ t.thr.vbase = x.thr.vbase
    ∧ t.thr.pbase = x.thr.pbase ∧ t.thr.p = x.thr.p ∧ t.thr.loopP = x.thr.loopP

/-- The same for an instruction that transfers control (R88): no level is decremented, nothing rotates. -/
structure Jumped (x t : State) (target : Word) : Prop where
  model : t = transfer x target
  outside : t = { x with thr := t.thr }
  memory : ∀ a, getCell t.mem a = getCell x.mem a
  thread : t.thr = { x.thr with ex := t.thr.ex, ax := t.thr.ax, stallCount := 0, stepping := none
                                sys := { x.thr.sys with pcnt := t.thr.sys.pcnt } }
  other : t.thr.st (otherStream x.cur) = { x.thr.st (otherStream x.cur) with stall := .no }
  issuing : t.stream = { x.stream with pc := target, stall := .no }

/-- The instruction stalls (R25): nothing of it takes effect and it issues again. -/
structure Stalled (s t : State) (k : Stall) : Prop where
  model : t = stall s k
  outside : t = { s with thr := t.thr }
  memory : ∀ a, getCell t.mem a = getCell s.mem a
  thread : t.thr = { s.thr with ex := t.thr.ex, ax := t.thr.ax }
  other : t.thr.st (otherStream s.cur) = s.thr.st (otherStream s.cur)
  issuing : t.stream = { s.stream with stall := k }

/-- Instruction i answers a next state: the one in which, with effect x, it has completed. -/
def Completes (i : Instr) (s x : State) (n : Nat := 1) : Prop := ∃ t, exec i s = .next t ∧ Completed x t n

/-- Instruction i answers a next state: with effect x, it has gone to the target. -/
def Jumps (i : Instr) (s x : State) (target : Word) : Prop := ∃ t, exec i s = .next t ∧ Jumped x t target

/-- Instruction i answers a next state: it stalls. -/
def Stalls (i : Instr) (s : State) (k : Stall) : Prop := ∃ t, exec i s = .next t ∧ Stalled s t k

/-- Instruction i writes v to register d of its stream and completes: G0 and H0 discard it (R48), every other register of
either file and of either bank keeps its value. -/
structure Wrote (s t : State) (d : Reg) (v : Word) : Prop where
  done : Completed (writeReg s d v) t 1
  value : d ≠ 0 → d.toNat < (match s.cur with | .execute => 32 | .access => 16) → readReg t d = v
  zero : readReg t 0 = 0
  others : ∀ r, r ≠ d → readReg t r = readReg s r
  g : s.cur = .access → t.thr.g = s.thr.g ∧ t.thr.gi = s.thr.gi
  h : s.cur = .execute → t.thr.h = s.thr.h
  memory : ∀ a, getCell t.mem a = getCell s.mem a

def Writes (i : Instr) (s : State) (d : Reg) (v : Word) : Prop := ∃ t, exec i s = .next t ∧ Wrote s t d v

/-- Register d of the issuing stream has taken v and the stream has gone on past a one-word instruction: every other register,
the register files of the engines, the scratchpad, the spill slice and the system registers but PCNT keep their values. -/
structure Gave (s t : State) (d : Reg) (v : Word) : Prop where
  value : d ≠ 0 → (s.cur = .access → d.toNat < 16) → readReg t d = v
  others : ∀ r, r ≠ d → readReg t r = readReg s r
  files : t.thr.v = s.thr.v ∧ t.thr.q = s.thr.q ∧ t.thr.z = s.thr.z ∧ t.thr.acc = s.thr.acc ∧ t.thr.spad = s.thr.spad ∧ t.thr.spill = s.thr.spill
  sys : t.thr.sys = { s.thr.sys with pcnt := t.thr.sys.pcnt }
  next : NoLoopEnd s 1 → t.pc = s.pc + 4

/-- The same, with no byte of memory changed. -/
def Gives (i : Instr) (s : State) (d : Reg) (v : Word) : Prop :=
  ∃ t, exec i s = .next t ∧ Gave s t d v ∧ ∀ a, getCell t.mem a = getCell s.mem a

/-- Where a stream's handler lies above TVEC, and the bit that TCAUSE has for it (R211, R219). -/
def handlerOffset : Stream → Nat
  | .execute => 0
  | .access => 256

/-- What trap entry leaves (R219): the handler's address in the stream that trapped, the other stream stopped, the trap registers, user
state and memory as they were. -/
structure Entered (s t : State) (st : Stream) (cause : Byte) (tpc taddr : Word) : Prop where
  pc : (t.thr.st st).pc = s.thr.sys.tvec + BitVec.ofNat 64 (handlerOffset st)
  stopped : (t.thr.st (otherStream st)).stopped = true ∧ (t.thr.st (otherStream st)).pc = (s.thr.st (otherStream st)).pc
  tcause : t.thr.sys.tcause = BitVec.ofNat 64 (cause.toNat + handlerOffset st)
  tpc : t.thr.sys.tpc = tpc
  txpc : t.thr.sys.txpc = (s.thr.st (otherStream st)).pc
  taddr : t.thr.sys.taddr = taddr
  tstat : t.thr.sys.tstat = { s.thr.sys.tstat with plvl := s.thr.sys.tstat.lvl, lvl := true, rdy := false }
  others : t.thr.sys.tvec = s.thr.sys.tvec ∧ t.thr.sys.tscr = s.thr.sys.tscr ∧ t.thr.sys.crhnd = s.thr.sys.crhnd ∧ t.thr.sys.sigv = s.thr.sys.sigv
    ∧ t.thr.sys.sigs = s.thr.sys.sigs ∧ t.thr.sys.hbase = s.thr.sys.hbase ∧ t.thr.sys.hlimit = s.thr.sys.hlimit ∧ t.thr.sys.hoff = s.thr.sys.hoff
  regs : t.thr.g = s.thr.g ∧ t.thr.gi = s.thr.gi ∧ t.thr.h = s.thr.h ∧ t.thr.p = s.thr.p ∧ t.thr.v = s.thr.v ∧ t.thr.q = s.thr.q ∧ t.thr.z = s.thr.z
    ∧ t.thr.acc = s.thr.acc ∧ t.thr.spad = s.thr.spad ∧ t.thr.spill = s.thr.spill ∧ t.thr.qs = s.thr.qs
  memory : ∀ a, getCell t.mem a = getCell s.mem a

/-- A trap of the thread enters its handler: TVEC is set and the level is user, or the handler has read its cause (R219). -/
def CanEnter (s : State) : Prop := s.thr.sys.tvec ≠ 0 ∧ (s.thr.sys.tstat.lvl = false ∨ s.thr.sys.tstat.rdy = true)

/-- An event that changes nothing but the thread contexts. -/
def OnlyThreads (s t : State) : Prop := t = { s with thr := t.thr, others := t.others }

end Sys2Proof.Machine
end

