-- ==== Sys2Proof/Certificates/Slice0/Obligations.lean ====
section
/-!
DEFINITION. The statements for the provers: what the spec's rules say the instructions, the events and the module do, in
terms of exec and step. Safety.lean gives the words used here: Completes, Writes, Jumps, Stalls.
-/

open Sys2Proof Sys2Proof.Machine

/-! ### Scalar instructions -/

/-- R77: every form of major 0x01 completes with its result in D; only B[5:0] of a shift counts. -/
def Sys2Proof.Claims.ArithmeticAndLogicResults : Prop :=
  ∀ (s : State) (d a b : Reg), Ready s [d, a, b] →
    let x := readReg s a
    let y := readReg s b
    Writes (.add d a b) s d (BitVec.ofNat 64 (x.toNat + y.toNat)) ∧ Writes (.sub d a b) s d (BitVec.ofInt 64 ((x.toNat : Int) - y.toNat))
    ∧ Writes (.and d a b) s d (x &&& y) ∧ Writes (.or d a b) s d (x ||| y) ∧ Writes (.xor d a b) s d (x ^^^ y) ∧ Writes (.andn d a b) s d (x &&& ~~~ y)
    ∧ Writes (.shl d a b) s d (BitVec.ofNat 64 (x.toNat * 2 ^ (y.toNat % 64))) ∧ Writes (.shr d a b) s d (BitVec.ofNat 64 (x.toNat / 2 ^ (y.toNat % 64)))
    ∧ Writes (.sra d a b) s d (BitVec.ofInt 64 (x.toInt / (2 : Int) ^ (y.toNat % 64)))
    ∧ Writes (.min d a b) s d (BitVec.ofInt 64 (min x.toInt y.toInt)) ∧ Writes (.max d a b) s d (BitVec.ofInt 64 (max x.toInt y.toInt))
    ∧ Writes (.minu d a b) s d (BitVec.ofNat 64 (min x.toNat y.toNat)) ∧ Writes (.maxu d a b) s d (BitVec.ofNat 64 (max x.toNat y.toNat))
    ∧ Writes (.mov d a) s d x

/-- R77: clz counts the zero bits above the highest set bit, ctz those below the lowest, 64 for zero, and popc the set bits. -/
def Sys2Proof.Claims.BitCounts : Prop :=
  ∀ (s : State) (d a : Reg), Ready s [d, a] →
    let x := readReg s a
    (∃ n : Nat, Writes (.clz d a) s d (BitVec.ofNat 64 n) ∧ (x = 0 → n = 64) ∧ (x ≠ 0 → n < 64 ∧ x.getLsbD (63 - n) = true ∧ ∀ k, 63 - n < k → x.getLsbD k = false))
    ∧ (∃ n : Nat, Writes (.ctz d a) s d (BitVec.ofNat 64 n) ∧ (x = 0 → n = 64) ∧ (x ≠ 0 → n < 64 ∧ x.getLsbD n = true ∧ ∀ k, k < n → x.getLsbD k = false))
    ∧ Writes (.popc d a) s d (BitVec.ofNat 64 ((List.range 64).filter fun k => x.getLsbD k).length)

/-- R78: products and high halves; quotients truncate toward zero, the remainder takes the sign of the dividend; a zero
divisor writes all ones and raises no trap. -/
def Obligations.MultiplyAndDivideResults : Prop :=
  ∀ (s : State) (d a b : Reg), Ready s [d, a, b] →
    let x := readReg s a
    let y := readReg s b
    Writes (.mul d a b) s d (BitVec.ofNat 64 (x.toNat * y.toNat)) ∧ Writes (.mulh d a b) s d (BitVec.ofInt 64 (x.toInt * y.toInt / 2 ^ 64))
    ∧ Writes (.mulhu d a b) s d (BitVec.ofNat 64 (x.toNat * y.toNat / 2 ^ 64)) ∧ Writes (.mulhsu d a b) s d (BitVec.ofInt 64 (x.toInt * (y.toNat : Int) / 2 ^ 64))
    ∧ Writes (.div d a b) s d (if y = 0 then 0xFFFFFFFFFFFFFFFF#64 else BitVec.ofInt 64 (x.toInt.tdiv y.toInt))
    ∧ Writes (.divu d a b) s d (if y = 0 then 0xFFFFFFFFFFFFFFFF#64 else BitVec.ofNat 64 (x.toNat / y.toNat))
    ∧ Writes (.rem d a b) s d (if y = 0 then 0xFFFFFFFFFFFFFFFF#64 else BitVec.ofInt 64 (x.toInt - y.toInt * x.toInt.tdiv y.toInt))
    ∧ Writes (.remu d a b) s d (if y = 0 then 0xFFFFFFFFFFFFFFFF#64 else BitVec.ofNat 64 (x.toNat - y.toNat * (x.toNat / y.toNat)))

/-- R79: D is 1 when the relation holds and 0 otherwise. -/
def Sys2Proof.Claims.CompareResults : Prop :=
  ∀ (s : State) (d a b : Reg), Ready s [d, a, b] →
    let x := readReg s a
    let y := readReg s b
    Writes (.seq d a b) s d (if x = y then 1 else 0) ∧ Writes (.sne d a b) s d (if x ≠ y then 1 else 0)
    ∧ Writes (.slt d a b) s d (if x.toInt < y.toInt then 1 else 0) ∧ Writes (.sltu d a b) s d (if x.toNat < y.toNat then 1 else 0)
    ∧ Writes (.sle d a b) s d (if x.toInt ≤ y.toInt then 1 else 0) ∧ Writes (.sleu d a b) s d (if x.toNat ≤ y.toNat then 1 else 0)

/-- R80: the immediate forms; movk replaces one 16-bit field of D and keeps its other bits. A shift amount above 63, movi with A not 0 and movk with A above 3
are not instructions. -/
def Obligations.ImmediateResults : Prop :=
  (∀ (s : State) (d a : Reg) (i : BitVec 16) (n : BitVec 6) (h : BitVec 2), Ready s [d, a] →
    let x := readReg s a;
    Writes (.addi d a i) s d (BitVec.ofInt 64 (x.toInt + i.toInt)) ∧ Writes (.andi d a i) s d (x &&& BitVec.ofNat 64 i.toNat)
    ∧ Writes (.ori d a i) s d (x ||| BitVec.ofNat 64 i.toNat) ∧ Writes (.xori d a i) s d (x ^^^ BitVec.ofNat 64 i.toNat)
    ∧ Writes (.shli d a n) s d (BitVec.ofNat 64 (x.toNat * 2 ^ n.toNat)) ∧ Writes (.shri d a n) s d (BitVec.ofNat 64 (x.toNat / 2 ^ n.toNat))
    ∧ Writes (.srai d a n) s d (BitVec.ofInt 64 (x.toInt / (2 : Int) ^ n.toNat))
    ∧ Writes (.slti d a i) s d (if x.toInt < i.toInt then 1 else 0) ∧ Writes (.sltiu d a i) s d (if x.toNat < (BitVec.ofInt 64 i.toInt).toNat then 1 else 0)
    ∧ Writes (.seqi d a i) s d (if x = BitVec.ofInt 64 i.toInt then 1 else 0) ∧ Writes (.movi d i) s d (BitVec.ofInt 64 i.toInt)
    ∧ ∃ v : Word, Writes (.movk d h i) s d v ∧ ∀ k < 64, v.getLsbD k = if k / 16 = h.toNat then i.getLsbD (k % 16) else (readReg s d).getLsbD k)
  ∧ ∀ (st : Stream) (w w1 : Word32) (i : Instr), (w.toNat / 2 ^ 26 ∈ [0x08, 0x09, 0x0A] ∧ w.toNat / 64 % 1024 ≠ 0) ∨ (w.toNat / 2 ^ 26 = 0x0E ∧ w.toNat / 2 ^ 16 % 32 ≠ 0) ∨ (w.toNat / 2 ^ 26 = 0x0F ∧ 4 ≤ w.toNat / 2 ^ 16 % 32) →
      decode st w w1 ≠ .ok i

/-- R76: a scalar or control instruction that reads a register whose result is not yet written waits, and nothing of it takes effect.
It waits for the register that it writes too: that is the model's choice (log 67). -/
def Obligations.ScalarInterlock : Prop :=
  ∀ (s : State) (i : Instr), (Waiting s (scalarReads i) → Stalls i s .other) ∧ (Waiting s (scalarWrites i) → Stalls i s .other)

/-! ### Control -/

/-- A branch that ends in a next state: taken it goes to pc + 4 * sext(OFF16), else on. -/
def Sys2Proof.Machine.Branches (i : Instr) (s x : State) (taken : Prop) (o : BitVec 16) : Prop :=
  (taken → Jumps i s x (BitVec.ofInt 64 ((s.pc.toNat : Int) + 4 * o.toInt))) ∧ (¬ taken → Completes i s x)

/-- R82: the conditional branches change nothing but where their stream goes on. -/
def Sys2Proof.Claims.ConditionalBranches : Prop :=
  ∀ (s : State) (a b : Reg) (o : BitVec 16), Ready s [a, b] →
    let x := readReg s a
    let y := readReg s b
    Branches (.beq a b o) s s (x = y) o ∧ Branches (.bne a b o) s s (x ≠ y) o
    ∧ Branches (.blt a b o) s s (x.toInt < y.toInt) o ∧ Branches (.bge a b o) s s (y.toInt ≤ x.toInt) o

/-- R83, R25: bqt and bqf pop the oldest outcome bit of BQ and branch on it; on an empty BQ they stall. -/
def Sys2Proof.Claims.QueueBranches : Prop :=
  ∀ (s : State) (o : BitVec 16),
    (s.thr.qs.bq = [] → Stalls (.bqt o) s .queue ∧ Stalls (.bqf o) s .queue)
    ∧ ∀ bit rest, s.thr.qs.bq = bit :: rest →
      let x := modThr s fun t => { t with qs := { t.qs with bq := rest, popped := { t.qs.popped with bq := t.qs.popped.bq + 1 } } }
      Branches (.bqt o) s x (bit = true) o ∧ Branches (.bqf o) s x (bit = false) o

/-- R84, R85: jal and jalr write the address of the next instruction to D and go to their target; jalr reads its target before it
writes D. A target that is not a multiple of 4 raises misaligned with TADDR the target, and D is not written. -/
def Sys2Proof.Claims.JumpsAndLinks : Prop :=
  ∀ (s : State) (d a : Reg) (o : BitVec 21),
    (Ready s [d] → Jumps (.jal d o) s (writeReg s d (s.pc + 4)) (BitVec.ofInt 64 ((s.pc.toNat : Int) + 4 * o.toInt)))
    ∧ (Ready s [d, a] → (readReg s a).toNat % 4 = 0 → Jumps (.jalr d a) s (writeReg s d (s.pc + 4)) (readReg s a))
    ∧ (Ready s [d, a] → (readReg s a).toNat % 4 ≠ 0 → exec (.jalr d a) s = .next (raise s s.cur 0x04 s.pc (readReg s a)))

/-- R86, R87: loop reads its source once, a register or mailbox R. With zero trips it goes past the body and leaves every level as it was. Otherwise its level
gets trips plus epilogue as its counter, the next word as its start, pc + 4 * LEN as its end and the epilogue count, and is the innermost; with an
epilogue the execute stream sets the predicate that P8 names and clears those that P9 to P15 name, behind the commands still queued (log 23). -/
def Sys2Proof.Claims.LoopStarts : Prop :=
  ∀ (s : State) (l : BitVec 2) (src : Bool) (r : Reg) (n : BitVec 10), (src = false → Ready s [r]) →
    let v := if src then mailbox s r.toNat else readReg s r
    let trips := v.toNat % 2 ^ 32
    let epi := v.toNat / 2 ^ 32 % 16
    let set := modThr s fun t => t.modSt s.cur fun y =>
      { y with loops := upd y.loops l.toNat { lc := BitVec.ofNat 32 (min (trips + epi) 0xFFFFFFFF), start := s.pc + 4, endA := s.pc + BitVec.ofNat 64 (4 * n.toNat)
                                              epi := BitVec.ofNat 4 epi, active := true }
               order := l.toNat :: y.order.filter (· != l.toNat) }
    (trips = 0 → Jumps (.loop l src r n) s s (s.pc + BitVec.ofNat 64 (4 * (n.toNat + 1))))
    ∧ (trips ≠ 0 → s.cur = .access ∨ epi = 0 → Jumps (.loop l src r n) s set (s.pc + 4))
    ∧ (trips ≠ 0 → s.cur = .execute → epi ≠ 0 → s.thr.vq = [] → ∃ p, Jumps (.loop l src r n) s (modThr set fun t => { t with p := p }) (s.pc + 4)
        ∧ ∀ k, readP (modThr set fun t => { t with p := p }).thr k =
            if 8 ≤ k ∧ k < 16 then (if k = physP s.thr 8 then BitVec.allOnes 8192 else 0) else readP s.thr k)
    ∧ (trips ≠ 0 → s.cur = .execute → epi ≠ 0 → s.thr.vq ≠ [] → Jumps (.loop l src r n) s
        (modThr set fun t => { t with loopP := t.loopP ++ (s.thr.cmdix, physP s.thr 8, true) :: (List.range 7).map fun j => (s.thr.cmdix, physP s.thr (9 + j), false) }) (s.pc + 4))

/-- R88: completing the last word of the innermost active level whose END it is. With trips left the stream goes back to START,
and in the execute stream the rotation bases count down and, with an epilogue, P8 becomes the stage predicate, behind the commands still queued (log 23); else the
level ends and the stream goes on. Stated of mov; every instruction that completes ends with the same check. -/
def Sys2Proof.Claims.LoopBack : Prop :=
  ∀ (s : State) (d a : Reg) (l : Nat) (rest : List Nat), Ready s [d, a] → s.stream.order = l :: rest → l < 4 → l ∉ rest →
    let v := getLoop s.stream l
    v.active = true → v.endA = s.pc →
    ∃ t, exec (.mov d a) s = .next t ∧ readReg t 0 = 0 ∧ (d ≠ 0 → (s.cur = .access → d.toNat < 16) → readReg t d = readReg s a) ∧ (∀ q, q ≠ d → readReg t q = readReg s q) ∧
      (1 < v.lc.toNat → t.pc = v.start ∧ getLoop t.stream l = { v with lc := v.lc - 1 } ∧ t.stream.order = s.stream.order
        ∧ (s.cur = .access → t.thr.vbase = s.thr.vbase ∧ t.thr.pbase = s.thr.pbase ∧ t.thr.p = s.thr.p ∧ t.thr.loopP = s.thr.loopP)
        ∧ (s.cur = .execute → t.thr.pbase = s.thr.pbase - 1
            ∧ t.thr.vbase = (if s.thr.rotN = 0 then 0 else BitVec.ofNat 6 ((s.thr.vbase.toNat + s.thr.rotN - 1) % s.thr.rotN))
            ∧ (v.epi = 0 → t.thr.p = s.thr.p ∧ t.thr.loopP = s.thr.loopP)
            ∧ (v.epi ≠ 0 → s.thr.vq = [] → readP t.thr (physP t.thr 8) = if v.epi.toNat < v.lc.toNat - 1 then BitVec.allOnes 8192 else 0)
            ∧ (v.epi ≠ 0 → s.thr.vq ≠ [] → t.thr.p = s.thr.p ∧ t.thr.loopP = s.thr.loopP ++ [(s.thr.cmdix, physP t.thr 8, decide (v.epi.toNat < v.lc.toNat - 1))])))
      ∧ (v.lc.toNat ≤ 1 → (∀ k ∈ rest, (getLoop s.stream k).active = true → (getLoop s.stream k).endA ≠ s.pc) →
          t.pc = s.pc + 4 ∧ (getLoop t.stream l).active = false ∧ (getLoop t.stream l).lc = 0 ∧ t.thr.vbase = s.thr.vbase ∧ t.thr.pbase = s.thr.pbase ∧ t.thr.p = s.thr.p)

/-- R90, R92: rotrd, rotwr and mbrd; VBASE stays below the .rot count. -/
def Sys2Proof.Claims.RotationAndMailboxReads : Prop :=
  ∀ (s : State) (d a : Reg) (k : BitVec 3),
    (Ready s [d] → Writes (.rotrd d) s d (BitVec.ofNat 64 (s.thr.vbase.toNat + 256 * s.thr.pbase.toNat)) ∧ Writes (.mbrd d k) s d (mailbox s k.toNat)
      ∧ ∀ u, findTeam s s.thr.team = some u → s.thr.sys.tstat.pclass ≠ 2 → Writes (.mbrd d k) s d (nth u.mb k.toNat 0))
    ∧ (Ready s [a] → Completes (.rotwr a) s (modThr s fun t =>
        { t with vbase := if t.rotN = 0 then 0 else BitVec.ofNat 6 ((readReg s a).toNat % 64 % t.rotN), pbase := BitVec.ofNat 3 ((readReg s a).toNat / 256) }))

/-- An instruction that completes changes nothing but its thread, and beside it the teams and tasks, which are those of x. -/
def Sys2Proof.Machine.CompletesWith (i : Instr) (s x : State) (n : Nat := 1) : Prop :=
  ∃ t, exec i s = .next t ∧ t.teams = x.teams ∧ t.tasks = x.tasks ∧ Completed { x with teams := s.teams, tasks := s.tasks } { t with teams := s.teams, tasks := s.tasks, others := x.others } n

/-- R93 to R96: mbput of a P0 or P1 thread. Inside a region that is not promoted, or behind a cro whose pair has not formed, the request is
kept until crc. Outside one it stalls until the stores and the commands before it have been performed; then B goes into mailbox k of team A, of
a team not yet dispatched into its launch value, of an ended or unknown team nowhere (log 24). That mbput itself completes before its effect where it does not stall, and what the effect waits for, is the model's choice (log 24). -/
def Sys2Proof.Claims.MailboxPut : Prop :=
  ∀ (s : State) (k : BitVec 3) (a b : Reg) (j : Task), Ready s [a, b] → s.thr.sys.tstat.pclass ≠ 2 → findTask s s.thr.task = some j →
    let n := (readReg s a).toNat
    let q : HeldReq := .mbput (readReg s a) k.toNat (readReg s b) (s.thr.gate 0)
    let put (x : State) : Prop := CompletesWith (.mbput k a b) s x
    (s.thr.inRegion = true ∨ (∃ m ∈ s.thr.ex.marks, m.kind = .cro) → Completes (.mbput k a b) s (modThr s fun t => { t with held := t.held ++ [q] }))
    ∧ (s.thr.inRegion = false → (∀ m ∈ s.thr.ex.marks, m.kind ≠ .cro) →
        (s.thr.qs.sdq ≠ [] → Stalls (.mbput k a b) s .queue) ∧ (s.thr.qs.sdq = [] → s.thr.vq ≠ [] ∨ s.thr.mq ≠ [] → Stalls (.mbput k a b) s .listed))
    ∧ (s.thr.inRegion = false → (∀ m ∈ s.thr.ex.marks, m.kind ≠ .cro) → s.thr.late = [] → s.thr.qs.sdq = [] → s.thr.vq = [] → s.thr.mq = [] →
        (j.nteams ≤ n ∨ n ∈ j.endedTeams → put s)
        ∧ (n < j.nteams → n ∉ j.endedTeams → (∃ u ∈ s.teams, u.task = s.thr.task ∧ u.ix = n) →
            put { s with teams := s.teams.map fun u => if u.task = s.thr.task ∧ u.ix = n then { u with mb := upd u.mb k.toNat (readReg s b) } else u })
        ∧ (n < j.nteams → n ∉ j.endedTeams → (∀ u ∈ s.teams, ¬ (u.task = s.thr.task ∧ u.ix = n)) →
            put (modTask s s.thr.task fun j => { j with mbs := j.mbs.set n (upd (j.mbs.getD n (Vector.replicate 8 0)) k.toNat (readReg s b)) })))


/-! ### Memory and the access stream -/

/-- Memory bytes that a thread at protection class P0 or P1 reads, with no line of its own in the Wings (R99, R103). -/
def Sys2Proof.Machine.PlainThread (t : Thread) : Prop := t.sys.tstat.pclass ≠ 2 ∧ t.wings = []

/-- A memory write reads back: the bytes written are read where they were written, every other byte is as before, and the
canonical form, the model's own (log 1), is kept. -/
def Obligations.MemoryReadsBack : Prop :=
  ∀ (m : Cells) (a : Nat) (bs : List Byte), Memory.wf m = true →
    Memory.wf (setCells m a bs) = true ∧ getCells (setCells m a bs) a bs.length = bs
    ∧ ∀ b, (b < a ∨ a + bs.length ≤ b) → getCell (setCells m a bs) b = getCell m b

/-- R98, R281, R284: the checks of an access unit of 2^k bytes, in order. The first that fails is the fault; in the heap window the device
address is ea + HOFF mod 2^57 without a TLB lookup; elsewhere the TLB entry must allow the access, and a frame that a commit has still to copy takes no store. -/
def Sys2Proof.Claims.AddressCheckOrder : Prop :=
  ∀ (s : State) (t : Thread) (kd : Kind) (ea : Word) (k : Nat), k ≤ 6 →
    let size := 2 ^ k
    let hb := t.sys.hbase.toNat
    let hl := t.sys.hlimit.toNat
    let dev := (ea.toNat + t.sys.hoff.toNat) % 2 ^ 57
    (ea.toNat % size ≠ 0 → translate s t kd ea size size true = .fault 0x04)
    ∧ (ea.toNat % size = 0 → 2 ^ 57 ≤ ea.toNat → translate s t kd ea size size true = .fault (match kd with | .load => 0x05 | .store => 0x06))
    ∧ (ea.toNat % size = 0 → ea.toNat < 2 ^ 57 → hb < hl → hb ≤ ea.toNat →
        (hl ≤ ea.toNat + size - 1 → translate s t kd ea size size true = .fault 0x07)
        ∧ (ea.toNat + size - 1 < hl → Config.backed dev = true → Config.backed (dev + size - 1) = true →
            translate s t kd ea size size true = .ok dev none))
    ∧ (ea.toNat % size = 0 → ea.toNat < 2 ^ 57 → (hl ≤ hb ∨ ea.toNat < hb) →
        (tlbFind s t.core ea.toNat = none → translate s t kd ea size size true = .miss)
        ∧ ∀ e, tlbFind s t.core ea.toNat = some e →
          (leafAllows e.pte.toNat kd = false → translate s t kd ea size size true = .fault (match kd with | .load => 0x05 | .store => 0x06))
          ∧ (leafAllows e.pte.toNat kd = true → kd = .store → writeProtected s (leafPA e.pte.toNat e.size ea.toNat) = true → translate s t kd ea size size true = .fault 0x06)
          ∧ (leafAllows e.pte.toNat kd = true → (kd = .store → writeProtected s (leafPA e.pte.toNat e.size ea.toNat) = false) →
              Config.backed (leafPA e.pte.toNat e.size ea.toNat) = true → Config.backed (leafPA e.pte.toNat e.size ea.toNat + size - 1) = true →
              translate s t kd ea size size true = .ok (leafPA e.pte.toNat e.size ea.toNat) (some (e.pteAddr + if e.size = 65536 then 8 * (ea.toNat % 65536 / 4096) else 0))))

/-- R100, R101, R14, R282: a load whose address passes its checks completes, and is in flight to its H register; while 768 requests of its core are outstanding it waits. What counts as an outstanding request is the model's choice (log 52). -/
def Sys2Proof.Claims.LoadsGoInFlight : Prop :=
  ∀ (s : State) (d b : Reg) (o : BitVec 12), ∀ f ∈ [(Instr.ldb d b o, 1, true), (.ldbu d b o, 1, false), (.ldh d b o, 2, true), (.ldhu d b o, 2, false),
      (.ldw d b o, 4, true), (.ldwu d b o, 4, false), (.ldd d b o, 8, false)],
    Ready s [d, b] → held s = false → ∀ pa pte,
    let ea := BitVec.ofNat 64 ((readReg s b).toNat + o.toNat * f.2.1)
    translate s s.thr .load ea f.2.1 f.2.1 true = .ok pa pte → poisonFor s s.thr pa f.2.1 = false →
    (768 ≤ outstanding s s.thr.core → Stalls f.1 s .other)
    ∧ (outstanding s s.thr.core < 768 → Completes f.1 s (modThr s fun t => { t with qs := { t.qs with
        loads := t.qs.loads ++ [{ dst := .hreg d, ea := ea, pa := pa, size := f.2.1, signed := f.2.2, marks := axMarks t, pc := s.pc }] } }))

/-- R100, R101, R25: an lq takes its queue entry when it issues, unfilled; on a full queue of 64 entries it stalls, and while 768 requests of its core are outstanding it waits. What counts as an outstanding request is the model's choice (log 52). -/
def Sys2Proof.Claims.QueueLoadsGoInFlight : Prop :=
  ∀ (s : State) (q : BitVec 2) (b : Reg) (o : BitVec 12), ∀ f ∈ [(Instr.lqb q b o, 1, true), (.lqbu q b o, 1, false), (.lqh q b o, 2, true), (.lqhu q b o, 2, false),
      (.lqw q b o, 4, true), (.lqwu q b o, 4, false), (.lqd q b o, 8, false)],
    Ready s [b] → held s = false → ∀ pa pte,
    let ea := BitVec.ofNat 64 ((readReg s b).toNat + o.toNat * f.2.1)
    (64 ≤ (nth s.thr.qs.ldq q.toNat []).length → Stalls f.1 s .queue)
    ∧ ((nth s.thr.qs.ldq q.toNat []).length < 64 → translate s s.thr .load ea f.2.1 f.2.1 true = .ok pa pte → poisonFor s s.thr pa f.2.1 = false →
      (768 ≤ outstanding s s.thr.core → Stalls f.1 s .other)
      ∧ (outstanding s s.thr.core < 768 → Completes f.1 s (modThr s fun t => { t with qs := { t.qs with
          loads := t.qs.loads ++ [{ dst := .ldq q.toNat, ea := ea, pa := pa, size := f.2.1, signed := f.2.2, marks := axMarks t, pc := s.pc }]
          ldq := upd t.qs.ldq q.toNat (nth t.qs.ldq q.toNat [] ++ [none])
          pushed := { t.qs.pushed with ldq := upd t.qs.pushed.ldq q.toNat (nth t.qs.pushed.ldq q.toNat 0 + 1) } } })))

/-- R98, R282, R284: what the address check of a load or of a store address does when it does not pass. Misaligned and heap window limit are raised with
TADDR the address; a page fault waits for the firmware and a TLB miss for the walk, one of the 768 requests of its core (R14, log 52), and the
instruction issues again. -/
def Sys2Proof.Claims.AccessFaults : Prop :=
  ∀ (s : State) (q : BitVec 2) (d b : Reg) (o : BitVec 12),
    let at_ (n : Nat) : Word := BitVec.ofNat 64 ((readReg s b).toNat + o.toNat * n)
    let fails (i : Instr) (kd : Kind) (n : Nat) : Prop :=
      let f : PageFault := { stream := s.cur, cause := kd.cause, ea := at_ n, store := decide (kd = .store) }
      (∀ c, c = 0x04 ∨ c = 0x07 → translate s s.thr kd (at_ n) n n true = .fault c → exec i s = .next (raise s s.cur c s.pc (at_ n)))
      ∧ (translate s s.thr kd (at_ n) n n true = .fault kd.cause → exec i s = .next (stall (modThr s fun t => { t with pf := t.pf ++ [f] }) .other))
      ∧ (translate s s.thr kd (at_ n) n n true = .miss → outstanding s s.thr.core < 768 → exec i s = .next (stall (modThr s fun t => bump { t with walk := t.walk ++ [f] } 0x0A 1) .other))
      ∧ (translate s s.thr kd (at_ n) n n true = .miss → 768 ≤ outstanding s s.thr.core → Stalls i s .other)
    (Ready s [d, b] → held s = false → ∀ f ∈ [(Instr.ldb d b o, 1), (.ldbu d b o, 1), (.ldh d b o, 2), (.ldhu d b o, 2), (.ldw d b o, 4), (.ldwu d b o, 4), (.ldd d b o, 8)], fails f.1 .load f.2)
    ∧ (Ready s [b] → held s = false → (nth s.thr.qs.ldq q.toNat []).length < 64 →
        ∀ f ∈ [(Instr.lqb q b o, 1), (.lqbu q b o, 1), (.lqh q b o, 2), (.lqhu q b o, 2), (.lqw q b o, 4), (.lqwu q b o, 4), (.lqd q b o, 8)], fails f.1 .load f.2)
    ∧ (Ready s [b] → s.thr.qs.saq.length < 64 → ∀ f ∈ [(Instr.sab b o, 1), (.sah b o, 2), (.saw b o, 4), (.sad b o, 8)], fails f.1 .store f.2)

/-- R100, R101: the oldest load in flight of a P0 or P1 thread without lines in the Wings is performed: it reads its bytes little-endian, extends them as its form says, and
writes its H register or fills the first unfilled entry of its queue. Nothing else of its registers changes, and no memory does. -/
def Sys2Proof.Claims.LoadReturns : Prop :=
  ∀ (s x : State) (tid : Nat) (q : LoadReq) (rest : List LoadReq), focus s tid = some x → x.thr.live = true → x.thr.resident = true → PlainThread x.thr →
    x.thr.qs.loads = q :: rest → q.atom = none → 0 < q.size → q.size ≤ 8 → poisonedIn x q.pa q.size = false →
    let n := getLe x.mem q.pa q.size
    let v : Word := if q.signed then (BitVec.ofNat (8 * q.size) n).signExtend 64 else BitVec.ofNat 64 n
    ∃ t, exec (.loadReturn tid) s = .next t ∧ t = { x with thr := t.thr } ∧ t.thr.qs.loads = rest ∧ t.thr.g = x.thr.g ∧ t.thr.ex = { x.thr.ex with stall := .no }
      ∧ t.thr.ax = { x.thr.ax with stall := .no, marks := t.thr.ax.marks }
      ∧ (∀ d, q.dst = .hreg d → t.thr.qs.ldq = x.thr.qs.ldq ∧ (d ≠ 0 → d.toNat < 16 → readH t.thr d.toNat = v) ∧ ∀ r, r ≠ d.toNat → readH t.thr r = readH x.thr r)
      ∧ (∀ k, q.dst = .ldq k → k < 4 → t.thr.h = x.thr.h ∧ t.thr.ax.marks = x.thr.ax.marks ∧ nth t.thr.qs.ldq k [] = fillFirst (nth x.thr.qs.ldq k []) v
          ∧ ∀ j, j ≠ k → nth t.thr.qs.ldq j [] = nth x.thr.qs.ldq j [])
      ∧ ∀ a, getCell t.mem a = getCell x.mem a

/-- R102: a store address whose checks pass goes to SAQ, and the leaf that translated it becomes dirty (R285); a full SAQ stalls. No
byte outside that leaf entry changes. -/
def Sys2Proof.Claims.StoreAddresses : Prop :=
  ∀ (s : State) (b : Reg) (o : BitVec 12), ∀ f ∈ [(Instr.sab b o, 1), (.sah b o, 2), (.saw b o, 4), (.sad b o, 8)], Ready s [b] →
    let ea := BitVec.ofNat 64 ((readReg s b).toNat + o.toNat * f.2)
    (64 ≤ s.thr.qs.saq.length → Stalls f.1 s .queue)
    ∧ ∀ pa pte, s.thr.qs.saq.length < 64 → translate s s.thr .store ea f.2 f.2 true = .ok pa pte →
      Completes f.1 s (modThr (setDirty s pte) fun t => { t with qs := { t.qs with
        saq := t.qs.saq ++ [{ ea := ea, pa := pa, size := f.2, marks := axMarks t, sup := t.sys.tstat.lvl }], saqTot := t.qs.saqTot + 1 } })
      ∧ (pte = none → setDirty s pte = s)
      ∧ ∀ e, pte = some e → Memory.wf s.mem = true → (getLe (setDirty s pte).mem e 8).testBit 6 = true
        ∧ ∀ a, (a < e ∨ e + 8 ≤ a) → getCell (setDirty s pte).mem a = getCell s.mem a

/-- R102, R104, R25: sdq, xqput and bqput push, qpop and xqget pop the oldest entry; each stalls on a full or an empty queue, and
a qpop also while the head is unfilled (R101). -/
def Sys2Proof.Claims.QueueTransfers : Prop :=
  ∀ (s : State) (d a : Reg) (n : BitVec 2),
    (Ready s [a] →
      (64 ≤ s.thr.qs.sdq.length → Stalls (.sdq a) s .queue)
      ∧ (s.thr.qs.sdq.length < 64 → Completes (.sdq a) s (modThr s fun t => { t with qs := { t.qs with sdq := t.qs.sdq ++ [readReg s a], sdqTot := t.qs.sdqTot + 1 } }))
      ∧ (16 ≤ s.thr.qs.xq.length → Stalls (.xqput a) s .queue)
      ∧ (s.thr.qs.xq.length < 16 → Completes (.xqput a) s (modThr s fun t => { t with qs := { t.qs with
          xq := t.qs.xq ++ [readReg s a], pushed := { t.qs.pushed with xq := t.qs.pushed.xq + 1 } } }))
      ∧ (64 ≤ s.thr.qs.bq.length → Stalls (.bqput a) s .queue)
      ∧ (s.thr.qs.bq.length < 64 → Completes (.bqput a) s (modThr s fun t => { t with qs := { t.qs with
          bq := t.qs.bq ++ [decide (readReg s a ≠ 0)], pushed := { t.qs.pushed with bq := t.qs.pushed.bq + 1 } } })))
    ∧ (Ready s [d] →
      (s.thr.qs.xq = [] → Stalls (.xqget d) s .queue)
      ∧ (∀ v rest, s.thr.qs.xq = v :: rest → Completes (.xqget d) s (writeReg (modThr s fun t => { t with qs := { t.qs with
          xq := rest, popped := { t.qs.popped with xq := t.qs.popped.xq + 1 } } }) d v))
      ∧ (nth s.thr.qs.ldq n.toNat [] = [] → Stalls (.qpop d n) s .queue)
      ∧ (∀ rest, nth s.thr.qs.ldq n.toNat [] = none :: rest → Stalls (.qpop d n) s .queue)
      ∧ ∀ v rest, nth s.thr.qs.ldq n.toNat [] = some v :: rest → Completes (.qpop d n) s (writeReg (modThr s fun t => { t with qs := { t.qs with
          ldq := upd t.qs.ldq n.toNat rest
          popped := { t.qs.popped with ldq := upd t.qs.popped.ldq n.toNat (nth t.qs.popped.ldq n.toNat 0 + 1) } } }) d v))

/-- R103, R215, R225: the store of the oldest pair of a P0 or P1 thread is performed: it writes the low bytes of the SDQ entry to memory at
the address of the SAQ entry and nowhere else, or, as a store of an open region, to the Wings, and no memory changes. SIGS adds the store's CRC. -/
def Sys2Proof.Claims.StorePairs : Prop :=
  ∀ (s x : State) (tid : Nat) (a : SaqEntry) (v : Word) (saq : List SaqEntry) (sdq : List Word),
    focus s tid = some x → x.thr.live = true → x.thr.resident = true → x.thr.sys.tstat.pclass ≠ 2 → Memory.wf x.mem = true →
    x.thr.qs.saq = a :: saq → x.thr.qs.sdq = v :: sdq → 0 < a.size → a.size ≤ 8 →
    a.marks ≤ x.thr.qs.pairsFormed → earlierPending x.thr a.marks = false → behindCrc x.thr a.marks = false → commitHolds x a.pa a.size = false → x.thr.forced = false →
    let bs := leBytes a.size v.toNat
    let sig := crc64 0 (leBytes 8 a.ea.toNat ++ [BitVec.ofNat 8 a.size] ++ bs)
    let inside := regionStore x.thr a.marks a.sup && x.thr.inRegion
    ((inside = false → ∃ t, exec (.storePairing tid) s = .next t ∧ t.thr.qs = { x.thr.qs with saq := saq, sdq := sdq, paired := x.thr.qs.paired + 1 }
        ∧ getCells t.mem a.pa a.size = bs ∧ (∀ b, (b < a.pa ∨ a.pa + a.size ≤ b) → getCell t.mem b = getCell x.mem b)
        ∧ t.thr.sys.sigs = x.thr.sys.sigs + sig
        ∧ t.thr.g = x.thr.g ∧ t.thr.h = x.thr.h ∧ t.thr.ex = { x.thr.ex with stall := .no } ∧ t.thr.ax = { x.thr.ax with stall := .no } ∧ t.thr.wings = x.thr.wings)
    ∧ (inside = true → ∀ w, intoWings x x.thr a.pa bs false sig false (some x.thr.qs.paired) a.marks (viaTable x.thr a.ea) = some w →
        ∃ t, exec (.storePairing tid) s = .next t ∧ t.thr.qs = { x.thr.qs with saq := saq, sdq := sdq, paired := x.thr.qs.paired + 1 }
        ∧ t.thr.wings = w.wings ∧ (∀ b, getCell t.mem b = getCell x.mem b)
        ∧ t.thr.sys.sigs = x.thr.sys.sigs + sig))

/-- R106, R107: the first mark of a pair waits, unpaired, at most 8 in a stream; the second pairs with the oldest of the other
stream when the counts before them agree, and raises queue protocol error when they differ. Which marks a waiting engine command or store stands behind is the model's choice (log 47). -/
def Sys2Proof.Claims.Marks : Prop :=
  ∀ (s : State),
    let mine := (s.thr.st s.cur).marks
    let others := (s.thr.st (otherStream s.cur)).marks
    let count := match s.cur with | .access => s.thr.qs.saqTot | .execute => s.thr.qs.sdqTot
    let issued : Nat := match s.cur with | .access => 0 | .execute => 1
    (others = [] → 8 ≤ mine.length → Stalls .mark s .queue)
    ∧ (others = [] → mine.length < 8 → ∃ m, m.kind = .mark ∧ m.total = count ∧ m.pc = s.pc ∧ m.cmdix = s.thr.cmdix
        ∧ Completes .mark s (modThr s fun t => { t.modSt s.cur fun y => { y with marks := y.marks ++ [m] } with qs := { t.qs with execMarks := t.qs.execMarks + issued } }))
    ∧ ∀ o rest, others = o :: rest → o.kind = .mark →
      (o.total = count → s.thr.trap = none → s.thr.dueEx = none → ∃ t, exec .mark s = .next t ∧ (t.thr.st (otherStream s.cur)).marks = rest ∧ t.stream.marks = mine
        ∧ t.thr.qs.pairsFormed = s.thr.qs.pairsFormed + 1 ∧ (NoLoopEnd s 1 → t.pc = s.pc + 4) ∧ t.thr.g = s.thr.g ∧ t.thr.h = s.thr.h ∧ t.mem = s.mem)
      ∧ (o.total ≠ count → exec .mark s = .next (raise s s.cur 0x10 s.pc 0))

/-- R108-R111, R118, R109: a tile transfer, gather or scatter. A check that fails is raised, a reserved descriptor bit as scratchpad range fault with TADDR the descriptor; one of size zero
completes with nothing moved, and an earlier one of the same address that stopped at a fault is gone. One whose checks pass waits while its banks are locked or others wait there before it (log 9), one issued again after a fault for locks only, and a tst or sct behind a crc that has not completed;
else, when every unit translates, it completes and is in flight with its units in loop order. What a lock covers and the order of those that wait is the model's choice (log 9). -/
def Sys2Proof.Claims.TransfersStart : Prop :=
  ∀ (s : State) (d a b : Reg), ∀ f ∈ [(Instr.tld d a b, XferKind.tld), (.tst d a b, .tst), (.gth d a b, .gth), (.sct d a b, .sct)],
    Ready s [d, a, b] → held s = false →
    let x : Xfer := { kind := f.2, spa := readReg s d, mem := readReg s a, desc := readReg s b, pc := s.pc, faulted := false, marks := axMarks s.thr, sup := s.thr.sys.tstat.lvl }
    let y := modThr s fun t => { t with qs := { t.qs with xfers := t.qs.xfers.filter fun z => !(z.faulted && z.pc == s.pc) } }
    let tile := f.2 = .tld ∨ f.2 = .tst
    let store := f.2 = .tst ∨ f.2 = .sct
    let td := (readReg s b).toNat
    let busy (e : Extent) : Bool := if reissued s.thr s.pc then lockedBy y y.thr x.sup e else xferBusy y y.thr e
    ((∀ c ta, checkXfer s x = .bad c ta → exec f.1 s = .next (raise s s.cur c s.pc ta))
    ∧ (tile → td / 2 ^ 40 ≠ 0 → checkXfer s x = .bad 0x09 (readReg s b)) ∧ (¬ tile → td / 2 ^ 37 ≠ 0 ∨ td / 2 ^ 13 % 8 ≠ 0 ∨ 4096 < td % 2 ^ 13 → checkXfer s x = .bad 0x09 (readReg s b))
    ∧ (tile → td / 2 ^ 40 = 0 → td % 256 = 0 ∨ td / 256 % 4096 = 0 → Completes f.1 s (modThr y fun t => { t with lockWait := none }))
    ∧ (¬ tile → td / 2 ^ 37 = 0 → td % 2 ^ 16 = 0 → Completes f.1 s (modThr y fun t => { t with lockWait := none }))
    ∧ (checkXfer s x = .go → store → behindCrc s.thr x.marks = true → Stalls f.1 s .other)
    ∧ (checkXfer s x = .go → (store → behindCrc s.thr x.marks = false) → (∃ e ∈ xferExtents y y.thr x, busy e = true) →
        ∃ t, exec f.1 s = .next t ∧ t.thr.lockWait = some (xferPlace s, x) ∧ t.stream = { s.stream with stall := .other } ∧ t.thr.qs = s.thr.qs ∧ t.thr.g = s.thr.g ∧ t.thr.h = s.thr.h ∧ t.mem = s.mem)
    ∧ (∀ us : List XferUnit, checkXfer s x = .go → (store → behindCrc s.thr x.marks = false) → (∀ e ∈ xferExtents y y.thr x, busy e = false) →
        us.map (fun u => (u.ea, u.off, u.size)) = xferUnits y y.thr x → (∀ u ∈ us, translate y y.thr (if store then .store else .load) u.ea u.size u.size true = .ok u.pa u.pte) →
        (f.2 = .gth → ∀ u ∈ us, poisonFor y y.thr u.pa u.size = false) →
        Completes f.1 s (modThr y fun t => { t with lockWait := none, qs := { t.qs with xfers := t.qs.xfers ++ [{ x with units := us }] } })))

/-- R109-R111: the oldest transfer in flight of a P0 or P1 thread, when the oracle lists no other choice (log 2; among transfers it is the
model's choice, log 10), moves the units that are left, in loop order, and releases its banks: a tld or gth writes the bytes of memory to the
scratchpad and changes no memory, a tst or sct writes the bytes of the scratchpad to its units of memory, dirties their leaves and changes no other byte. Whatever the oracle chooses, transfers into the
scratchpad change no memory. Which units a transfer that faults has moved is the model's choice (log 10). -/
def Sys2Proof.Claims.TransfersComplete : Prop :=
  ∀ (s x : State) (tid : Nat), focus s tid = some x → x.thr.live = true → x.thr.resident = true → x.thr.sys.tstat.pclass ≠ 2 → x.thr.forced = false →
    ((∀ y ∈ x.thr.qs.xfers, y.kind = .tld ∨ (y.kind = .gth ∧ ∀ u ∈ y.units, poisonFor x x.thr u.pa u.size = false)) → ∃ t, exec (.tileTransferCompletion tid) s = .next t ∧ t.mem = x.mem ∧ t.thr.g = x.thr.g ∧ t.thr.h = x.thr.h)
    ∧ ∀ (k : Nat) (f : Xfer) (w : Thread), x.picks = [] → x.thr.qs.xfers.findIdx? (fun y => !y.faulted) = some k → x.thr.qs.xfers[k]? = some f → spaTarget x x.thr f.spa = some w → w.tid = x.thr.tid →
      (f.kind = .tld ∨ f.kind = .gth → PlainThread x.thr → (∀ u ∈ f.units, poisonedIn x u.pa u.size = false) →
        ∃ t, exec (.tileTransferCompletion tid) s = .next t ∧ t.thr.qs.xfers = x.thr.qs.xfers.eraseIdx k ∧ t.mem = x.mem
          ∧ t.thr.spad = f.units.foldl (fun m u => setCells m u.off (getCells x.mem u.pa u.size)) x.thr.spad ∧ t.thr.g = x.thr.g ∧ t.thr.h = x.thr.h ∧ t.thr.v = x.thr.v)
      ∧ (f.kind = .tst ∨ f.kind = .sct → regionStore x.thr f.marks f.sup = false → Memory.wf x.mem = true → (∀ u ∈ f.units, commitHolds x u.pa u.size = false) →
        ∃ t, exec (.tileTransferCompletion tid) s = .next t ∧ t.thr.qs.xfers = x.thr.qs.xfers.eraseIdx k ∧ t.thr.spad = x.thr.spad ∧ t.thr.g = x.thr.g ∧ t.thr.h = x.thr.h ∧ t.thr.v = x.thr.v
          ∧ (∀ q, (∀ u ∈ f.units, (q < u.pa ∨ u.pa + u.size ≤ q) ∧ ∀ e, u.pte = some e → q < e ∨ e + 8 ≤ q) → getCell t.mem q = getCell x.mem q)
          ∧ ((∀ u ∈ f.units, ∀ u' ∈ f.units, (u = u' ∨ u.pa + u.size ≤ u'.pa ∨ u'.pa + u'.size ≤ u.pa) ∧ ∀ e, u'.pte = some e → e + 8 ≤ u.pa ∨ u.pa + u.size ≤ e) →
              ∀ u ∈ f.units, getCells t.mem u.pa u.size = getCells x.thr.spad u.off u.size))

/-- R112: spst writes the eight bytes of its register at its offset of the spill slice and spld reads them back; no memory changes. -/
def Sys2Proof.Claims.Spill : Prop :=
  ∀ (s : State) (d : Reg) (o : BitVec 9), Ready s [d] → (s.cur = .access → held s = false) → (s.cur = .execute → s.thr.ex.marks = []) →
    Writes (.spld d o) s d (BitVec.ofNat 64 (getLe s.thr.spill (8 * o.toNat) 8))
    ∧ Completes (.spst d o) s (modThr s fun t => { t with spill := setCells t.spill (8 * o.toNat) (leBytes 8 (readReg s d).toNat) })
    ∧ (Memory.wf s.thr.spill = true → getLe (setCells s.thr.spill (8 * o.toNat) (leBytes 8 (readReg s d).toNat)) (8 * o.toNat) 8 = (readReg s d).toNat)

/-- The value that an atomic writes, from the old value, B and the compare value, all of n bits (R113). -/
def Sys2Proof.Machine.AtomicValue (op : AtomOp) (n old b cmp : Nat) : Option Nat :=
  let sx (v : Nat) : Int := (BitVec.ofNat n v).toInt
  match op with
  | .madd => some ((old + b) % 2 ^ n)
  | .mmin => some (if sx old ≤ sx b then old else b)
  | .mmax => some (if sx b ≤ sx old then old else b)
  | .mand => some (old &&& b)
  | .mor => some (old ||| b)
  | .mxor => some (old ^^^ b)
  | .mswp => some b
  | .mcas => if old = cmp then some b else none

/-- R105, R113, R114: an atomic of a P0 or P1 thread outside a region completes when its address passes its checks, and is in flight with its operands; when it returns, in one step D gets the old value, memory at the address the new value, and no other
byte outside the leaf entry that translated it changes; an amcas that fails writes nothing. When an atomic is performed within its stream is the model's choice (log 7). -/
def Obligations.Atomics : Prop :=
  (∀ (s : State) (d a b : Reg) (c : Scope) (z : Bool), ∀ f ∈ [(Instr.amadd d a b c z, AtomOp.madd), (.ammin d a b c z, .mmin), (.ammax d a b c z, .mmax), (.amand d a b c z, .mand),
      (.amor d a b c z, .mor), (.amxor d a b c z, .mxor), (.amswp d a b c z, .mswp), (.amcas d a b c z, .mcas)],
    s.cur = .access → Ready s [d, a, b] → held s = false → s.thr.sys.tstat.pclass ≠ 2 → s.thr.inRegion = false →
    let n := if z then 64 else 32;
    let ea := readReg s a;
    ∀ pa pte, translate s s.thr .store ea (n / 8) (n / 8) true = .ok pa pte → poisonedIn s pa (n / 8) = false → outstanding s s.thr.core < 768 →
    let q : LoadReq := { dst := .hreg d, ea := ea, pa := pa, size := n / 8, signed := false, marks := axMarks s.thr, pc := s.pc
                         atom := some { op := f.2, n := n, b := (readReg s b).toNat % 2 ^ n, cmp := (readReg s d).toNat % 2 ^ n, scope := c, pte := pte, res := none } }
    ∃ t, exec f.1 s = .next t ∧ t = { s with thr := t.thr } ∧ t.thr.qs = { s.thr.qs with loads := s.thr.qs.loads ++ [q] } ∧ t.thr.g = s.thr.g ∧ t.thr.h = s.thr.h
      ∧ t.thr.ex = { s.thr.ex with stall := .no } ∧ (NoLoopEnd s 1 → t.pc = s.pc + 4))
  ∧ ∀ (s x : State) (tid : Nat) (q : LoadReq) (rest : List LoadReq) (m : AtomReq) (d : Reg), focus s tid = some x → x.thr.live = true → x.thr.resident = true → x.thr.sys.tstat.pclass ≠ 2 →
      x.thr.qs.loads = q :: rest → q.atom = some m → m.res = none → q.dst = .hreg d → poisonedIn x q.pa (m.n / 8) = false → commitHolds x q.pa q.size = false → Memory.wf x.mem = true → m.n = 32 ∨ m.n = 64 →
      (∀ e, m.pte = some e → e + 8 ≤ q.pa ∨ q.pa + m.n / 8 ≤ e) →
      let old := getLe x.mem q.pa (m.n / 8)
      let new := AtomicValue m.op m.n old m.b m.cmp
      ∃ t, exec (.loadReturn tid) s = .next t ∧ t.thr.qs.loads = rest ∧ t.thr.g = x.thr.g ∧ (d ≠ 0 → d.toNat < 16 → readH t.thr d.toNat = BitVec.ofNat 64 old) ∧ (∀ r, r ≠ d.toNat → readH t.thr r = readH x.thr r)
        ∧ (∀ v, new = some v → v < 2 ^ m.n → getLe t.mem q.pa (m.n / 8) = v ∧ ∀ k, (k < q.pa ∨ q.pa + m.n / 8 ≤ k) → (∀ e, m.pte = some e → k < e ∨ e + 8 ≤ k) → getCell t.mem k = getCell x.mem k)
        ∧ (new = none → ∀ k, getCell t.mem k = getCell x.mem k)

/-- R116, R117, R295, R302, R403: rel, acq and fence complete once what they wait for is done, and change nothing at THR to SYS scope; a release that waits
for a store's other half counts as a queue stall. At RCV scope a release or fence makes the thread's writes durable and, with a checkpoint domain, adds one journal entry. -/
def Obligations.ReleaseAcquireFence : Prop :=
  ∀ (s : State) (c : Scope), s.thr.inRegion = false → heldStores s.thr = false →
    (s.cur = .access →
      (s.thr.qs.saq ≠ [] → Stalls (.rel c) s .queue ∧ Stalls (.fence c) s .queue)
      ∧ (s.thr.qs.saq = [] → s.thr.qs.loads ≠ [] ∨ (∃ y ∈ s.thr.qs.xfers, y.faulted = false) → Stalls (.rel c) s .other ∧ Stalls (.fence c) s .other)
      ∧ (s.thr.qs.saq = [] → s.thr.qs.loads = [] → (∀ y ∈ s.thr.qs.xfers, y.faulted = true) →
          Completes (.rel c) s (releaseEntry s c) ∧ Completes (.fence c) s (releaseEntry s c))
      ∧ (s.thr.qs.loads = [] → (∀ y ∈ s.thr.qs.xfers, y.faulted = true ∨ y.kind = .tst ∨ y.kind = .sct) → Completes (.acq c) s s)
      ∧ (s.thr.qs.loads ≠ [] ∨ (∃ y ∈ s.thr.qs.xfers, y.faulted = false ∧ (y.kind = .tld ∨ y.kind = .gth)) → Stalls (.acq c) s .other))
    ∧ (s.cur = .execute →
      (s.thr.qs.sdq ≠ [] → Stalls (.rel c) s .queue ∧ Stalls (.fence c) s .queue)
      ∧ (s.thr.qs.sdq = [] → c ≠ .thr → s.thr.vq ≠ [] ∨ s.thr.mq ≠ [] → Stalls (.rel c) s .listed ∧ Stalls (.fence c) s .listed)
      ∧ (s.thr.qs.sdq = [] → (c = .thr ∨ (s.thr.vq = [] ∧ s.thr.mq = [])) → Completes (.rel c) s (releaseEntry s c) ∧ Completes (.fence c) s (releaseEntry s c))
      ∧ Completes (.acq c) s s)
    ∧ (c ≠ .rcv → releaseEntry s c = s) ∧ (releaseEntry s c).mem = s.mem ∧ (releaseEntry s c).thr = s.thr
    ∧ (∀ d, c = .rcv → (s.part s.thr.part).domain = some d → s.thr.part < 8 → ∃ d' e, ((releaseEntry s c).part s.thr.part).domain = some d' ∧ d'.jseq = d.jseq + 1
        ∧ d'.journal.getLast? = some e ∧ e.type = 1 ∧ e.jseq = d.jseq ∧ e.time = s.mod.time ∧ ∀ w ∈ d'.loose, w.owner ≠ some s.thr.tid)


/-! ### Engine commands, semaphores, interrupts, ensembles -/

/-- R181-R184, R205: push of a COPY record without completion actions, by a P0 or P1 thread. A full queue answers 1 and changes nothing else; else D is 0 and
the record stands last in its queue, to be taken when what its release covers is visible; inside a region that is not promoted, or behind a cro whose pair has not formed, it holds its
place and leaves at crc (log 25). -/
def Sys2Proof.Claims.PushEnqueues : Prop :=
  ∀ (s : State) (d a : Reg) (e : BitVec 6), s.cur = .execute → Ready s (d :: (List.range 8).map fun k => a + BitVec.ofNat 5 k) →
    let w := (List.range 8).map fun k => readG s.thr (a.toNat + k)
    w.getD 0 0 = 1 → (w.getD 3 0).toNat < 2 ^ 48 → w.getD 4 0 = 0 → w.getD 5 0 = 0 → w.getD 6 0 = 0 → w.getD 7 0 = 0 → e.toNat < 40 → s.thr.sys.tstat.pclass ≠ 2 →
    let used := (s.eng.filter fun r => r.part = s.thr.part ∧ r.eng = e.toNat).length
    let room := if e.toNat = 0 then 64 else 16
    (room ≤ used → Gives (.push d a e) s d 1)
    ∧ (used < room → ∃ t r, exec (.push d a e) s = .next t ∧ Gave s t d 0 ∧ (∀ q, getCell t.mem q = getCell s.mem q) ∧ t.eng = s.eng ++ [r]
        ∧ r.words = w ∧ r.part = s.thr.part ∧ r.eng = e.toNat ∧ r.tid = s.thr.tid ∧ r.gate = some (s.thr.gate s.thr.qs.execMarks) ∧ (∀ x ∈ s.eng, x.part = s.thr.part → x.eng = e.toNat → x.seq < r.seq)
        ∧ (s.thr.inRegion = false → (∀ m ∈ s.thr.ex.marks, m.kind ≠ .cro) → r.status = .queued ∧ t.thr.held = s.thr.held)
        ∧ (s.thr.inRegion = true ∨ (∃ m ∈ s.thr.ex.marks, m.kind = .cro) → s.nextId < 2 ^ 63 → r.status = .held ∧ t.thr.held = s.thr.held ++ [.push r.id]))

/-- R181: a record that breaks a rule raises malformed engine command with TADDR the number of its first register that does. -/
def Sys2Proof.Claims.PushRejects : Prop :=
  ∀ (s : State) (d a : Reg) (e : BitVec 6) (k : Nat), s.cur = .execute → Ready s (d :: (List.range 8).map fun k => a + BitVec.ofNat 5 k) →
    recFirstBad ((List.range 8).map fun k => readG s.thr (a.toNat + k)) e.toNat = some k → CanEnter s → s.thr.trap = none →
    ∃ t, exec (.push d a e) s = .next t ∧ Entered s t .execute 0x13 s.pc (BitVec.ofNat 64 k)

/-- R194-R197: swait, ssig and srd of a P0 or P1 thread. swait answers the counter once it is at least B, and waits with a watch before that; ssig adds B and answers the old value; srd
reads. How a watch and its notices stand between two steps is the model's choice (log 51). -/
def Sys2Proof.Claims.Semaphores : Prop :=
  ∀ (s : State) (d a b : Reg) (pa : Nat) (pte : Option Nat), s.cur = .execute → Ready s [d, a, b] → s.thr.sys.tstat.pclass ≠ 2 → s.thr.rep ≠ 2 → poisonedIn s pa 8 = false →
    let v := BitVec.ofNat 64 (getLe s.mem pa 8)
    (translate s s.thr .load (readReg s a) 8 8 true = .ok pa pte →
      Gives (.srd d a) s d v
      ∧ (s.thr.wait = .none → (readReg s b).toNat ≤ v.toNat → Gives (.swait d a b) s d v)
      ∧ (s.thr.wait = .none → v.toNat < (readReg s b).toNat → s.thr.core < 192 → ∃ t, exec (.swait d a b) s = .next t
          ∧ t.thr.wait = .swait pa (readReg s a) (readReg s b) none ∧ t.pc = s.pc ∧ t.mem = s.mem ∧ t.thr.g = s.thr.g
          ∧ (let ws := (s.core s.thr.core).watches.filter fun w => w.tid ≠ s.thr.tid
             ws.length < 16 → (t.core s.thr.core).watches = ws ++ [{ pa := pa, tid := s.thr.tid, value := v }])))
    ∧ (translate s s.thr .store (readReg s a) 8 8 true = .ok pa pte → (∀ e, pte = some e → e + 8 ≤ pa ∨ pa + 8 ≤ e) → Memory.wf s.mem = true → s.thr.inRegion = false →
        s.thr.qs.sdq = [] → s.thr.vq = [] → s.thr.mq = [] → commitHolds s pa 8 = false →
        ∃ t, exec (.ssig d a b) s = .next t ∧ Gave s t d v ∧ getLe t.mem pa 8 = (v + readReg s b).toNat
          ∧ ∀ q, (q < pa ∨ pa + 8 ≤ q) → (∀ e, pte = some e → q < e ∨ e + 8 ≤ q) → getCell t.mem q = getCell s.mem q)

/-- R197: a waiting swait takes the value that a poll reads once it is large enough, and then completes with it (log 51). The order of a notice and a poll is the model's choice (log 51). -/
def Sys2Proof.Claims.SemaphoreWaitEnds : Prop :=
  ∀ (s : State) (d a b : Reg) (pa : Nat) (ea want v : Word), s.thr.sys.tstat.pclass ≠ 2 → s.thr.unwindDue = [] → s.thr.wait = .swait pa ea want none →
    (Ready s [d, a, b] → readReg s a = ea → readReg s b = want → s.thr.pairRes = none → Stalls (.swait d a b) s .listed)
    ∧ ((∀ c ∈ s.cores, ∀ w ∈ c.watches, w.tid ≠ s.thr.tid) → v = BitVec.ofNat 64 (getLe s.mem pa 8) → want.toNat ≤ v.toNat →
        ∃ t, exec (.semaphorePoll s.thr.tid) s = .next t ∧ t.thr = { s.thr with wait := .swait pa ea want (some v) } ∧ t.mem = s.mem
          ∧ (Ready t [d, a, b] → readReg t a = ea → readReg t b = want → Gives (.swait d a b) t d v))

/-- R199: delivery of the oldest pending user-level interrupt: it comes before the next execute-stream instruction, selects the interrupt
bank with STATUS, ENGINE and BYTES in G24 to G26, masks further ones, and saves where the stream resumes. -/
def Sys2Proof.Claims.UserInterruptDelivery : Prop :=
  ∀ (s : State) (u : Uli) (rest : List Uli), uliReady s.thr = true → debugHeld s s.thr = false → s.thr.sys.tstat.pclass ≠ 2 → s.thr.uli = u :: rest →
    ∃ t, exec (.uliDelivery s.thr.tid) s = .next t ∧ t.thr.ex.pc = s.thr.sys.ulivec ∧ t.thr.sys.uliret = s.thr.ex.pc ∧ t.thr.sys.tstat.ulih = true
      ∧ t.thr.sys.tstat.uim = true ∧ t.thr.uli = rest ∧ t.thr.ovf = false ∧ readG t.thr 24 = u.status ∧ readG t.thr 26 = u.bytes
      ∧ readG t.thr 25 = BitVec.ofNat 64 (u.engine + if s.thr.ovf then 2 ^ 63 else 0) ∧ t.thr.g = s.thr.g ∧ t.thr.h = s.thr.h ∧ t.thr.ax = s.thr.ax ∧ t.mem = s.mem

/-- R200: uret returns to ULIRET with the bank and the mask released, and outside a handler is illegal; uimask swaps the mask. -/
def Sys2Proof.Claims.UserInterruptReturn : Prop :=
  ∀ (s : State) (d a : Reg),
    (s.thr.sys.tstat.ulih = true → Jumps .uret s (modThr s fun t => { t with sys := { t.sys with tstat := { t.sys.tstat with ulih := false, uim := false } } }) s.thr.sys.uliret)
    ∧ (s.thr.sys.tstat.ulih = false → ∃ w, exec .uret s = .next (raise s s.cur 0x01 s.pc w))
    ∧ (Ready s [d, a] → Completes (.uimask d a) s (modThr (writeReg s d (if s.thr.sys.tstat.uim then 1 else 0)) fun t =>
        { t with sys := { t.sys with tstat := { t.sys.tstat with uim := (readReg s a).getLsbD 0 } } }))

/-- R201, R202: requests to the ensemble unit outside a region and outside P2. Invalid handles answer 2 (all ones for equery); a non-member's eleave
1, a member's ejoin 1; a member is added at the end, and one that leaves is gone. The slot and GEN of a new handle are the model's choice (log 13). -/
def Sys2Proof.Claims.EnsembleRequests : Prop :=
  ∀ (s : State) (d a b : Reg), s.cur = .execute → Ready s [d, a, b] → s.thr.inRegion = false → s.thr.sys.tstat.pclass ≠ 2 →
    let h := readReg s a
    let m := (s.thr.task, s.thr.teamIx, s.thr.thrIx)
    (findEnsemble s s.thr h = none → Gives (.ejoin d a) s d 2 ∧ Gives (.eleave d a) s d 2 ∧ Gives (.equery d a b) s d 0xFFFFFFFFFFFFFFFF#64)
    ∧ (∀ e, findEnsemble s s.thr h = some e →
        (readReg s b = 0 → Gives (.equery d a b) s d (BitVec.ofNat 64 e.members.length))
        ∧ (readReg s b = 1 → Gives (.equery d a b) s d (BitVec.ofNat 64 (e.members.filter fun x => x.2).length))
        ∧ (readReg s b = 2 → Gives (.equery d a b) s d (BitVec.ofNat 64 e.done))
        ∧ (readReg s b = 3 → Gives (.equery d a b) s d (if ∃ x ∈ e.members, x.1 = m then 1 else 0))
        ∧ ((∃ x ∈ e.members, x.1 = m) → Gives (.ejoin d a) s d 1)
        ∧ ((∀ x ∈ e.members, x.1 ≠ m) → Gives (.eleave d a) s d 1)
        ∧ ((∀ x ∈ e.members, x.1 ≠ m) → (s.ensembles.filter fun f => f.has m).length < 8 → e.members.length < 65535 →
            ∃ t, exec (.ejoin d a) s = .next t ∧ Gave s t d 0 ∧ t.mem = s.mem
              ∧ t.ensembles = s.ensembles.map fun f => if f.slot = e.slot then { f with members := f.members ++ [(m, false)] } else f)
        ∧ ((∃ x ∈ e.members, x.1 = m) → ∃ t, exec (.eleave d a) s = .next t ∧ Gave s t d 0 ∧ t.mem = s.mem
              ∧ ∀ f ∈ t.ensembles, f.slot = e.slot → ∀ x ∈ f.members, x.1 ≠ m))
    ∧ (8 ≤ (s.ensembles.filter fun f => f.has m).length → Gives (.ecreate d) s d 0)
    ∧ ((s.ensembles.filter fun f => f.has m).length < 8 → s.ensembles.length < 4096 →
        ∃ t e, exec (.ecreate d) s = .next t ∧ Gave s t d e.handle ∧ t.mem = s.mem ∧ t.ensembles = s.ensembles ++ [e] ∧ e.members = [(m, false)] ∧ e.done = 0
          ∧ e.part = s.thr.part ∧ 1 ≤ e.gen ∧ e.gen < 2 ^ 32 ∧ ∀ f ∈ s.ensembles, f.slot ≠ e.slot)

/-- R30, R203: ebar of a member of an ensemble of any size arrives. With every other member arrived the barrier completes and so does
ebar, with 0, and no member has arrived at the next one; else it waits for this barrier. Of a non-member it answers 1 and of an invalid
handle 2. -/
def Sys2Proof.Claims.EnsembleBarrier : Prop :=
  ∀ (s : State) (d a : Reg), s.cur = .execute → Ready s [d, a] → s.thr.inRegion = false → s.thr.sys.tstat.pclass ≠ 2 → s.thr.rep ≠ 2 →
    s.thr.qs.sdq = [] → s.thr.vq = [] → s.thr.mq = [] → s.thr.ex.marks = [] → earlierPending s.thr s.thr.qs.pairsFormed = false →
    let h := readReg s a
    let m := (s.thr.task, s.thr.teamIx, s.thr.thrIx)
    (s.thr.wait = .none → findEnsemble s s.thr h = none → Gives (.ebar d a) s d 2)
    ∧ (∀ e, s.thr.wait = .none → findEnsemble s s.thr h = some e → (∀ x ∈ e.members, x.1 ≠ m) → Gives (.ebar d a) s d 1)
    ∧ (∀ e, s.thr.wait = .none → findEnsemble s s.thr h = some e → (∃ x ∈ e.members, x.1 = m) → (∀ x ∈ e.members, x.1 ≠ m → x.2 = true) →
        ∃ t e', exec (.ebar d a) s = .next t ∧ Gave s t d 0 ∧ t.mem = s.mem ∧ findEnsemble t s.thr h = some e' ∧ e'.done = e.done + 1
          ∧ e'.members = (e.members.map fun x => (x.1, false)) ∧ ∀ f ∈ s.ensembles, f.slot ≠ e.slot → f ∈ t.ensembles)
    ∧ (∀ e, s.thr.wait = .none → findEnsemble s s.thr h = some e → (∃ x ∈ e.members, x.1 = m) → (∃ x ∈ e.members, x.1 ≠ m ∧ x.2 = false) →
        ∃ t e', exec (.ebar d a) s = .next t ∧ t.thr.wait = .ebar h e.done ∧ t.pc = s.pc ∧ t.thr.g = s.thr.g ∧ t.mem = s.mem
          ∧ findEnsemble t s.thr h = some e' ∧ e'.done = e.done ∧ e'.members = e.members.map fun x => if x.1 = m then (x.1, true) else x)
    ∧ (∀ e n, s.thr.wait = .ebar h n → findEnsemble s s.thr h = some e → (e.done ≠ n → Gives (.ebar d a) s d 0) ∧ (e.done = n → Stalls (.ebar d a) s .listed))

/-! ### System registers, traps, regions -/

/-- R208-R217: what each system register reads, TIME and LOCID in a P0 or P1 thread. The registers that user level may not read are read at supervisor level. -/
def Sys2Proof.Claims.SystemRegisterReads : Prop :=
  ∀ (s : State) (d : Reg), Ready s [d] →
    let t := s.thr
    let y := t.sys
    let r := (s.part t.part).rp
    (∀ f ∈ [(0x004, y.tstat.bits), (0x010, y.crhnd), (0x011, y.ulivec), (0x012, y.uliret), (0x020, y.hbase), (0x021, y.hlimit), (0x022, y.hoff),
        (0x030, r.rpseq), (0x031, r.rpdur), (0x032, r.rppar), (0x033, r.bits), (0x041, BitVec.ofNat 64 t.teamIx), (0x042, BitVec.ofNat 64 t.thrIx),
        (0x043, y.dbase)],
      Writes (.sysrd d (BitVec.ofNat 12 f.1)) s d f.2)
    ∧ (∀ k < 16, Writes (.sysrd d (BitVec.ofNat 12 (0x100 + k))) s d (nth y.pcnt k 0))
    ∧ (y.tstat.lvl = true → (∀ f ∈ [(0x002, y.tpc), (0x003, y.txpc), (0x005, y.tvec), (0x006, nth y.tscr 0 0), (0x007, nth y.tscr 1 0), (0x008, nth y.tscr 2 0), (0x009, nth y.tscr 3 0)],
        Writes (.sysrd d (BitVec.ofNat 12 f.1)) s d f.2) ∧ ∀ k < 16, Writes (.sysrd d (BitVec.ofNat 12 (0x110 + k))) s d (nth y.psel k 0))
    ∧ (t.sys.tstat.pclass ≠ 2 → Writes (.sysrd d 0x044) s d (BitVec.ofNat 64 s.mod.time) ∧ Writes (.sysrd d 0x040) s d (locationOf s t))
    ∧ (t.vq = [] → Writes (.sysrdSigv d) s d y.sigv) ∧ (t.vq ≠ [] → Stalls (.sysrdSigv d) s .other)
    ∧ (t.qs.sdq = [] → Writes (.sysrdSigs d) s d y.sigs) ∧ (t.qs.sdq ≠ [] → Stalls (.sysrdSigs d) s .queue)

/-- R212, R217: at supervisor level TCAUSE and TADDR are read, and once both have been read since the trap entry TSTAT.RDY is set. -/
def Sys2Proof.Claims.TrapInfoReads : Prop :=
  ∀ (s : State) (d : Reg), Ready s [d] → s.thr.sys.tstat.lvl = true →
    (∃ t, exec (.sysrdTrapInfo d 0) s = .next t ∧ (d ≠ 0 → (s.cur = .access → d.toNat < 16) → readReg t d = s.thr.sys.tcause) ∧ t.thr.sys.sawCause = true ∧ (NoLoopEnd s 1 → t.pc = s.pc + 4)
      ∧ t.thr.sys.tstat = { s.thr.sys.tstat with rdy := s.thr.sys.tstat.rdy || s.thr.sys.sawAddr } ∧ t.mem = s.mem ∧ ∀ q, q ≠ d → readReg t q = readReg s q)
    ∧ ∃ t, exec (.sysrdTrapInfo d 1) s = .next t ∧ (d ≠ 0 → (s.cur = .access → d.toNat < 16) → readReg t d = s.thr.sys.taddr) ∧ t.thr.sys.sawAddr = true ∧ (NoLoopEnd s 1 → t.pc = s.pc + 4)
      ∧ t.thr.sys.tstat = { s.thr.sys.tstat with rdy := s.thr.sys.tstat.rdy || s.thr.sys.sawCause } ∧ t.mem = s.mem ∧ ∀ q, q ≠ d → readReg t q = readReg s q

/-- R6, R7, R208-R216: syswr writes the RW fields of each register and nothing else; registers that are read-only, or read-only for a user, keep
their value. -/
def Sys2Proof.Claims.SystemRegisterWrites : Prop :=
  ∀ (s : State) (a : Reg), Ready s [a] →
    let v := readReg s a
    let put (n : Nat) (y : SysRegs) : Prop := Completes (.syswr a (BitVec.ofNat 12 n)) s (modThr s fun t => { t with sys := y })
    let y := s.thr.sys
    put 0x011 { y with ulivec := v &&& 0xFFFFFFFFFFFFFFFC#64 } ∧ put 0x012 { y with uliret := v &&& 0xFFFFFFFFFFFFFFFC#64 }
    ∧ put 0x004 y ∧ put 0x010 y ∧ put 0x030 y ∧ put 0x031 y ∧ put 0x032 y ∧ put 0x033 y ∧ put 0x040 y ∧ put 0x041 y ∧ put 0x042 y ∧ put 0x043 y ∧ put 0x044 y
    ∧ (s.thr.vq = [] → put 0x050 { y with sigv := v }) ∧ (s.thr.qs.sdq = [] → put 0x051 { y with sigs := v })
    ∧ (y.tstat.lvl = true → put 0x000 { y with tcause := v &&& 0x1FF#64 } ∧ put 0x001 { y with taddr := v } ∧ put 0x002 { y with tpc := v } ∧ put 0x003 { y with txpc := v }
        ∧ put 0x005 { y with tvec := v &&& 0x01FFFFFFFFFFFE00#64 } ∧ (∀ k < 4, put (0x006 + k) { y with tscr := upd y.tscr k v })
        ∧ (∀ k < 16, put (0x100 + k) { y with pcnt := upd y.pcnt k v } ∧ put (0x110 + k) { y with psel := upd y.psel k (v &&& 0xFF#64) }))
    ∧ (y.tstat.lvl = false → (∀ k < 16, put (0x100 + k) y) ∧ ∀ n : BitVec 2, Completes (.syswrHeapWindow a n) s s)

/-- R213, R279: the heap window. At supervisor level a window that is closed, or that lies in the partition's grant and below the image area and touches no
durable granule, is set; any other raises heap window limit with TADDR the value, and the register keeps its own. -/
def Sys2Proof.Claims.HeapWindowWrites : Prop :=
  ∀ (s : State) (a : Reg) (n : BitVec 2), Ready s [a] → s.thr.sys.tstat.lvl = true →
    let v := readReg s a
    let y := setSysReg s.thr.sys (0x20 + n.toNat) v
    let q := s.part s.thr.part
    let len := y.hlimit.toNat - y.hbase.toNat
    let lo := (y.hbase.toNat + y.hoff.toNat) % 2 ^ 57
    let fits := y.hlimit.toNat ≤ y.hbase.toNat ∨ (q.heapPA ≤ lo ∧ lo + len ≤ q.heapPA + q.heapLen ∧ y.hlimit.toNat ≤ 2 ^ 56
      ∧ ∀ w ∈ s.parts, ∀ m, w.domain = some m → ∀ g ∈ m.granules ++ m.pbGranules, lo + len ≤ g ∨ g + 0x200000 ≤ lo)
    (fits → Completes (.syswrHeapWindow a n) s (modThr s fun t => { t with sys := y }))
    ∧ (¬ fits → exec (.syswrHeapWindow a n) s = .next (raise s s.cur 0x07 s.pc v))
    ∧ (n = 0 → y = { s.thr.sys with hbase := v &&& 0x01FFFFFFFFFFF000#64 }) ∧ (n = 1 → y = { s.thr.sys with hlimit := v &&& 0x01FFFFFFFFFFF000#64 })
    ∧ (n = 2 → y = { s.thr.sys with hoff := v &&& 0x01FFFFFFFFFFF000#64 })

/-- R208: at user level the supervisor's registers and eret raise privileged, and nothing else of them takes effect. -/
def Sys2Proof.Claims.PrivilegedAtUserLevel : Prop :=
  ∀ (s : State) (d a : Reg) (n : BitVec 12) (k : BitVec 1), s.thr.sys.tstat.lvl = false → n.toNat ≤ 3 ∨ (5 ≤ n.toNat ∧ n.toNat ≤ 9) ∨ (0x110 ≤ n.toNat ∧ n.toNat ≤ 0x11F) →
    ∀ i ∈ [Instr.sysrd d n, .syswr a n, .sysrdTrapInfo d k, .eret], exec i s = .next (raise s s.cur 0x03 s.pc (wordsValue i))

/-- R212: the places of TSTAT's fields as software reads them. -/
def Sys2Proof.Claims.TrapStatusLayout : Prop :=
  ∀ t : TStat, t.bits.getLsbD 0 = t.lvl ∧ t.bits.getLsbD 1 = t.plvl ∧ t.bits.extractLsb' 4 2 = t.pclass ∧ t.bits.getLsbD 6 = t.rdy ∧ t.bits.getLsbD 7 = t.cropen
    ∧ t.bits.getLsbD 8 = t.promo ∧ t.bits.getLsbD 9 = t.uim ∧ t.bits.getLsbD 10 = t.ulih ∧ t.bits.getLsbD 11 = t.df ∧ t.bits.extractLsb' 12 8 = t.crcause
    ∧ t.bits.getLsbD 2 = false ∧ t.bits.getLsbD 3 = false ∧ ∀ k, 20 ≤ k → t.bits.getLsbD k = false

/-- R218-R220: trap enters the handler with cause 0x12, TPC the next instruction and TADDR its number; with no handler the team halts for the firmware and
the task ends with code 0x0A; at a handler that has not read its cause it is a double fault. Memory and user registers stay. In the access stream the cause waits for the execute stream (log 48). In which waits of the execute stream it is entered, where R119 leaves that open, is the model's choice (log 48). -/
def Sys2Proof.Claims.TrapEntry : Prop :=
  ∀ (s : State) (n : BitVec 12), (s.cur = .access → s.thr.trap = none → exec (.trap n) s = .next (modThr s fun t =>
      { t with trap := some { stream := .access, cause := 0x12, tpc := s.pc + 4, taddr := BitVec.ofNat 64 n.toNat }, countOff := true }))
    ∧ (s.cur = .execute → s.thr.trap = none →
    (CanEnter s → ∃ t, exec (.trap n) s = .next t ∧ Entered s t .execute 0x12 (s.pc + 4) (BitVec.ofNat 64 n.toNat))
    ∧ (s.thr.sys.tvec = 0 → s.thr.sys.tstat.lvl = false → ∀ k, findTask s s.thr.task = some k → k.state = .running → ∃ t k', exec (.trap n) s = .next t ∧ t.thr.halted = true
        ∧ findTask t s.thr.task = some k' ∧ k'.state = .ending 0x0A (s.thr.teamIx * 256 + 0x12) ∧ t.mem = s.mem ∧ t.thr.g = s.thr.g)
    ∧ (s.thr.sys.tstat.lvl = true → s.thr.sys.tstat.rdy = false → ∃ t, exec (.trap n) s = .next t ∧ t.thr.halted = true ∧ t.thr.sys.tstat = { s.thr.sys.tstat with df := true }
        ∧ t.thr.sys.frozenCause = s.thr.sys.tcause ∧ t.thr.sys.frozenAddr = s.thr.sys.taddr ∧ t.thr.sys.tcause = s.thr.sys.tcause ∧ t.mem = s.mem ∧ t.thr.g = s.thr.g))

/-- R119, R219, R361: a cause of the access stream (log 48) waits until the execute stream has stopped: it has ended, stands while the other runs the handler or its team stops, or waits on a queue or in one of the waits that R119
lists. Then it is entered in the access stream; a cause that waits for the pair of its mark, and a check or Prompter mismatch, are not meant here. -/
def Sys2Proof.Claims.AccessTrapEntry : Prop :=
  ∀ (s : State) (q : TrapInfo), s.thr.live = true → s.thr.resident = true → s.thr.halted = false → s.thr.trap = some q → q.stream = .access → q.cause ≠ 0x0B → q.cause ≠ 0x0C → deferred s.thr q = false → s.thr.ax.stopped = false →
    (s.thr.ex.ended = true ∨ s.thr.ex.stopped = true ∨ s.thr.ex.stall = .queue ∨ s.thr.ex.stall = .listed → CanEnter s → ∃ t, exec (.trapEntry s.thr.tid) s = .next t ∧ Entered s t .access q.cause q.tpc q.taddr)
    ∧ (s.thr.ex.ended = false → s.thr.ex.stopped = false → s.thr.ex.stall = .no ∨ s.thr.ex.stall = .other → s.thr.dueEx = none → teamStops s s.thr = false → exec (.trapEntry s.thr.tid) s = .next s)

/-- R222: eret at supervisor level resumes both streams at TPC and TXPC with the level it saved; an address that is not a multiple of 4 raises
misaligned, and of two the one of TPC (log 58). Which of two misaligned addresses is reported is the model's choice (log 58). -/
def Sys2Proof.Claims.TrapReturn : Prop :=
  ∀ s : State, s.thr.sys.tstat.lvl = true →
    (s.thr.sys.tpc.toNat % 4 = 0 → s.thr.sys.txpc.toNat % 4 = 0 → ∃ t, exec .eret s = .next t ∧ t.pc = s.thr.sys.tpc ∧ (t.thr.st (otherStream s.cur)).pc = s.thr.sys.txpc
      ∧ t.stream.stopped = false ∧ (t.thr.st (otherStream s.cur)).stopped = false ∧ t.thr.sys.tstat = { s.thr.sys.tstat with lvl := s.thr.sys.tstat.plvl, rdy := false }
      ∧ t.thr.g = s.thr.g ∧ t.thr.h = s.thr.h ∧ t.thr.p = s.thr.p ∧ t.thr.sys.tcause = s.thr.sys.tcause ∧ t.thr.sys.tpc = s.thr.sys.tpc ∧ t.mem = s.mem)
    ∧ (s.thr.sys.tpc.toNat % 4 ≠ 0 → exec .eret s = .next (raise s s.cur 0x04 s.pc s.thr.sys.tpc))
    ∧ (s.thr.sys.tpc.toNat % 4 = 0 → s.thr.sys.txpc.toNat % 4 ≠ 0 → exec .eret s = .next (raise s s.cur 0x04 s.pc s.thr.sys.txpc))

/-- R106, R223, R224 (log 47): cro in the execute stream, at user level and outside an interrupt handler. In an open region it raises misuse. With no mark of the access stream waiting it completes, and its mark waits for the pair. With one waiting, and the counts and queues
between the streams even, the pair forms: cro completes, the region is open with its handler, and the snapshots of both register files are kept; uneven counts or queues raise queue protocol error. What of this R223 leaves open is the model's choice (log 47). -/
def Sys2Proof.Claims.RegionOpens : Prop :=
  ∀ (s : State) (o : BitVec 12), s.cur = .execute → s.thr.sys.tstat.ulih = false → s.thr.sys.tstat.lvl = false →
    let handler := BitVec.ofInt 64 ((s.pc.toNat : Int) + 4 * o.toInt)
    (s.thr.sys.tstat.cropen = true → exec (.cro o) s = .next (raise s .execute 0x0D s.pc 0))
    ∧ (s.thr.sys.tstat.cropen = false → s.thr.ex.marks = [] →
      (s.thr.ax.marks = [] → ∃ k, k.kind = .cro ∧ k.pc = s.pc ∧ k.handler = handler ∧ k.total = s.thr.qs.sdqTot ∧ k.regs = (List.range 32).map (readG s.thr)
        ∧ Completes (.cro o) s (modThr s fun t => { t with ex := { t.ex with marks := [k] }, qs := { t.qs with execMarks := t.qs.execMarks + 1 } }))
      ∧ ∀ m rest, s.thr.ax.marks = m :: rest →
        let even := (∀ i < 4, nth m.traffic.ldq i 0 ≤ nth s.thr.qs.popped.ldq i 0) ∧ m.traffic.bq ≤ s.thr.qs.popped.bq ∧ s.thr.qs.pushed.xq ≤ m.traffic.xq;
        (m.total = s.thr.qs.sdqTot → even → s.thr.trap = none → s.thr.dueEx = none →
          ∃ t, exec (.cro o) s = .next t ∧ t.thr.sys.tstat = { s.thr.sys.tstat with cropen := true, promo := false } ∧ t.thr.sys.crhnd = handler
            ∧ t.thr.snapG = (List.range 32).map (readG s.thr) ∧ t.thr.snapH = m.regs ∧ t.thr.openMark = m.pc ∧ t.thr.regionMark = s.thr.qs.pairsFormed + 1 ∧ t.thr.regionCmdix = s.thr.cmdix
            ∧ t.thr.qs.pairsFormed = s.thr.qs.pairsFormed + 1 ∧ t.thr.ax.marks = rest ∧ t.thr.ex.marks = [] ∧ (NoLoopEnd s 1 → t.pc = s.pc + 4) ∧ t.thr.g = s.thr.g ∧ t.thr.h = s.thr.h ∧ t.mem = s.mem)
        ∧ (¬ (m.total = s.thr.qs.sdqTot ∧ even) → exec (.cro o) s = .next (raise s .execute 0x10 s.pc 0)))

/-- R223, R224, R226: crc outside a region raises misuse. In one it issues its mark and waits for the pair and for the region's stores to be paired. Then, in a P0 or P1 thread, it completes with the region closed when nothing is left to drain, and else
waits for the drain (RegionDrains says how that ends). A failure of the other replica in the region (R227) is taken at the waiting crc, which unwinds. That the waits
of it that stall on a queue count toward R26 is the model's choice (log 47). -/
def Sys2Proof.Claims.RegionCloses : Prop :=
  ∀ s : State, s.cur = .execute →
    (s.thr.wait = .none → s.thr.ex.marks = [] → s.thr.sys.tstat.cropen = false → exec .crc s = .next (raise s .execute 0x0D s.pc 0))
    ∧ (s.thr.wait = .none → s.thr.ex.marks = [] → s.thr.sys.tstat.cropen = true → s.thr.ax.marks = [] → ∃ t m, exec .crc s = .next t ∧ t.thr.ex.marks = [m] ∧ m.kind = .crc
        ∧ t.thr.wait = .crc ∧ t.pc = s.pc ∧ t.mem = s.mem)
    ∧ (s.thr.wait = .crc → s.thr.unwindDue = [] → regionPaired s.thr = false → Stalls .crc s .queue)
    ∧ (s.thr.wait = .crc → s.thr.unwindDue = [] → regionPaired s.thr = true → s.thr.sys.tstat.pclass ≠ 2 →
      (s.thr.held = [] → s.thr.late = [] → (∀ l ∈ s.thr.wings, l.held = true) → Completes .crc s (modThr s fun t =>
          { t with snapG := [], snapH := [], crcMark := none, wait := .none, pairReq := none, pairRes := none, sys := { t.sys with tstat := { t.sys.tstat with cropen := false } } }))
      ∧ (s.thr.held ≠ [] ∨ s.thr.late ≠ [] ∨ (∃ l ∈ s.thr.wings, l.held = false) →
          ∃ t, exec .crc s = .next t ∧ t.thr.wait = .drain ∧ t.pc = s.pc ∧ t.thr.wings = s.thr.wings ∧ t.mem = s.mem))
    ∧ (s.thr.wait = .drain → s.thr.unwindDue = [] → Stalls .crc s .other)
    ∧ (∀ c rest, s.thr.unwindDue = c :: rest → s.thr.inRegion = true → s.thr.wait = .crc ∨ s.thr.wait = .sigchk ∨ s.thr.wait = .agreed ∨ s.thr.wait = .drain →
        exec .crc s = .next (unwind s c))

/-- R225, R226, R300: the drain of a P0 or P1 thread's region, with no request held and no commit holding a line: the bytes of the region's lines are written to memory and no others, the lines are gone, and crc completes with the region closed. -/
def Sys2Proof.Claims.RegionDrains : Prop :=
  ∀ s : State, s.thr.wait = .drain → s.thr.live = true → s.thr.resident = true → s.thr.sys.tstat.pclass ≠ 2 → s.thr.held = [] → s.thr.late = [] → s.thr.unwindDue = [] → Memory.wf s.mem = true →
    let lines := s.thr.wings.filter fun l => !l.held
    let cells := lines.flatMap (·.cells)
    (∀ l ∈ lines, commitHolds s l.unit 64 = false) → (cells.map (·.1)).Nodup →
    ∃ t, exec (.wingsDrain s.thr.tid) s = .next t ∧ t.thr.wings = s.thr.wings.filter (·.held) ∧ t.thr.wait = .none ∧ t.thr.sys.tstat = { s.thr.sys.tstat with cropen := false } ∧ t.thr.snapG = []
      ∧ (NoLoopEnd { s with cur := .execute } 1 → t.thr.ex.pc = s.thr.ex.pc + 4) ∧ t.thr.g = s.thr.g ∧ t.thr.h = s.thr.h
      ∧ (∀ c ∈ cells, getCell t.mem c.1 = c.2) ∧ ∀ a, (∀ c ∈ cells, c.1 ≠ a) → getCell t.mem a = getCell s.mem a

/-- R227, R358 (log 56): a poisoned unit read inside an open region of a P0 or P1 thread unwinds it: both files are those of the snapshot, the execute stream goes on at CRHND and the access stream at its
mark, the queues are empty but for the stores and loads that were issued before the region, the commands and the region's lines are dropped, and no memory changes. Where the poisoned read meets the region, and that a handler is inside it, are the model's choices (logs 26 and 56). -/
def Sys2Proof.Claims.RegionUnwinds : Prop :=
  ∀ (s : State) (d a : Reg) (pa : Nat) (pte : Option Nat), s.cur = .execute → Ready s [d, a] → s.thr.sys.tstat.pclass ≠ 2 → s.thr.inRegion = true →
    translate s s.thr .load (readReg s a) 8 8 true = .ok pa pte → poisonedIn s pa 8 = true →
    let k := min (s.thr.qs.saq.filter fun x => x.marks < s.thr.regionMark).length s.thr.qs.sdq.length
    ∃ t, exec (.srd d a) s = .next t ∧ t.thr.ex.pc = s.thr.sys.crhnd ∧ t.thr.ax.pc = s.thr.openMark ∧ t.thr.sys.tstat = { s.thr.sys.tstat with crcause := 0x0A, cropen := false }
      ∧ (∀ r, 0 < r → r < 32 → readG t.thr r = s.thr.snapG.getD r 0) ∧ (∀ r, 0 < r → r < 16 → readH t.thr r = s.thr.snapH.getD r 0)
      ∧ t.thr.vq = [] ∧ t.thr.mq = [] ∧ t.thr.qs.saq = s.thr.qs.saq.take k ∧ t.thr.qs.sdq = s.thr.qs.sdq.take k ∧ t.thr.qs.loads = s.thr.qs.loads.filter (fun x => x.marks < s.thr.regionMark)
      ∧ (∀ i < 4, nth t.thr.qs.ldq i [] = []) ∧ t.thr.qs.bq = [] ∧ t.thr.qs.xq = [] ∧ t.thr.ex.marks = [] ∧ t.thr.ax.marks = []
      ∧ t.thr.wings = s.thr.wings.filter (·.held) ∧ t.thr.held = [] ∧ t.mem = s.mem

/-- R230, R235: sigchk and yield do nothing under P0 and P1; wfi waits for a user-level interrupt, which does not count toward R26 (the model's choice, log 47); halt ends its stream, in the execute stream not inside a region. -/
def Sys2Proof.Claims.HaltYieldWait : Prop :=
  ∀ s : State, (s.thr.sys.tstat.pclass ≠ 2 → Completes .sigchk s (modThr s fun t => { t with wait := .none, pairReq := none, pairRes := none })) ∧ Completes .yield s s
    ∧ (s.thr.uli ≠ [] → Completes .wfi s (modThr s fun t => { t with wait := .none, pairReq := none, pairRes := none }))
    ∧ (s.thr.uli = [] → ∃ t, exec .wfi s = .next t ∧ t.thr.wait = .wfi ∧ t.pc = s.pc ∧ t.mem = s.mem)
    ∧ (s.cur = .execute → s.thr.sys.tstat.cropen = true → exec .halt s = .next (raise s .execute 0x0D s.pc 0))
    ∧ (s.cur = .execute → s.thr.sys.tstat.cropen = false → (∃ m ∈ s.thr.ex.marks, m.kind = .cro) → Stalls .halt s .queue)
    ∧ ((s.cur = .execute → s.thr.sys.tstat.cropen = false ∧ ∀ m ∈ s.thr.ex.marks, m.kind ≠ .cro) → ∃ t, exec .halt s = .next t ∧ t.stream = { s.stream with ended := true, stall := .no }
        ∧ t.thr.st (otherStream s.cur) = { s.thr.st (otherStream s.cur) with stall := .no } ∧ t.thr.g = s.thr.g ∧ t.thr.h = s.thr.h ∧ t.thr.qs = s.thr.qs ∧ t.mem = s.mem)

/-- R218, R399: brk without a debugger raises cause 0x11; with one it halts the team for the debugger, at the brk. -/
def Sys2Proof.Claims.Breakpoint : Prop :=
  ∀ (s : State) (n : BitVec 12),
    ((s.part s.thr.part).debugger = false → exec (.brk n) s = .next (raise s s.cur 0x11 s.pc (BitVec.ofNat 64 n.toNat)))
    ∧ ((s.part s.thr.part).debugger = true → ∃ t, exec (.brk n) s = .next t ∧ t.pc = s.pc ∧ t.thr.brkAt = some s.cur ∧ t.thr.g = s.thr.g ∧ t.mem = s.mem
        ∧ ∀ u ∈ t.teams, u.task = s.thr.task → u.ix = s.thr.teamIx → u.dbgHalt = true)

/-- R231-R233: recovery points of a partition without a checkpoint domain. rpopen counts RPSEQ up when no point is open, else answers 0; rpcommit of the open point answers 0 and the commit is in progress,
else 1; rpwait answers once its point is reached, waits before, and answers all ones after a failure. -/
def Obligations.RecoveryPoints : Prop :=
  ∀ (s : State) (d a : Reg), s.cur = .execute → Ready s [d, a] → s.thr.inRegion = false → s.thr.sys.tstat.pclass ≠ 2 → s.thr.part < 8 → (s.part s.thr.part).domain = none →
    let r := (s.part s.thr.part).rp
    let v := readReg s a
    (r.state ≠ 0 → Gives (.rpopen d) s d 0)
    ∧ (r.state = 0 → ∃ t, exec (.rpopen d) s = .next t ∧ Gave s t d (r.rpseq + 1) ∧ (t.part s.thr.part).rp = { r with rpseq := r.rpseq + 1, state := 1, cfail := false } ∧ t.mem = s.mem)
    ∧ (s.thr.qs.sdq = [] → s.thr.vq = [] → s.thr.mq = [] →
        (¬ (r.state = 1 ∧ v = r.rpseq) → Gives (.rpcommit d a) s d 1)
        ∧ (r.state = 1 → v = r.rpseq → ∃ t, exec (.rpcommit d a) s = .next t ∧ Gave s t d 0 ∧ (t.part s.thr.part).rp = { r with state := 2 } ∧ t.mem = s.mem))
    ∧ (r.cfail = true → r.rpdur.toNat < v.toNat → Gives (.rpwait d a false) s d 0xFFFFFFFFFFFFFFFF#64)
    ∧ (r.cfail = false → v.toNat ≤ r.rpdur.toNat → Gives (.rpwait d a false) s d r.rpdur)
    ∧ (r.cfail = false → r.feed = false → v.toNat ≤ r.rppar.toNat → Gives (.rpwait d a true) s d r.rppar)
    ∧ (r.feed = true → Gives (.rpwait d a true) s d 0xFFFFFFFFFFFFFFFF#64)
    ∧ (r.cfail = false → r.rpdur.toNat < v.toNat → ∃ t, exec (.rpwait d a false) s = .next t ∧ t.thr.wait = .rpwait v false ∧ t.pc = s.pc ∧ t.mem = s.mem)

/-- R234: locq answers the place of the core, chiplet in [3:0], class in 4, domain in [6:5] and [13:12], core in [11:8]; or of an address, all ones in bit 63 when it does not translate. It never faults. -/
def Sys2Proof.Claims.Location : Prop :=
  ∀ (s : State) (d a : Reg) (u : Team), Ready s [d, a] → s.thr.sys.tstat.pclass ≠ 2 → findTeam s s.thr.team = some u → s.thr.core < 192 →
    (∃ w, Writes (.locq d a false) s d w ∧ w.extractLsb' 0 4 = BitVec.ofNat 4 (s.thr.core / 16) ∧ w.getLsbD 4 = decide (s.thr.core / 16 % 3 = 2) ∧ w.extractLsb' 5 2 = BitVec.ofNat 2 (s.thr.core / 48)
      ∧ w.extractLsb' 8 4 = BitVec.ofNat 4 (s.thr.core % 16) ∧ w.extractLsb' 12 2 = BitVec.ofNat 2 (s.thr.core / 48) ∧ w.getLsbD 16 = u.mig)
    ∧ (∀ pa pte, translate s s.thr .load (readReg s a) 1 1 false = .ok pa pte → Writes (.locq d a true) s d (addrBits s s.thr.part pa))
    ∧ ((∀ pa pte, translate s s.thr .load (readReg s a) 1 1 false ≠ .ok pa pte) → Writes (.locq d a true) s d 0x8000000000000000#64)


/-! ### Events of threads, teams and tasks -/

/-- R26: a thread whose streams have all ended or stood on queues for 1,024 C-cycles with nothing in flight takes queue protocol error, in the execute stream while that has not
ended, and then in the access stream, where it waits to be entered (AccessTrapEntry). The C-cycles are those that TIME goes on by while the thread stands so, outside the time from an access-stream fault to the resume (R119, log 6). Which stalls count, where R26 and another rule disagree, is the model's choice (log 47). -/
def Sys2Proof.Claims.QueueProtocolDeadlock : Prop :=
  ∀ s : State, s.thr.live = true → s.thr.resident = true → s.thr.halted = false → s.thr.trap = none → s.thr.countOff = false → 1024 ≤ s.thr.stallCount → deadlocked s.thr = true →
    teamIssues s s.thr .execute = true → debugHeld s s.thr = false →
    (s.thr.ex.ended = false → CanEnter s → ∃ t, exec (.queueProtocolError s.thr.tid) s = .next t ∧ Entered s t .execute 0x10 s.thr.ex.pc 0)
    ∧ (s.thr.ex.ended = true → exec (.queueProtocolError s.thr.tid) s = .next (modThr s fun t => { t with trap := some { stream := .access, cause := 0x10, tpc := s.thr.ax.pc, taddr := 0 }, countOff := true }))

/-- R280-R282: the walk of a miss puts the page into the core's TLB when its leaf allows the access: 2 MiB, 4 KiB, or 64 KiB where the whole group of sixteen forms one page. Else it becomes a page fault of its stream, and a
malformed entry on the way is logged. No memory changes. -/
def Sys2Proof.Claims.PageWalks : Prop :=
  ∀ (s : State) (w : PageFault), s.thr.live = true → s.thr.resident = true → s.thr.walk = [w] → s.thr.core < 192 →
    let va := w.ea.toNat
    let kind : Kind := if w.store then .store else .load
    let faults : Prop := ∃ t, exec (.pageWalk s.thr.tid) s = .next t ∧ t.thr = { s.thr with walk := [], pf := s.thr.pf ++ [w] } ∧ t.mem = s.mem ∧ t.cores = s.cores
      ∧ t.mod.errorLog = s.mod.errorLog ++ (if (s.part s.thr.part).ptRoot ≠ 0 ∧ walkMalformed s.mem 5 (s.part s.thr.part).ptRoot va = true then [va] else [])
    let fills (e : TlbEntry) : Prop := ∃ t, exec (.pageWalk s.thr.tid) s = .next t ∧ t.thr = { s.thr with walk := [] } ∧ t.mem = s.mem ∧ e ∈ (t.core s.thr.core).tlb ∧ ∀ c, c ≠ s.thr.core → t.core c = s.core c
    (walkVA s s.thr.part va = none → faults)
    ∧ ∀ e ea size, walkVA s s.thr.part va = some (e, ea, size) →
      (leafAllows e kind = false → faults)
      ∧ (leafAllows e kind = true → (size = 4096 → group64 s e ea = false) → fills { va := va / size * size, size := size, pte := BitVec.ofNat 64 e, pteAddr := ea })
      ∧ (leafAllows e kind = true → size = 4096 → group64 s e ea = true → fills { va := va / 65536 * 65536, size := 65536, pte := BitVec.ofNat 64 e, pteAddr := ea / 128 * 128 })

/-- R284, R288, R383, R406: how the memory firmware resolves a page fault of a thread, whose stream then issues again. A page that another fault has had mapped for the access, and that no commit
protects, needs nothing. A demand-mapped page that is not mapped takes a frame f of the quota: its leaf, in the table that the walk reaches, becomes f with 0x8F, valid, device, readable, writable
and a leaf; no other byte changes, so that the frame holds the zeros that the firmware keeps in free frames. A frame that a commit has write-protected counts as copied, with the bytes it had when the
commit began, which the slot holds already, and may be written again. -/
def Sys2Proof.Claims.PageFaultsResolved : Prop :=
  ∀ (s : State) (f : PageFault) (rest : List PageFault), s.thr.live = true → s.thr.resident = true → s.thr.pf = f :: rest →
    let x := modThr s fun t => { t with pf := rest }
    let kind : Kind := if f.store then .store else .load
    let p := s.thr.part
    let va := f.ea.toNat
    let resolved (t : State) : Prop := exec (.pageFaultResolve s.thr.tid) s = .next t
    (∀ e ea size, walkVA s p va = some (e, ea, size) → leafAllows e kind = true → (f.store = true → writeProtected s (leafPA e size va) = false) → resolved x)
    ∧ (∀ t4 t3 t2 t1, (∃ r ∈ (s.part p).demand, r.1 ≤ va ∧ va < r.1 + r.2) → 1 ≤ freeQuota s p → walkVA s p va = none → (s.part p).ptRoot ≠ 0 →
        (let table (base k : Nat) := getLe s.mem (base + 8 * (va / 2 ^ k % 512)) 8;
          (table (s.part p).ptRoot 48 % 2 = 1 ∧ t4 = pteFrame (table (s.part p).ptRoot 48)) ∧ (table t4 39 % 2 = 1 ∧ t3 = pteFrame (table t4 39))
          ∧ (table t3 30 % 2 = 1 ∧ t2 = pteFrame (table t3 30)) ∧ table t2 21 % 2 = 1 ∧ t1 = pteFrame (table t2 21)) →
        let frame := (takeFrame x).1;
        let leaf := t1 + 8 * (va / 4096 % 512);
        ∃ t, resolved t ∧ t.mem = setCells s.mem leaf (leBytes 8 (frame + 0x8F)) ∧ (t.part p).usedFrames = (s.part p).usedFrames + 1 ∧ (t.part p).frames = frame :: (s.part p).frames ∧ t.thr = x.thr
          ∧ (Memory.wf s.mem = true → (∀ a, frame ≤ a → a < frame + 4096 → (a < leaf ∨ leaf + 8 ≤ a) ∧ getCell s.mem a = 0) → ∀ a, frame ≤ a → a < frame + 4096 → getCell t.mem a = 0))
    ∧ (∀ e ea size, walkVA s p va = some (e, ea, size) → f.store = true → leafAllows e .store = true → writeProtected s (leafPA e size va) = true →
        ∃ t, resolved t ∧ t = { x with parts := t.parts } ∧ writeProtected t (leafPA e size va) = false
          ∧ ∀ i < 8, ∀ d c, (s.part i).domain = some d → d.commit = some c → ∃ c', (t.part i).domain = some { d with commit := some c' } ∧ c'.seq = c.seq ∧ c'.slot = c.slot ∧ c'.todo = c.todo
            ∧ ∀ a ∈ c'.copied, a ∈ c.copied ∨ a = leafPA e size va / 4096 * 4096)

/-- R284, R383: a page fault that the memory firmware cannot resolve, of a page that is not mapped for the access and is not demand-mapped or finds the quota empty, is taken, with TADDR the address: in the execute stream at once, in the
access stream once it can be entered. -/
def Sys2Proof.Claims.PageFaultsTaken : Prop :=
  ∀ (s : State) (f : PageFault) (rest : List PageFault), s.thr.live = true → s.thr.resident = true → s.thr.pf = f :: rest → f.cause = 0x05 ∨ f.cause = 0x06 → s.thr.trap = none →
    let kind : Kind := if f.store then .store else .load
    let p := s.thr.part
    let va := f.ea.toNat
    (∀ r ∈ (s.part p).demand, va < r.1 ∨ r.1 + r.2 ≤ va) ∨ freeQuota s p < 1 ∨ (walkVA s p va).isSome = true → (∀ e ea size, walkVA s p va = some (e, ea, size) → leafAllows e kind = false) →
    (f.stream = .execute → CanEnter s → ∃ t, exec (.pageFaultResolve s.thr.tid) s = .next t ∧ Entered s t .execute f.cause s.thr.ex.pc f.ea)
    ∧ (f.stream = .access → exec (.pageFaultResolve s.thr.tid) s = .next (modThr s fun t =>
        { t with pf := rest, trap := some { stream := .access, cause := f.cause, tpc := s.thr.ax.pc, taddr := f.ea }, countOff := true }))

/-- R28, R31, R26, R107: a thread both of whose streams have ended, with nothing in flight, ends and leaves its ensembles; entries left in a queue or an unpaired mark make queue
protocol error the cause that its access stream waits with (AccessTrapEntry says how it is entered). Under P2 the end is an agreement point: the thread waits there, and ends once it has agreed (R366). -/
def Sys2Proof.Claims.ThreadEnds : Prop :=
  ∀ s : State, s.thr.live = true → s.thr.resident = true → threadDone s.thr = true →
    (queuesHold s.thr = false → s.thr.sys.tstat.pclass ≠ 2 → ∃ t, exec (.threadEnd s.thr.tid) s = .next t ∧ t.thr.ended = true ∧ t.thr.uli = [] ∧ t.thr.qs.xfers = [] ∧ t.mem = s.mem
      ∧ ∀ e ∈ t.ensembles, e.has (s.thr.task, s.thr.teamIx, s.thr.thrIx) = false)
    ∧ (queuesHold s.thr = false → s.thr.sys.tstat.pclass = 2 → s.thr.rep < 2 →
        (s.thr.wait = .none → exec (.threadEnd s.thr.tid) s = .next (modThr s fun t => { t with wait := .sigchk, pointAt := s.mod.time }))
        ∧ (s.thr.wait = .agreed → ∃ t, exec (.threadEnd s.thr.tid) s = .next t ∧ t.thr.ended = true ∧ t.thr.uli = [] ∧ t.thr.qs.xfers = [] ∧ t.mem = s.mem))
    ∧ (queuesHold s.thr = true → exec (.threadEnd s.thr.tid) s = .next (modThr s fun t => { t with trap := some { stream := .access, cause := 0x10, tpc := s.thr.ax.pc, taddr := 0 }, countOff := true }))

/-- R28: a team whose threads have all ended ends: the task counts it and keeps its mailboxes, and its threads are gone. -/
def Sys2Proof.Claims.TeamEnds : Prop :=
  ∀ (s : State) (u : Team) (k : Task), findTeam s u.id = some u → u.status = .resident → u.rep = 0 → allEnded s u = true → (∀ w ∈ s.teams, w.task = u.task → w.ix = u.ix → w = u) →
    findTask s u.task = some k → ∃ t k', exec (.teamEnd u.id) s = .next t ∧ findTask t u.task = some k' ∧ u.ix ∈ k'.endedTeams ∧ k'.mbs = k.mbs.set u.ix u.mb ∧ (∀ n ∈ k.endedTeams, n ∈ k'.endedTeams) ∧ t.mem = s.mem
      ∧ ∀ x ∈ t.threads, x.live = true → x.team ≠ u.id

/-- R28, R370, R382: a task all of whose teams have ended completes, and one that is being ended completes with its status once no team of it is on a core: it leaves the module
with its teams and threads. Teams still on cores are stopped first. -/
def Sys2Proof.Claims.TaskEnds : Prop :=
  ∀ (s : State) (k : Task), findTask s k.id = some k → actionsHeld s k.launch = false →
    (k.state = .running → k.endedTeams.length = k.nteams → ∃ t, exec (.taskEnd k.id) s = .next t ∧ (∀ j ∈ t.tasks, j.id ≠ k.id) ∧ (∀ u ∈ t.teams, u.task ≠ k.id)
      ∧ ∀ x ∈ t.threads, x.live = true → x.task ≠ k.id)
    ∧ (∀ c d, k.state = .ending c d → (∀ u ∈ s.teams, u.task = k.id → u.status ≠ .resident ∧ u.status ≠ .stopping) → ∃ t, exec (.taskEnd k.id) s = .next t ∧ (∀ j ∈ t.tasks, j.id ≠ k.id)
      ∧ (∀ u ∈ t.teams, u.task ≠ k.id) ∧ ∀ x ∈ t.threads, x.live = true → x.task ≠ k.id)
    ∧ (∀ c d, k.state = .ending c d → (∃ u ∈ s.teams, u.task = k.id ∧ u.status = .resident) → ∃ t, exec (.taskEnd k.id) s = .next t ∧ t.mem = s.mem
      ∧ ∀ u ∈ t.teams, u.task = k.id → u.status ≠ .resident)

/-- R197: the far unit's notice brings a counter's value to the watch of a thread, and to the thread when it waits for no more than that value; else it goes on waiting. -/
def Sys2Proof.Claims.SemaphoreNotices : Prop :=
  ∀ (s : State) (pa : Nat) (ea want v : Word), s.notices = [{ pa := pa, value := v, dest := .thread s.thr.tid }] → s.thr.core < 192 → (∀ w ∈ s.others, w.tid ≠ s.thr.tid) →
    s.thr.wait = .swait pa ea want none → (∃ w ∈ (s.core s.thr.core).watches, w.pa = pa ∧ w.tid = s.thr.tid) →
    ∃ t, exec (.semaphoreNotice pa) s = .next t ∧ t.thr = { s.thr with wait := .swait pa ea want (if want.toNat ≤ v.toNat then some v else none) } ∧ t.others = s.others
      ∧ (∀ w ∈ (t.core s.thr.core).watches, w.pa = pa → w.tid = s.thr.tid → w.value = v) ∧ t.notices = [] ∧ t.mem = s.mem

/-! ### Duplicated execution and health -/

/-- Both replicas of a team that hold cores are told to stop for a vote at a position (R368). -/
def Sys2Proof.Machine.PairStops (s t : State) (task ix pos : Nat) : Prop :=
  ∀ x ∈ s.teams, x.task = task → x.ix = ix → x.rep < 2 → x.status = .resident → ∃ y ∈ t.teams, y.id = x.id ∧ y.rep = x.rep ∧ y.status = .stopping ∧ y.stopFor = .vote ∧ y.votePos = pos

/-- The selected thread and w are the two copies of one thread of a P2 pair (R314). -/
def Sys2Proof.Machine.Twins (s : State) (w : Thread) : Prop :=
  s.thr.live = true ∧ s.thr.resident = true ∧ s.thr.sys.tstat.pclass = 2 ∧ s.thr.rep < 2 ∧ w ∈ s.others ∧ twinOf s s.thr = some w ∧ w.tid ≠ s.thr.tid ∧ ∀ x ∈ s.threads, x.tid = w.tid → x = w

/-- R95, R230, R365, R368: AGREEMENT_POINT of a thread of a pair that waits at its point, outside a region, with no local failure of the pair. With the other copy at the point of the same ordinal, equal
signatures and the same requests held, both copies pass: their ordinals count and both go on, at a crc into its drain. Where something differs, and with AGREEMENT_TIMEOUT where the partner is more than 1 ms
late, both replicas stop for a vote at that point; until then a copy whose partner is not there waits. After a local failure of the pair, the other replica stops here. An Understudy passes the points that the pair has passed. Where the rules leave a corner open the model's choice is that of log 29. -/
def Sys2Proof.Claims.AgreementPoints : Prop :=
  (∀ (s : State) (w : Thread) (u : Team), Twins s w → s.thr.wait = .sigchk → s.thr.forced = false → s.thr.inRegion = false → findTeam s s.thr.team = some u → u.task = s.thr.task → u.ix = s.thr.teamIx → u.suspect = none →
    let there : Prop := w.wait = .sigchk ∧ w.forced = false ∧ w.ordinal = s.thr.ordinal
    let equal : Prop := w.sys.sigs = s.thr.sys.sigs ∧ w.sys.sigv = s.thr.sys.sigv ∧ s.thr.held.map HeldReq.key = w.held.map HeldReq.key ∧ s.thr.late.map HeldReq.key = w.late.map HeldReq.key
    let votes (i : Instr) : Prop := ∃ t, exec i s = .next t ∧ PairStops s t s.thr.task s.thr.teamIx s.thr.point ∧ t.thr.ordinal = s.thr.ordinal ∧ t.thr.wait = .sigchk ∧ t.mem = s.mem
    (there → equal → (∀ l ∈ s.thr.wings ++ w.wings, commitHolds s l.unit 64 = false) →
        ∃ t w', exec (.agreementPoint s.thr.tid) s = .next t ∧ t.thr.ordinal = s.thr.ordinal + 1 ∧ t.thr.wait = (if s.thr.crcMark.isSome then .drain else .agreed) ∧ (∀ l ∈ t.thr.wings, l.held = false)
          ∧ w' ∈ t.others ∧ w'.tid = w.tid ∧ w'.ordinal = w.ordinal + 1 ∧ w'.wait = (if w.crcMark.isSome then .drain else .agreed) ∧ (∀ l ∈ w'.wings, l.held = false) ∧ (s.thr.wings = [] → w.wings = [] → t.mem = s.mem))
    ∧ (there → ¬ equal → votes (.agreementPoint s.thr.tid))
    ∧ (¬ there → exec (.agreementPoint s.thr.tid) s = .next s
        ∧ (s.thr.pointAt + 1400000 < s.mod.time → votes (.agreementTimeout s.thr.tid)) ∧ (s.mod.time ≤ s.thr.pointAt + 1400000 → exec (.agreementTimeout s.thr.tid) s = .next s)))
  ∧ (∀ (s : State) (u : Team) (r : Nat), s.thr.live = true → s.thr.resident = true → s.thr.sys.tstat.pclass = 2 → s.thr.rep < 2 → s.thr.wait = .sigchk → findTeam s s.thr.team = some u → u.status = .resident → u.task = s.thr.task → u.ix = s.thr.teamIx →
      u.suspect = some r → r ≠ s.thr.rep → ∃ t u', exec (.agreementPoint s.thr.tid) s = .next t ∧ findTeam t u.id = some u' ∧ u'.status = .stopping ∧ u'.stopFor = .vote ∧ u'.votePos = s.thr.point ∧ t.thr = s.thr ∧ t.mem = s.mem)
  ∧ ∀ (s : State) (w : Thread), s.thr.live = true → s.thr.resident = true → s.thr.sys.tstat.pclass = 2 → s.thr.rep = 2 → s.thr.wait = .sigchk → s.thr.forced = false → s.thr.crcMark = none →
      w ∈ s.others → w.task = s.thr.task → w.teamIx = s.thr.teamIx → w.thrIx = s.thr.thrIx → w.rep < 2 → s.thr.ordinal < w.ordinal →
      ∃ t, exec (.agreementPoint s.thr.tid) s = .next t ∧ t.thr.ordinal = s.thr.ordinal + 1 ∧ t.thr.wait = .agreed ∧ t.mem = s.mem

/-- R204, R361: an operation of a pair is performed once, when the second replica presents the same request: here srd under P2. The first replica that presents it waits; a different request stops both replicas for a vote. In a region that the
other replica has unwound, this one unwinds it too. -/
def Sys2Proof.Claims.PairedRequests : Prop :=
  ∀ (s : State) (d a : Reg) (pa : Nat) (pte : Option Nat) (w : Thread), s.cur = .execute → Ready s [d, a] → Twins s w → s.thr.pairRes = none →
    translate s s.thr .load (readReg s a) 8 8 true = .ok pa pte → poisonedIn s pa 8 = false →
    let req := [6, (readReg s a).toNat]
    (s.thr.inRegion = false ∨ s.thr.unwindDue = [] →
      (w.pairReq = none → ∃ t, exec (.srd d a) s = .next t ∧ t.pc = s.pc ∧ t.thr.pairReq = some req ∧ t.thr.g = s.thr.g ∧ t.others = s.others ∧ t.mem = s.mem)
      ∧ (∀ u, w.pairReq ≠ none → w.pairReq ≠ some req → s.thr.inRegion = false → findTeam s s.thr.team = some u → u.task = s.thr.task → u.ix = s.thr.teamIx →
          ∃ t, exec (.srd d a) s = .next t ∧ PairStops s t s.thr.task s.thr.teamIx (requestPos s.thr.thrIx 0 s.thr.logIx) ∧ t.pc = s.pc ∧ t.thr.g = s.thr.g ∧ t.mem = s.mem)
      ∧ (w.pairReq = some req → ∃ t w', exec (.srd d a) s = .next t ∧ Gave s t d (BitVec.ofNat 64 (getLe s.mem pa 8)) ∧ w' ∈ t.others ∧ w'.tid = w.tid
          ∧ w'.pairRes = some (BitVec.ofNat 64 (getLe s.mem pa 8)) ∧ t.mem = s.mem))
    ∧ (∀ c rest, s.thr.inRegion = true → s.thr.unwindDue = c :: rest → exec (.srd d a) s = .next (unwind s c))

/-- R369, R370: VOTE of an Understudy u at the vote position, the pair's replicas being p and l. Where it agrees with one of them and not with the other, the winner is replica 0, the Understudy replica 1, both are suspended, the other is gone, and the
scores of the cores that held a thread of the loser go up by 1. After a local failure the survivor wins so, and no score changes. Where it agrees with none, the task ends CHECKFAIL, with no score changed. Where both
agree with it the spec names no loser: that replica 0 wins, and no score changes, is the model's choice (log 29). At the end of the team the winner's team has ended. An Understudy that failed is replaced while fewer than
three have started, and after that the task ends CHECKFAIL. -/
def Sys2Proof.Claims.Votes : Prop :=
  ∀ (s : State) (u p l : Team), findTeam s u.id = some u → findTeam s p.id = some p → findTeam s l.id = some l → u.rep = 2 → p.rep = 0 → l.rep = 1 → replicasOf s u = [p, l, u] →
    p.id ≠ l.id → p.id ≠ u.id → l.id ≠ u.id → u.part < 8 →
    let agrees (w : Team) : Prop := agreesAt s u w p.votePos = true
    let held (w : Team) (c : Nat) : Prop := ∃ x ∈ s.threads, x.live = true ∧ x.team = w.id ∧ x.core = c
    let pairs (w x : Team) (t : State) : Prop := (∀ v ∈ t.teams, v.id ≠ x.id) ∧ (∃ w', findTeam t w.id = some w' ∧ w'.rep = 0 ∧ w'.status = .suspended) ∧ (∃ u', findTeam t u.id = some u' ∧ u'.rep = 1 ∧ u'.status = .suspended) ∧ t.mem = s.mem
    let fails (cause : Nat) : Prop := ∀ k, findTask s u.task = some k → k.state = .running → ∃ t k', exec (.vote u.id) s = .next t ∧ findTask t u.task = some k' ∧ k'.state = .ending 0x0E (u.ix * 256 + cause) ∧ t.cores = s.cores ∧ t.mem = s.mem
    let there : Prop := u.status = .resident ∧ reached s u p.votePos = true
    (there → p.votePos ≠ endPos → p.suspect = none →
      (∀ w x, (w = p ∧ x = l) ∨ (w = l ∧ x = p) → agrees w → ¬ agrees x → ∃ t, exec (.vote u.id) s = .next t ∧ pairs w x t
        ∧ ∀ c < 192, (held x c → (t.core c).score.toNat = min ((s.core c).score.toNat + 1) 15) ∧ (¬ held x c → (t.core c).score = (s.core c).score))
      ∧ (agrees p → agrees l → ∃ t, exec (.vote u.id) s = .next t ∧ pairs p l t ∧ t.cores = s.cores))
    ∧ (there → p.votePos ≠ endPos → ∀ w x, (w = p ∧ x = l) ∨ (w = l ∧ x = p) → p.suspect = some x.rep → agrees w → ∃ t, exec (.vote u.id) s = .next t ∧ pairs w x t ∧ t.cores = s.cores)
    ∧ (there → p.votePos = endPos → p.suspect = none → ∀ w x, (w = p ∧ x = l) ∨ (w = l ∧ x = p) → agrees w → ¬ agrees x → ∀ k, findTask s u.task = some k →
        ∃ t k' w', exec (.vote u.id) s = .next t ∧ (∀ v ∈ t.teams, v.id ≠ x.id) ∧ findTask t u.task = some k' ∧ u.ix ∈ k'.endedTeams ∧ findTeam t w.id = some w' ∧ w'.rep = 0 ∧ w'.status = .ended ∧ t.mem = s.mem)
    ∧ (there → p.suspect = none → ¬ agrees p → ¬ agrees l → fails 0x0B)
    ∧ (u.status = .ended → (p.starts < 3 → ∃ t, exec (.vote u.id) s = .next t ∧ (∀ w ∈ t.teams, w.id ≠ u.id) ∧ t.mem = s.mem ∧ { kind := 2, subject := p.id } ∈ (t.part u.part).pending)
        ∧ (3 ≤ p.starts → p.suspect = none → fails 0x0B))

/-- R299, R358-R360: a corrected error is counted and changes no value; an uncorrectable one poisons the 64-byte unit or the accumulator row it lies in, and one of an array without marks raises check mismatch with its next use: of the
instruction that a stream issues next, or at a head command. A scrub changes nothing, and a flit that was sent again is counted. -/
def Obligations.StorageErrors : Prop :=
  ∀ (s : State) (pa off tid ac row : Nat) (vis : Bool) (use : ArrayUse) (st : Stream),
    exec (.scrub pa) s = .next s
    ∧ (∀ w ∈ [EccWhere.mem pa true, .spad tid off true, .acc tid ac row vis true, .array tid use true, .prompter tid st true], exec (.eccError w) s = .next { s with mod := { s.mod with corrected := s.mod.corrected + 1 } })
    ∧ exec (.eccError .flit) s = .next { s with mod := { s.mod with retries := s.mod.retries + 1 } }
    ∧ (Config.backed pa = true → ∃ t, exec (.eccError (.mem pa false)) s = .next t ∧ pa / 64 * 64 ∈ t.poison ∧ (∀ q ∈ s.poison, q ∈ t.poison) ∧ t.mem = s.mem ∧ t.thr = s.thr)
    ∧ (∃ t, exec (.eccError (.spad s.thr.tid off false)) s = .next t ∧ off / 64 * 64 ∈ t.thr.spadPoison ∧ t.thr.spad = s.thr.spad ∧ t.mem = s.mem)
    ∧ (ac < 6 → row < 256 → ∃ t, exec (.eccError (.acc s.thr.tid ac row vis false)) s = .next t ∧ t.mem = s.mem
        ∧ row ∈ (if vis then (nth t.thr.acc ac Acc.zero).visPoison else (nth t.thr.acc ac Acc.zero).workPoison) ∧ (nth t.thr.acc ac Acc.zero).vis = (nth s.thr.acc ac Acc.zero).vis
        ∧ (nth t.thr.acc ac Acc.zero).work = (nth s.thr.acc ac Acc.zero).work)
    ∧ (mayIssue s s.thr st = true → exec (.eccError (.array s.thr.tid (.issue st) false)) s = .next (raise s st 0x0B (s.thr.st st).pc 0)
        ∧ (s.thr.sys.tstat.pclass ≠ 0 → exec (.eccError (.prompter s.thr.tid st false)) s = .next (raise s st 0x0B (s.thr.st st).pc 0)))
    ∧ (s.thr.live = true → s.thr.resident = true → ∀ c rest, s.thr.vq = c :: rest → cmdReady s s.thr c s.thr.mq = true →
        exec (.eccError (.array s.thr.tid .vector false)) s = .next (commandFault s c 0x0B 0 fun t => { t with vq := rest }))

/-- R371: every 24 hours of powered time, of 1.4 GHz C-cycles, the suspicion score of every core in service is halved; any other core keeps its score. Which cores are in service, beside those that are not retired, is the model's choice (log 62). -/
def Sys2Proof.Claims.ScoresHalve : Prop :=
  ∀ s : State, (s.mod.powered < 86400 * 1400000000 → exec .scoreHalving s = .next s)
    ∧ (86400 * 1400000000 ≤ s.mod.powered → ∃ t, exec .scoreHalving s = .next t ∧ t.mem = s.mem ∧ t.thr = s.thr ∧ t.teams = s.teams ∧ t.mod.powered = s.mod.powered - 86400 * 1400000000 ∧ ∀ c < 192,
      let on : Prop := (s.core c).retired = false ∧ (s.core c).testing = false ∧ ((List.range 16).filter fun k => (s.core (16 * (c / 16) + k)).retired).length < 4;
      (on → (t.core c).score.toNat = (s.core c).score.toNat / 2) ∧ (¬ on → (t.core c).score = (s.core c).score) ∧ (t.core c).retired = (s.core c).retired)

/-- R374, R372: once TESTINT seconds of TIME have passed since the latest test fell due, in PS0 the next core in rotating order that is in service and not barred is drained and tested; in PS1 and PS2 the test waits for PS0. When it passes the core is
free again, when it fails its score is 15 and it retires. -/
def Sys2Proof.Claims.InFieldTests : Prop :=
  ∀ (s : State) (c : Nat), c < 192 →
    let due := s.mod.cfg.testInt ≠ 0 ∧ s.mod.testAt + s.mod.cfg.testInt * 1400000000 ≤ s.mod.time
    (due → s.mod.power = .ps0 → s.mod.testNext = c → (s.core c).retired = false → (s.core c).testing = false → testBarred s c = false →
      ∃ t, exec .inFieldTest s = .next t ∧ (t.core c).testing = true ∧ t.mod.testNext = (c + 1) % 192 ∧ t.mod.testAt = s.mod.testAt + s.mod.cfg.testInt * 1400000000 ∧ t.mem = s.mem
        ∧ ∀ u ∈ s.teams, u.status = .resident → (∃ x ∈ s.threads, x.team = u.id ∧ x.live = true ∧ x.resident = true ∧ x.core = c) → ∃ v ∈ t.teams, v.id = u.id ∧ v.status = .stopping)
    ∧ (due → s.mod.power = .ps1 ∨ s.mod.power = .ps2 → exec .inFieldTest s = .next { s with mod := { s.mod with testDue := true, testAt := s.mod.testAt + s.mod.cfg.testInt * 1400000000 } })
    ∧ (¬ due → exec .inFieldTest s = .next s)
    ∧ ((s.core c).testing = true → (∀ x ∈ s.threads, x.core ≠ c ∨ x.resident = false ∨ x.live = false) →
      (∃ t, exec (.inFieldTestDone c true) s = .next t ∧ (t.core c).testing = false ∧ (t.core c).pass = true ∧ (t.core c).retired = (s.core c).retired ∧ t.mod.testTime = s.mod.time ∧ t.mem = s.mem)
      ∧ ∃ t, exec (.inFieldTestDone c false) s = .next t ∧ (t.core c).testing = false ∧ (t.core c).pass = false ∧ (t.core c).score = 15 ∧ (t.core c).retired = true ∧ t.mod.testTime = s.mod.time ∧ t.mem = s.mem)

/-! ### Decisions of the Stage Manager -/

/-- R237, R246, R250, R310, R317-R319: a DISPATCH and a FAULT that may start, with the built-in policy, do what it decides for the best candidate and for the team that waits. -/
def Sys2Proof.Claims.BuiltInDecisions : Prop :=
  ∀ (s x : State) (p : Nat) (d : Pending), p < 8 → (s.part p).cueActive = none → (s.part p).cueStat.swapPend = false →
    (∀ c, startable s p 0 = some d → dispatchCands (dropPending s p d) p = [c] → commitDispatch (dropPending s p d) p c.subject none none = some (true, x) → exec (.dispatch p) s = .next x)
    ∧ (startable s p 0 = some d → dispatchCands (dropPending s p d) p = [] → exec (.dispatch p) s = .next (dropPending s p d))
    ∧ (∀ u k n, startable s p 2 = some d → d.subject = u.id → findTeam s u.id = some u → findTask s u.task = some k → u.status = .faultWait n → n ≠ 4 → (teamCaps s k u).testBit 0 = false →
        commitFault (dropPending s p d) u none none = some x → exec (.fault p) s = .next x)

/-- R238, R246, R316: with a cue program in force a decision starts the program at its entry for the kind, with the candidates of its view; it commits nothing yet. -/
def Sys2Proof.Claims.CueDecisionStarts : Prop :=
  ∀ (s : State) (p : Nat) (d : Pending) (prog : CueImage), p < 8 → (s.part p).cueActive = some prog → (s.part p).cueStat.swapPend = false → (s.part p).cueStat.disabled = false →
    prog.entries.getD 3 0xFFFF ≠ 0xFFFF → startable s p 3 = some d →
    ∃ t, exec (.rebalance p) s = .next t ∧ (t.part p).run.active = true ∧ (t.part p).run.kind = 3 ∧ (t.part p).run.pc = prog.entries.getD 3 0xFFFF ∧ (t.part p).run.code = prog.code
      ∧ (t.part p).run.cands.length = min (rebalCands (dropPending s p d) p).length 64 ∧ (t.part p).pending = (s.part p).pending.erase d ∧ t.teams = s.teams ∧ t.mem = s.mem

/-- R250, R311, R312, R316: PREEMPT under the built-in policy stops the resident team of lower priority when the candidate that raised it does not fit, and asks for a DISPATCH when it fits or is no candidate any more; REBALANCE is raised once REBAL
microseconds have passed and a chiplet is overloaded, and PREEMPT for a head older than STARVE. -/
def Sys2Proof.Claims.PreemptAndPeriods : Prop :=
  ∀ (s : State) (p : Nat) (d : Pending), p < 8 →
    (∀ u k j, (s.part p).cueActive = none → (s.part p).cueStat.swapPend = false → startable s p 1 = some d → findTask s d.subject = some k → isCandidate (dropPending s p d) k = true → raiserFits (dropPending s p d) k = false → 1 ≤ (s.part p).nimg →
        s.teams = [u] → u.part = p → u.status = .resident → u.rep = 0 → findTask s u.task = some j → j.pin = false → prioOf s j < prioOf s k → 2 ≤ k.pclass →
        ∃ t u', exec (.preempt p) s = .next t ∧ findTeam t u.id = some u' ∧ u'.status = .stopping ∧ u'.stopFor = .preempt ∧ (t.part p).preempts = (s.part p).preempts + 1 ∧ t.mem = s.mem)
    ∧ (∀ k, (s.part p).cueActive = none → (s.part p).cueStat.swapPend = false → startable s p 1 = some d → findTask s d.subject = some k → isCandidate (dropPending s p d) k = false ∨ raiserFits (dropPending s p d) k = true →
        ∃ t, exec (.preempt p) s = .next t ∧ { kind := 0, subject := 0 } ∈ (t.part p).pending ∧ t.teams = s.teams ∧ t.mem = s.mem)
    ∧ (let due := scheduling s p = true ∧ (s.part p).rebal ≠ 0 ∧ (∃ c ∈ allChips, overloaded s p c = true) ∧ (s.part p).rebal ≤ (s.mod.time - (s.part p).lastRebal) / 1400;
      (due → ∃ t, exec (.rebalPeriod p) s = .next t ∧ { kind := 3, subject := 0 } ∈ (t.part p).pending ∧ (t.part p).lastRebal = s.mod.time ∧ t.teams = s.teams ∧ t.mem = s.mem)
      ∧ (¬ due → exec (.rebalPeriod p) s = .next s))
    ∧ (∀ c, scheduling s p = true → (s.part p).starve ≠ 0 → preemptUnderWay s p = false → imagesHeld s p < (s.part p).nimg → dispatchCands s p = [c] → c.row.getD 7 0 = 0 →
        (s.part p).starve * 1000 < c.row.getD 1 0 → ∃ t, exec (.starveTimeout p) s = .next t ∧ { kind := 1, subject := c.subject } ∈ (t.part p).pending ∧ t.teams = s.teams ∧ t.mem = s.mem)

/-- R385, R206, R315-R317, R349: a stop takes the team's stagehand records into its image; the drained team of a pre-emption leaves its cores and is suspended at home; the first team of the resume list that fits resumes at its
place, when no staged team takes its room and no FAULT decision is before it; the message of a move, when its turn to the chiplet comes and the route is lit, makes the target its home. -/
def Obligations.StopResumeMove : Prop :=
  ∀ (s : State) (u : Team), findTeam s u.id = some u →
    (u.status = .stopping → u.rep = 0 → ∃ t : State, exec (.stop u.id) s = .next t ∧ t = { s with eng := t.eng } ∧ t.eng.length = s.eng.length
        ∧ ∀ (i : Nat) (r : EngRec), s.eng[i]? = some r → t.eng[i]? = some (if leavesQueue u r then { r with status := .imaged } else r))
    ∧ (replicasOf s u = [u] → u.rep = 0 → teamDrained s u = true → u.stopFor = .preempt → (∀ w ∈ s.teams, w.status ≠ .staged) → ∃ t u', exec (.stopComplete u.id) s = .next t ∧ findTeam t u.id = some u'
        ∧ u'.status = .suspended ∧ u'.home = u.chip ∧ u'.since = s.mod.time ∧ (∀ x ∈ t.threads, x.team = u.id → x.resident = false) ∧ t.mem = s.mem)
    ∧ (∀ ps, scheduling s u.part = true → firstPending s u.part 2 = none → faultRuns s u.part = false → stagedFree s u.part = false → u.status = .suspended → nextResume s u.part = some (u, ps) →
        exec (.teamResume u.id) s = .next (ps.foldl (fun s x => seatTeam s x.1 x.2) s))
    ∧ (∀ c, s.fabric.find? (fun m => m.1 == u.id) = some (u.id, c) → s.fabric.find? (fun m => m.2 == c) = some (u.id, c) → (route s Config.ioDie c).isSome = true → u.moving = some c → replicasOf s u = [u] →
        (∀ w ∈ s.teams, w.id = u.id → w = u) → u.status = .suspended → (scheduling s u.part = false ∨ ∀ k, findTask s u.task = some k → k.state ≠ .running) → ∃ t u', exec (.moveMessage u.id) s = .next t
        ∧ findTeam t u.id = some u' ∧ u'.home = c ∧ u'.moving = none ∧ t.fabric = s.fabric.erase (u.id, c) ∧ t.mem = s.mem)


/-! ### Vector and matrix engines -/

/-- An engine instruction of two words issues: its tests pass, its registers are ready and its queue has room (R55, R62-R65, R144, R150). -/
def Sys2Proof.Machine.EngineReady (s : State) (k : Kinds) (f : Wide) (room : Bool) : Prop :=
  atLoopEnd s = false ∧ allAllocated s.thr k (rename s.thr k f) = true ∧ Ready s (gRegs k f) ∧ room = true

/-- The vector instructions with the kinds of their fields and the format codes that R129 and R168 let each accept. -/
def Sys2Proof.Machine.vectorForms (f : Wide) (shp : Word) : List ((Wide → Instr) × Kinds × Bool) :=
  let num := accept f shp isNUM true true
  let numExact := accept f shp isNUM true false
  let int := accept f shp isINT true false
  let all := accept f shp isALL true false
  let x := shapeOf shp
  [(.vadd, kVVV, num), (.vsub, kVVV, num), (.vmul, kVVV, num), (.vfma, kVVVV, num), (.vfms, kVVVV, num), (.vmin, kVVV, numExact), (.vmax, kVVV, numExact),
    (.vabs, kVV, accept f shp isSignedNUM true false), (.vneg, kVV, accept f shp isSignedNUM true false), (.vaddsat, kVVV, int), (.vsubsat, kVVV, int)]
  ++ [(.vceq, kPVV, numExact), (.vcne, kPVV, numExact), (.vclt, kPVV, numExact), (.vcle, kPVV, numExact), (.vcgt, kPVV, numExact), (.vcge, kPVV, numExact)]
  ++ [(.pand, kPPP, accept000 f true), (.por, kPPP, accept000 f true), (.pxor, kPPP, accept000 f true), (.pnot, kPP, accept000 f true), (.pset, kPG, accept000 f false)]
  ++ [(.vand, kVVV, int), (.vor, kVVV, int), (.vxor, kVVV, int), (.vandn, kVVV, int), (.vnot, kVV, int), (.vshl, kVVV, int), (.vshr, kVVV, int), (.vsra, kVVV, int),
    (.vshli, kVV, accept f shp isINT false false), (.vshri, kVV, accept f shp isINT false false), (.vsrai, kVV, accept f shp isINT false false)]
  ++ [(.vrsumr, kVV, num), (.vrsumc, kVV, num), (.vrmaxr, kVV, numExact), (.vrmaxc, kVV, numExact), (.vrminr, kVV, numExact), (.vrminc, kVV, numExact)]
  ++ [(.vbcast, { kVV with a := bcastSrc f }, all), (.vtrans, kVV, all && decide (x.nr * x.w ≤ 512)), (.vperm, kVVV, all),
    (.vshuf, { kVVV with b := shufSrc f }, all && (decide (f.mod.toNat / 2048 = 4) || x.nc % 2 == 0)), (.vcomp, { kVV with c := .g }, all), (.vexpd, kVV, all), (.vsel, kVVV, all), (.vmov, kVV, all),
    (.vmovi, { kVV with a := .unused }, accept f shp isMoviType false false)]
  ++ [(.vld, { kVV with a := .g }, all), (.vst, { d := .unused, a := .g, b := .v, c := .unused }, all), (.vldac, { kVV with a := .a }, accept f shp is32 false false && vldacFits f shp),
    (.pst, { d := .unused, a := .g, b := .p, c := .unused }, accept000 f true), (.pld, kPG, accept000 f true)]
  ++ [(.cvt, kVV, cvtOk f shp), (.cvtsr, kVVV, cvtsrOk f shp), (.rng, { d := .vdst, a := .g, b := .g, c := .unused }, accept f shp (fun t => decide (t.bits = 32) && isINT t) true false)]

/-- A vector instruction whose format codes are accepted: with its registers allocated and ready and room in the queue it completes and stands last in the vector
command queue, with the V and P names it reaches, SHP and its G operands as they are now; a full queue stalls it. -/
def Sys2Proof.Machine.VectorQueues (mk : Wide → Instr) (k : Kinds) (s : State) (f : Wide) (accepted : Bool) : Prop :=
  accepted = true →
    (EngineReady s k f (queueFree s 32 4 (·.vq)) →
      Completes (mk f) s (modThr { s with stamp := s.stamp + 1 } fun t => { t with vq := t.vq ++ [newCmd s mk k f], cmdix := t.cmdix + 1 }) 2)
    ∧ (EngineReady s k f true → queueFree s 32 4 (·.vq) = false → Stalls (mk f) s .listed)

/-- R129, R144, R168: which format codes each vector instruction accepts; an accepted one with its registers allocated and ready completes into the vector command queue when it has room. -/
def Sys2Proof.Claims.VectorInstructionsIssue : Prop :=
  ∀ (s : State) (f : Wide),
    let x := shapeOf s.thr.shp
    let ok := accept f s.thr.shp
    let num := ok isNUM true true
    let exact := ok isNUM true false
    let int := ok isINT true false
    let all := ok isALL true false
    let q (mk : Wide → Instr) (k : Kinds) (a : Bool) : Prop := VectorQueues mk k s f a
    (q .vadd kVVV num ∧ q .vsub kVVV num ∧ q .vmul kVVV num ∧ q .vfma kVVVV num ∧ q .vfms kVVVV num ∧ q .vmin kVVV exact ∧ q .vmax kVVV exact
      ∧ q .vabs kVV (ok isSignedNUM true false) ∧ q .vneg kVV (ok isSignedNUM true false) ∧ q .vaddsat kVVV int ∧ q .vsubsat kVVV int)
    ∧ (q .vceq kPVV exact ∧ q .vcne kPVV exact ∧ q .vclt kPVV exact ∧ q .vcle kPVV exact ∧ q .vcgt kPVV exact ∧ q .vcge kPVV exact
      ∧ q .pand kPPP (accept000 f true) ∧ q .por kPPP (accept000 f true) ∧ q .pxor kPPP (accept000 f true) ∧ q .pnot kPP (accept000 f true) ∧ q .pset kPG (accept000 f false))
    ∧ (q .vand kVVV int ∧ q .vor kVVV int ∧ q .vxor kVVV int ∧ q .vandn kVVV int ∧ q .vnot kVV int ∧ q .vshl kVVV int ∧ q .vshr kVVV int ∧ q .vsra kVVV int
      ∧ q .vshli kVV (ok isINT false false) ∧ q .vshri kVV (ok isINT false false) ∧ q .vsrai kVV (ok isINT false false))
    ∧ (q .vrsumr kVV num ∧ q .vrsumc kVV num ∧ q .vrmaxr kVV exact ∧ q .vrmaxc kVV exact ∧ q .vrminr kVV exact ∧ q .vrminc kVV exact)
    ∧ (q .vbcast { kVV with a := bcastSrc f } all ∧ q .vtrans kVV (all && decide (x.nr * x.w ≤ 512)) ∧ q .vperm kVVV all
      ∧ q .vshuf { kVVV with b := shufSrc f } (all && (decide (f.mod.toNat / 2048 = 4) || x.nc % 2 == 0)) ∧ q .vcomp { kVV with c := .g } all ∧ q .vexpd kVV all
      ∧ q .vsel kVVV all ∧ q .vmov kVV all ∧ q .vmovi { kVV with a := .unused } (ok isMoviType false false))
    ∧ (q .vld { kVV with a := .g } all ∧ q .vst { d := .unused, a := .g, b := .v, c := .unused } all ∧ q .vldac { kVV with a := .a } (ok is32 false false && vldacFits f s.thr.shp)
      ∧ q .pst { d := .unused, a := .g, b := .p, c := .unused } (accept000 f true) ∧ q .pld kPG (accept000 f true))
    ∧ (q .cvt kVV (cvtOk f s.thr.shp) ∧ q .cvtsr kVVV (cvtsrOk f s.thr.shp) ∧ q .rng { d := .vdst, a := .g, b := .g, c := .unused } (ok (fun t => decide (t.bits = 32) && isINT t) true false))

/-- R153, R177: the Q4 weight load, tint and tload run on an N-class chiplet as the other engine instructions do; on an M-class chiplet they raise migrate with TADDR their words. -/
def Sys2Proof.Claims.MigratingInstructions : Prop :=
  ∀ (s : State) (f : Wide),
    let kg : Kinds := { d := .unused, a := .g, b := .unused, c := .unused }
    (s.thr.core / 16 % 3 = 2 →
      VectorQueues .tint kVV s f (accept f s.thr.shp isFP true true) ∧ VectorQueues .tload kg s f (accept000 f true)
      ∧ (accept000 f true = true → EngineReady s kMat f (queueFree s 16 2 (·.mq)) → (extentAt s s.thr (readG s.thr f.va.toNat) 16904 64).isSome = true →
        Completes (.mwldq f) s (modThr { s with stamp := s.stamp + 1 } fun t => { t with mq := t.mq ++ [newCmd s .mwldq kMat f], cmdix := t.cmdix + 1 }) 2))
    ∧ (s.thr.core / 16 % 3 ≠ 2 → atLoopEnd s = false →
      (allAllocated s.thr kVV (rename s.thr kVV f) = true → exec (.tint f) s = .next (raise s s.cur 0x02 s.pc (wordsValue (.tint f))))
      ∧ exec (.tload f) s = .next (raise s s.cur 0x02 s.pc (wordsValue (.tload f)))
      ∧ exec (.mwldq f) s = .next (raise s s.cur 0x02 s.pc (wordsValue (.mwldq f))))

/-- R62-R66, R55: a vector instruction at the end of a loop body, or that names a register the task has not allocated, is illegal; one with a format code it does not accept is a format fault. TADDR holds its words. Which of several faults of one command is taken is the model's choice (log 27). -/
def Sys2Proof.Claims.VectorInstructionFaults : Prop :=
  ∀ (s : State) (f : Wide), ∀ e ∈ vectorForms f s.thr.shp,
    (atLoopEnd s = true ∨ allAllocated s.thr e.2.1 (rename s.thr e.2.1 f) = false → exec (e.1 f) s = .next (raise s s.cur 0x01 s.pc (wordsValue (e.1 f))))
    ∧ (EngineReady s e.2.1 f true → e.2.2 = false → exec (e.1 f) s = .next (raise s s.cur 0x16 s.pc (wordsValue (e.1 f))))

/-- R123, R124: shp and shpr set SHP to a valid shape word, shpr answering the old one; a reserved bit, a reserved width, a row above 512 bytes or a tile above 8,192, or a format code that is not 0, raises
format fault, and nothing is written. -/
def Sys2Proof.Claims.ShapeInstructions : Prop :=
  ∀ (s : State) (f : Wide), atLoopEnd s = false →
    let good (w : Word) : Prop := w.toNat < 2 ^ 19 ∧ w.toNat / 2 ^ 17 < 3 ∧ (w.toNat % 2 ^ 9 + 1) * 2 ^ (w.toNat / 2 ^ 17) ≤ 512 ∧ (w.toNat / 512 % 256 + 1) * (w.toNat % 512 + 1) * 2 ^ (w.toNat / 2 ^ 17) ≤ 8192
    (let w := BitVec.ofNat 64 (f.imm.toNat / 8192 * 2 ^ 17 + f.imm.toNat / 128 % 64 * 512 + f.imm.toNat % 128);
      (accept000 f false = true → good w → Completes (.shp f) s (modThr s fun t => { t with shp := w }) 2)
      ∧ (accept000 f false = false ∨ ¬ good w → exec (.shp f) s = .next (raise s s.cur 0x16 s.pc (wordsValue (.shp f)))))
    ∧ (∀ d a : Reg, f.vd.toNat = d.toNat → f.va.toNat = a.toNat → Ready s [d, a] →
      (accept000 f true = true → good (readReg s a) → Completes (.shpr f) s (modThr (writeReg s d s.thr.shp) fun t => { t with shp := readReg s a }) 2)
      ∧ (accept000 f true = false ∨ ¬ good (readReg s a) → exec (.shpr f) s = .next (raise s s.cur 0x16 s.pc (wordsValue (.shpr f)))))

/-- The vector engine of its core takes the command at the head of the thread's queue at this boundary (R324); no predicate write of the loop hardware is waiting (log 23). -/
def Sys2Proof.Machine.VectorHead (s : State) (c : Cmd) (rest : List Cmd) : Prop :=
  s.thr.live = true ∧ s.thr.resident = true ∧ s.thr.vq = c :: rest ∧ vectorChoice s s.thr.core = some s.thr.ctx ∧ s.thr.loopP = [] ∧ shapeValid c.shp = true

/-- The V, Q and Z registers of the thread are in canonical form, as every command leaves them. -/
def Sys2Proof.Machine.TilesWf (s : State) : Prop := Memory.wf s.thr.v = true ∧ Memory.wf s.thr.q = true ∧ Memory.wf s.thr.z = true

/-- A command has left the queue: outside the thread only the core's memory of which context it took last changes, inside it nothing that is not said elsewhere. -/
structure Sys2Proof.Machine.CommandDone (s t : State) (c : Cmd) (rest : List Cmd) : Prop where
  queue : t.thr.vq = rest
  outside : t = { s with thr := t.thr, cores := t.cores }
  thread : t.thr = { s.thr with vq := rest, v := t.thr.v, q := t.thr.q, z := t.thr.z, p := t.thr.p, g := t.thr.g, gi := t.thr.gi, ex := t.thr.ex, snapG := t.thr.snapG, table := t.thr.table, spad := t.thr.spad
                                spadPoison := t.thr.spadPoison, sys := { s.thr.sys with sigv := t.thr.sys.sigv, pcnt := t.thr.sys.pcnt } }
  stream : t.thr.ex = { s.thr.ex with marks := t.thr.ex.marks }

/-- A command that writes n elements of w bytes, cols of them to a row, to the V or Q register VD names, and no other register (R125, R126, R128, R147): val e is the value of element e, none where it is not active. An inactive element
is kept, or zeroed with ZM; a Q register takes row 0. A V result shifts the last-result file. SIGV folds VD and the bytes of the destination. -/
structure Sys2Proof.Machine.TileDone (s t : State) (c : Cmd) (rest : List Cmd) (f : Wide) (n cols w : Nat) (val : Nat → Option Nat) : Prop where
  done : CommandDone s t c rest
  form : TilesWf t
  v : f.vd.toNat < 96 →
    (∀ e < n, getLe t.thr.v (f.vd.toNat * 8192 + e * w) w = match val e with
      | some x => x % 2 ^ (8 * w)
      | none => if f.zm then 0 else getLe s.thr.v (f.vd.toNat * 8192 + e * w) w)
    ∧ (∀ a, (a < f.vd.toNat * 8192 ∨ f.vd.toNat * 8192 + n * w ≤ a) → getCell t.thr.v a = getCell s.thr.v a)
    ∧ (∀ a, getCell t.thr.z a = if a < 8192 then getCell t.thr.v (f.vd.toNat * 8192 + a) else if a < 32768 then getCell s.thr.z (a - 8192) else 0)
    ∧ t.thr.q = s.thr.q ∧ t.thr.sys.sigv = crc64 s.thr.sys.sigv (c.vd.setWidth 8 :: getCells t.thr.v (f.vd.toNat * 8192) (n * w))
  q : 96 ≤ f.vd.toNat →
    (∀ e < min cols n, getLe t.thr.q ((f.vd.toNat - 96) * 512 + e * w) w = match val e with
      | some x => x % 2 ^ (8 * w)
      | none => if f.zm then 0 else getLe s.thr.q ((f.vd.toNat - 96) * 512 + e * w) w)
    ∧ (∀ a, (a < (f.vd.toNat - 96) * 512 ∨ (f.vd.toNat - 96) * 512 + min cols n * w ≤ a) → getCell t.thr.q a = getCell s.thr.q a)
    ∧ t.thr.v = s.thr.v ∧ t.thr.z = s.thr.z
    ∧ t.thr.sys.sigv = crc64 s.thr.sys.sigv (c.vd.setWidth 8 :: getCells t.thr.q ((f.vd.toNat - 96) * 512) ((shapeOf c.shp).nc * w))
  frame : t.thr.g = s.thr.g ∧ t.thr.gi = s.thr.gi ∧ t.thr.ex = s.thr.ex ∧ t.thr.snapG = s.thr.snapG ∧ t.thr.p = s.thr.p ∧ t.thr.table = s.thr.table ∧ t.thr.spad = s.thr.spad ∧ t.thr.spadPoison = s.thr.spadPoison

/-- The head command writes that tile when the engine takes it and no error occurs. -/
def Sys2Proof.Machine.WritesTile (s : State) (c : Cmd) (rest : List Cmd) (f : Wide) (n cols w : Nat) (val : Nat → Option Nat) : Prop :=
  ∃ t, exec (.vectorCommand s.thr.tid {}) s = .next t ∧ TileDone s t c rest f n cols w val

/-- R126-R128, R130, R131, R134, R140, R147: the elementwise commands; each active element takes the value of its operation on the elements of the same index, and every other element and register is as TileDone says. Corners that these rules leave open are the model's choice (log 27). -/
def Sys2Proof.Claims.VectorElementResults : Prop :=
  ∀ (s : State) (c : Cmd) (rest : List Cmd) (f : Wide), VectorHead s c rest → TilesWf s → f.vd.toNat < 112 →
    let x := shapeOf c.shp
    let ty := wideType f true
    let m := Mode.ofRnd f.rnd
    let n := (wideType f true).bits
    let k := (wideType f false).bits
    let a (e : Nat) := elem (readTile s.thr f.va x.nr x.nc x.w) e
    let b (e : Nat) := elem (readTile s.thr f.vb x.nr x.nc x.w) e
    let d (e : Nat) := elem (readTile s.thr f.vc x.nr x.nc x.w) e
    let result (i : Instr) (v : Nat → Nat) : Prop := c.i = i → WritesTile s c rest f x.n x.nc x.w fun e => if activeAt s.thr f e then some (v e) else none
    (result (.vadd f) (fun e => tyAdd ty m (a e) (b e)) ∧ result (.vsub f) (fun e => tySub ty m (a e) (b e)) ∧ result (.vmul f) (fun e => tyMul ty m (a e) (b e))
      ∧ result (.vfma f) (fun e => tyFma ty m false (a e) (b e) (d e)) ∧ result (.vfms f) (fun e => tyFma ty m true (a e) (b e) (d e))
      ∧ result (.vmin f) (fun e => tyMinMax ty false (a e) (b e)) ∧ result (.vmax f) (fun e => tyMinMax ty true (a e) (b e))
      ∧ result (.vabs f) (fun e => tyAbs ty (a e)) ∧ result (.vneg f) (fun e => tyNeg ty (a e))
      ∧ result (.vaddsat f) (fun e => tyAddSat ty (a e) (b e)) ∧ result (.vsubsat f) (fun e => tySubSat ty (a e) (b e)))
    ∧ (result (.vand f) (fun e => a e &&& b e) ∧ result (.vor f) (fun e => a e ||| b e) ∧ result (.vxor f) (fun e => a e ^^^ b e) ∧ result (.vandn f) (fun e => a e &&& (2 ^ n - 1 - b e))
      ∧ result (.vnot f) (fun e => 2 ^ n - 1 - a e) ∧ result (.vshl f) (fun e => shlElem n (a e) (b e)) ∧ result (.vshr f) (fun e => shrElem n (a e) (b e)) ∧ result (.vsra f) (fun e => sraElem n (a e) (b e))
      ∧ result (.vshli f) (fun e => shlElem k (a e) f.imm.toNat) ∧ result (.vshri f) (fun e => shrElem k (a e) f.imm.toNat) ∧ result (.vsrai f) (fun e => sraElem k (a e) f.imm.toNat))
    ∧ (result (.vmov f) a ∧ (∀ t u, wideType f false = .int t u → result (.vmovi f) fun _ => (BitVec.ofInt t (f.imm.toInt)).toNat)
      ∧ (∀ g, wideType f false = .fp g → result (.vmovi f) fun _ => f.imm.toNat * 2 ^ (if g = .fp32 then 17 else 1)))
    ∧ (c.i = .vsel f → WritesTile s c rest f x.n x.nc x.w fun e => some (if activeAt s.thr f e then a e else b e))

/-- R130, R131, R134: what the operations of the elementwise commands give on integers of n bits, signed or not. -/
def Sys2Proof.Claims.IntegerElements : Prop :=
  ∀ (n : Nat) (u : Bool) (m : Mode) (a b d : Nat), 0 < n → a < 2 ^ n → b < 2 ^ n → d < 2 ^ n →
    let ty : Ty := .int n u
    let val (v : Nat) : Int := if u then (BitVec.ofNat n v).toNat else (BitVec.ofNat n v).toInt
    let wrap (v : Int) : Nat := (BitVec.ofInt n v).toNat
    let lo : Int := if u then 0 else -2 ^ (n - 1)
    let hi : Int := if u then 2 ^ n - 1 else 2 ^ (n - 1) - 1
    tyAdd ty m a b = (a + b) % 2 ^ n ∧ tySub ty m a b = wrap (a - b) ∧ tyMul ty m a b = a * b % 2 ^ n ∧ tyFma ty m false a b d = (a * b + d) % 2 ^ n ∧ tyFma ty m true a b d = wrap (a * b - d)
    ∧ tyMinMax ty false a b = (if val a ≤ val b then a else b) ∧ tyMinMax ty true a b = (if val a ≤ val b then b else a)
    ∧ tyAbs (.int n false) a = (BitVec.ofNat n a).toInt.natAbs % 2 ^ n ∧ tyNeg ty a = wrap (-a)
    ∧ tyAddSat ty a b = wrap (max lo (min hi (val a + val b))) ∧ tySubSat ty a b = wrap (max lo (min hi (val a - val b)))
    ∧ shlElem n a b = (if b < n then a * 2 ^ b % 2 ^ n else 0) ∧ shrElem n a b = a / 2 ^ b ∧ sraElem n a b = wrap ((BitVec.ofNat n a).toInt / (2 : Int) ^ b)

/-- R135-R139, R142, R147: the reductions, the moves of elements and vldac. A reduction with no active element keeps the tile. -/
def Sys2Proof.Claims.VectorMovementResults : Prop :=
  ∀ (s : State) (c : Cmd) (rest : List Cmd) (f : Wide), VectorHead s c rest → TilesWf s → f.vd.toNat < 112 →
    let x := shapeOf c.shp
    let ty := wideType f true
    let m := Mode.ofRnd f.rnd
    let on (e : Nat) : Prop := activeAt s.thr f e = true
    let a (e : Nat) := elem (readTile s.thr f.va x.nr x.nc x.w) e
    let b (e : Nat) := elem (readTile s.thr f.vb x.nr x.nc x.w) e
    let tile (i : Instr) (cols : Nat) (v : Nat → Option Nat) : Prop := c.i = i → WritesTile s c rest f x.n cols x.w v
    let row (i : Instr) (op : Nat → Nat → Nat) (unit : Nat) : Prop := tile i x.nc fun e => if ∀ k < x.n, ¬ on k then none
      else some (if e % x.nc = 0 then tyCanon ty (treeFold op 0 ((List.range x.nc).map fun j => if activeAt s.thr f (e + j) then a (e + j) else unit)) else 0)
    let col (i : Instr) (op : Nat → Nat → Nat) (unit : Nat) : Prop := tile i x.nc fun e => if ∀ k < x.n, ¬ on k then none
      else some (if e < x.nc then tyCanon ty (treeFold op 0 ((List.range x.nr).map fun i => if activeAt s.thr f (i * x.nc + e) then a (i * x.nc + e) else unit)) else 0)
    (row (.vrsumr f) (tyAdd ty m) (tySumIdentity ty m) ∧ col (.vrsumc f) (tyAdd ty m) (tySumIdentity ty m) ∧ row (.vrmaxr f) (tyMinMax ty true) (tyMaxIdentity ty) ∧ col (.vrmaxc f) (tyMinMax ty true) (tyMaxIdentity ty)
      ∧ row (.vrminr f) (tyMinMax ty false) (tyMinIdentity ty) ∧ col (.vrminc f) (tyMinMax ty false) (tyMinIdentity ty))
    ∧ tile (.vbcast f) x.nc (fun e => if on e then some (if f.mod.toNat / 4096 = 3 then c.g1.toNat % 2 ^ (8 * x.w)
        else a (if f.mod.toNat / 4096 = 0 then e % x.nc else if f.mod.toNat / 4096 = 1 then e / x.nc * x.nc else 0)) else none)
    ∧ tile (.vtrans f) x.nr (fun e => if on e then some (a (e % x.nr * x.nc + e / x.nr)) else none)
    ∧ tile (.vperm f) x.nc (fun e => if on e ∧ b e < x.nc ∧ on (e / x.nc * x.nc + b e) then some (a (e / x.nc * x.nc + b e)) else none)
    ∧ (∀ op, f.mod.toNat / 2048 = op → tile (.vshuf f) x.nc fun e =>
        let r := e / x.nc * x.nc;
        let j := e % x.nc;
        let h := x.nc / 2;
        let (fromB, k) := if op = 0 then (j % 2 == 1, j / 2) else if op = 1 then (j % 2 == 1, h + j / 2) else if op = 2 then (decide (h ≤ j), if j < h then 2 * j else 2 * (j - h))
          else if op = 3 then (decide (h ≤ j), if j < h then 2 * j + 1 else 2 * (j - h) + 1) else (false, (j + f.mod.toNat % 1024) % x.nc)
        if on e ∧ k < x.nc ∧ on (r + k) then some (if fromB then b (r + k) else a (r + k)) else none)
    ∧ tile (.vexpd f) x.nc (fun e => if on e then some (a ((List.range e).filter (activeAt s.thr f)).length) else none)
    ∧ (x.w = 4 → let acc := nth s.thr.acc f.va.toNat Acc.zero;
        (∀ e < x.n, on e → f.imm.toNat / 128 + e / x.nc ∉ acc.visPoison) →
        tile (.vldac f) x.nc fun e => if on e then some (getCell32 acc.vis (128 * (f.imm.toNat / 128 + e / x.nc) + f.imm.toNat % 128 + e % x.nc)).toNat else none)

/-- R139: vcomp writes the active elements in order to the front of the tile and zeros behind them, and their count to the G register VC names of the bank that was selected at issue; G0 discards it. -/
def Sys2Proof.Claims.CompressResult : Prop :=
  ∀ (s : State) (c : Cmd) (rest : List Cmd) (f : Wide), VectorHead s c rest → TilesWf s → f.vd.toNat < 112 → f.vc.toNat < 32 → c.i = .vcomp f →
    let x := shapeOf c.shp
    let got := (List.range x.n).filter (activeAt s.thr f)
    let file (t : Thread) : Cells := if f.vd.toNat < 96 then t.v else t.q
    let dst := if f.vd.toNat < 96 then f.vd.toNat * 8192 else (f.vd.toNat - 96) * 512
    let n := if f.vd.toNat < 96 then x.n else x.nc
    ∃ t, exec (.vectorCommand s.thr.tid {}) s = .next t ∧ CommandDone s t c rest
      ∧ (∀ e < n, getLe (file t.thr) (dst + e * x.w) x.w = if h : e < got.length then elem (readTile s.thr f.va x.nr x.nc x.w) got[e] else 0)
      ∧ (∀ a, (a < dst ∨ dst + n * x.w ≤ a) → getCell (file t.thr) a = getCell (file s.thr) a) ∧ (if f.vd.toNat < 96 then t.thr.q = s.thr.q else t.thr.v = s.thr.v ∧ t.thr.z = s.thr.z)
      ∧ t.thr.sys.sigv = crc64 s.thr.sys.sigv (c.vd.setWidth 8 :: getCells (file t.thr) dst (n * x.w) ++ leBytes 8 got.length)
      ∧ (f.vc.toNat < 24 ∨ c.bank = false → (∀ r, nth t.thr.g r 0 = if r = f.vc.toNat ∧ r ≠ 0 then BitVec.ofNat 64 got.length else nth s.thr.g r 0) ∧ t.thr.gi = s.thr.gi)
      ∧ (24 ≤ f.vc.toNat → c.bank = true → (∀ r, nth t.thr.gi r 0 = if r = f.vc.toNat - 24 then BitVec.ofNat 64 got.length else nth s.thr.gi r 0) ∧ t.thr.g = s.thr.g)
      ∧ t.thr.p = s.thr.p ∧ t.thr.table = s.thr.table ∧ t.thr.spad = s.thr.spad

/-- R169-R174, R176: cvt reads elements of its source width and writes them at its destination width; cvtsr, rng; tint on a table that is not empty, and on an empty one when no element is active. Corners that these rules leave open are the model's choice (log 27). -/
def Sys2Proof.Claims.ConversionResults : Prop :=
  ∀ (s : State) (c : Cmd) (rest : List Cmd) (f : Wide), VectorHead s c rest → TilesWf s → f.vd.toNat < 112 →
    let x := shapeOf c.shp
    let dst := wideType f true
    let on (e : Nat) (v : Nat) : Option Nat := if activeAt s.thr f e then some v else none
    (∀ src, cvtSType f = some src → src.bits ≤ 8 * x.w → dst.bits ≤ 8 * x.w → c.i = .cvt f → WritesTile s c rest f x.n x.nc (dst.bits / 8) fun e =>
        on e (convert src dst (Mode.ofRnd f.rnd) (cvtSat f) (elem (readTile s.thr f.va x.nr x.nc (src.bits / 8)) e)))
    ∧ (∀ g, dst = .fp g → x.w = 4 → c.i = .cvtsr f → WritesTile s c rest f x.n x.nc (g.width / 8) fun e =>
        on e (stochastic g (cvtSat f) (elem (readTile s.thr f.va x.nr x.nc 4) e) (elem (readTile s.thr f.vb x.nr x.nc 4) e % 65536)))
    ∧ (c.i = .rng f → WritesTile s c rest f x.n x.nc x.w fun e => on e (rngWord c.g1 c.g2 e).toNat)
    ∧ (∀ g, dst = .fp g → c.i = .tint f → (s.thr.table.nseg ≠ 0 ∨ ∀ e < x.n, activeAt s.thr f e = false) → WritesTile s c rest f x.n x.nc x.w fun e =>
        on e (interpolate s.thr.table g (Mode.ofRnd f.rnd) (elem (readTile s.thr f.va x.nr x.nc x.w) e)))

/-- A predicate command has written bits: element e of the tile takes val e where it is active and is kept or cleared elsewhere, the bits past the tile become false (R126); with no active element and ZM = 0 nothing is written
(R127). P0 stays all true, no other predicate changes, and SIGV folds 0x80 + VD and the bits of the tile (R147). -/
structure Sys2Proof.Machine.PredDone (s t : State) (c : Cmd) (rest : List Cmd) (f : Wide) (val : Nat → Bool) : Prop where
  done : CommandDone s t c rest
  bits : (∃ e < (shapeOf c.shp).n, activeAt s.thr f e = true) ∨ f.zm = true → f.vd ≠ 0 → ∀ e < 8192, (readP t.thr f.vd.toNat).getLsbD e =
    if (shapeOf c.shp).n ≤ e then false else if activeAt s.thr f e then val e else !f.zm && (readP s.thr f.vd.toNat).getLsbD e
  kept : (∀ e < (shapeOf c.shp).n, activeAt s.thr f e = false) → f.zm = false → t.thr.p = s.thr.p
  others : ∀ k, k ≠ f.vd.toNat ∨ k = 0 → readP t.thr k = readP s.thr k
  sigv : t.thr.sys.sigv = crc64 s.thr.sys.sigv ((0x80#8 + c.vd.setWidth 8) :: predBytes (readP t.thr f.vd.toNat) (shapeOf c.shp).n)
  frame : t.thr.v = s.thr.v ∧ t.thr.q = s.thr.q ∧ t.thr.z = s.thr.z ∧ t.thr.g = s.thr.g ∧ t.thr.gi = s.thr.gi ∧ t.thr.ex = s.thr.ex ∧ t.thr.table = s.thr.table ∧ t.thr.spad = s.thr.spad

/-- R126, R127, R132, R133, R143: the compares, on integers as their values and on floating types by R132's table, the predicate logic, pset and pld. Corners that these rules leave open are the model's choice (log 27). -/
def Sys2Proof.Claims.PredicateResults : Prop :=
  ∀ (s : State) (c : Cmd) (rest : List Cmd) (f : Wide), VectorHead s c rest → f.vd.toNat < 16 →
    let x := shapeOf c.shp
    let a (e : Nat) := elem (readTile s.thr f.va x.nr x.nc x.w) e
    let b (e : Nat) := elem (readTile s.thr f.vb x.nr x.nc x.w) e
    let pa (e : Nat) := (readP s.thr f.va.toNat).getLsbD e
    let pb (e : Nat) := (readP s.thr f.vb.toNat).getLsbD e
    let result (i : Instr) (v : Nat → Bool) : Prop := c.i = i → ∃ t, exec (.vectorCommand s.thr.tid {}) s = .next t ∧ PredDone s t c rest f v
    (∀ n u, wideType f true = .int n u → n = 8 * x.w →
      let val (v : Nat) : Int := if u then (BitVec.ofNat n v).toNat else (BitVec.ofNat n v).toInt;
      result (.vceq f) (fun e => decide (val (a e) = val (b e))) ∧ result (.vcne f) (fun e => decide (val (a e) ≠ val (b e))) ∧ result (.vclt f) (fun e => decide (val (a e) < val (b e)))
      ∧ result (.vcle f) (fun e => decide (val (a e) ≤ val (b e))) ∧ result (.vcgt f) (fun e => decide (val (b e) < val (a e))) ∧ result (.vcge f) (fun e => decide (val (b e) ≤ val (a e))))
    ∧ (∀ g, wideType f true = .fp g →
      let p (e : Nat) := decodeFp g (a e);
      let q (e : Nat) := decodeFp g (b e);
      let num (e : Nat) : Bool := !(p e).isNan && !(q e).isNan;
      result (.vceq f) (fun e => num e && (p e).eq (q e)) ∧ result (.vcne f) (fun e => !(num e && (p e).eq (q e))) ∧ result (.vclt f) (fun e => num e && (p e).lt (q e))
      ∧ result (.vcle f) (fun e => num e && ((p e).lt (q e) || (p e).eq (q e))) ∧ result (.vcgt f) (fun e => num e && !((p e).lt (q e) || (p e).eq (q e))) ∧ result (.vcge f) (fun e => num e && !(p e).lt (q e)))
    ∧ result (.pand f) (fun e => pa e && pb e) ∧ result (.por f) (fun e => pa e || pb e) ∧ result (.pxor f) (fun e => pa e != pb e) ∧ result (.pnot f) (fun e => !pa e)
    ∧ result (.pset f) (fun e => decide ((if f.imm.toNat / 8192 = 0 then e else if f.imm.toNat / 8192 = 1 then e % x.nc else e / x.nc) < min (f.imm.toNat % 8192 + c.g1.toNat) 8192))
    ∧ (∀ y, extentAt s s.thr c.g1 ((x.n + 7) / 8) 8 = some y → bankBusy s s.thr c y = false → spadPoisonIn s y = [] → result (.pld f) fun e => (leNat (readSpad s y)).testBit e)

/-- A command has raised a cause at its boundary: it has left the queue and the execute stream has entered its handler (R144, R219). -/
def Sys2Proof.Machine.CommandTraps (s : State) (c : Cmd) (rest : List Cmd) (cause : Byte) (taddr : Word) : Prop :=
  ∃ t, exec (.vectorCommand s.thr.tid {}) s = .next t ∧ t.thr.sys.tcause = BitVec.ofNat 64 cause.toNat ∧ t.thr.sys.taddr = taddr ∧ t.thr.sys.tpc = c.pc ∧ t.thr.ex.pc = s.thr.sys.tvec ∧ t.thr.ax.stopped = true
    ∧ t.thr.vq = rest ∧ t.thr.v = s.thr.v ∧ t.thr.q = s.thr.q ∧ t.thr.p = s.thr.p ∧ t.thr.g = s.thr.g ∧ t.thr.spad = s.thr.spad ∧ t.thr.table = s.thr.table ∧ t.mem = s.mem

/-- R108, R141, R143, R175: vld, vst, pst and tload. Each needs its extent inside the scratchpad SPA names, in one half of it, aligned; outside it raises scratchpad range fault with TADDR the SPA. vld and tload on a poisoned unit they read raise data poison.
With no active element vld and vst access nothing. vst writes the bytes of the active elements and no others, pst the bits of the tile. Corners that these rules leave open are the model's choice (log 27). -/
def Sys2Proof.Claims.ScratchpadStores : Prop :=
  ∀ (s : State) (c : Cmd) (rest : List Cmd) (f : Wide), VectorHead s c rest → TilesWf s → f.vd.toNat < 112 → s.others = [] → Memory.wf s.thr.spad = true →
    let x := shapeOf c.shp
    let pitch := if f.mod = 0 then x.nc * x.w else f.mod.toNat
    let rows := if 96 ≤ f.vd.toNat then 1 else x.nr
    let idle : Prop := ∀ e < x.n, activeAt s.thr f e = false
    let ext (len align : Nat) := extentAt s s.thr c.g1 len align
    let free (e : Extent) : Prop := bankBusy s s.thr c e = false
    let stored (bytes : Thread → Prop) : Prop := ∃ t, exec (.vectorCommand s.thr.tid {}) s = .next t ∧ CommandDone s t c rest ∧ bytes t.thr ∧ t.thr.v = s.thr.v ∧ t.thr.q = s.thr.q ∧ t.thr.z = s.thr.z ∧ t.thr.p = s.thr.p
      ∧ t.thr.g = s.thr.g ∧ t.thr.gi = s.thr.gi ∧ t.thr.ex = s.thr.ex ∧ t.thr.table = s.thr.table ∧ t.thr.sys.sigv = s.thr.sys.sigv
    let traps (cause : Byte) (ta : Word) : Prop := s.thr.trap = none → CanEnter s → CommandTraps s c rest cause ta
    (c.i = .vld f → (idle → WritesTile s c rest f x.n x.nc x.w fun _ => none)
      ∧ (¬ idle → (∀ y, ext ((rows - 1) * pitch + x.nc * x.w) x.w = some y → free y → spadPoisonIn s y = [] →
          WritesTile s c rest f (rows * x.nc) x.nc x.w fun e => if activeAt s.thr f e then some (getLe s.thr.spad (y.off + e / x.nc * pitch + e % x.nc * x.w) x.w) else none)
        ∧ (ext ((rows - 1) * pitch + x.nc * x.w) x.w = none → traps 0x09 c.g1)))
    ∧ (c.i = .vst f → (idle → stored fun t => t.spad = s.thr.spad)
      ∧ (¬ idle → (∀ y, ext ((x.nr - 1) * pitch + x.nc * x.w) x.w = some y → free y → x.nc * x.w ≤ pitch → stored fun t =>
            (∀ e < x.n, activeAt s.thr f e = true → getLe t.spad (y.off + e / x.nc * pitch + e % x.nc * x.w) x.w = elem (readTile s.thr f.vb x.nr x.nc x.w) e)
            ∧ ∀ q, (∀ e < x.n, activeAt s.thr f e = true → q < y.off + e / x.nc * pitch + e % x.nc * x.w ∨ y.off + e / x.nc * pitch + e % x.nc * x.w + x.w ≤ q) → getCell t.spad q = getCell s.thr.spad q)
        ∧ (ext ((x.nr - 1) * pitch + x.nc * x.w) x.w = none → traps 0x09 c.g1)))
    ∧ (c.i = .pst f → (∀ y, ext ((x.n + 7) / 8) 8 = some y → free y → stored fun t => getCells t.spad y.off ((x.n + 7) / 8) = predBytes (readP s.thr f.vb.toNat) x.n
          ∧ ∀ q, q < y.off ∨ y.off + (x.n + 7) / 8 ≤ q → getCell t.spad q = getCell s.thr.spad q)
        ∧ (ext ((x.n + 7) / 8) 8 = none → traps 0x09 c.g1))
    ∧ (c.i = .pld f → ext ((x.n + 7) / 8) 8 = none → traps 0x09 c.g1)
    ∧ (c.i = .tload f → (ext 16 16 = none → traps 0x09 c.g1)
      ∧ ∀ y, ext 16 16 = some y → free y →
        let word (k : Nat) : Nat := getLe s.thr.spad (y.off + 4 * k) 4;
        let n := word 2 % 256 + 1;
        spadPoisonIn s y = [] →
        (headerBad (getCells s.thr.spad y.off 16) = true → traps 0x16 c.words)
        ∧ (headerBad (getCells s.thr.spad y.off 16) = false → ∀ z, ext (16 + 4 * n) 16 = some z → free z → spadPoisonIn s z = [] → ∃ t, exec (.vectorCommand s.thr.tid {}) s = .next t ∧ CommandDone s t c rest
          ∧ t.thr.table.lo = BitVec.ofNat 32 (word 0) ∧ t.thr.table.scale = BitVec.ofNat 32 (word 1) ∧ t.thr.table.ctl = BitVec.ofNat 32 (word 2) ∧ t.thr.table.nseg = n
          ∧ (∀ k < 4 * n, getCell t.thr.table.segs k = getCell s.thr.spad (y.off + 16 + k)) ∧ t.thr.v = s.thr.v ∧ t.thr.p = s.thr.p ∧ t.thr.g = s.thr.g ∧ t.thr.spad = s.thr.spad))
    ∧ (c.i = .tint f → ¬ idle → s.thr.table.nseg = 0 → traps 0x16 c.words)

/-- R150-R154: the matrix instructions whose tests pass complete and stand last in the matrix command queue; those whose extent does not fit raise scratchpad range fault at issue; a full queue stalls them. mwldq stands in MigratingInstructions. -/
def Sys2Proof.Claims.MatrixInstructionsIssue : Prop :=
  ∀ (s : State) (f : Wide),
    let spa := readG s.thr f.va.toNat
    let md := readG s.thr f.vb.toNat
    let kmmac : Kinds := { d := .a, a := .g, b := .g, c := .unused }
    let kmcks : Kinds := { d := .g, a := .unused, b := .unused, c := .unused }
    let queued (i : Wide → Instr) (k : Kinds) : Prop := Completes (i f) s (modThr { s with stamp := s.stamp + 1 } fun t => { t with mq := t.mq ++ [newCmd s i k f], cmdix := t.cmdix + 1 }) 2
    (accept000 f true = true → (EngineReady s kAcc f true → queueFree s 16 2 (·.mq) = false → Stalls (.mclr f) s .listed ∧ Stalls (.mswap f) s .listed) ∧ (EngineReady s kAcc f (queueFree s 16 2 (·.mq)) → queued .mclr kAcc ∧ queued .mswap kAcc) ∧ (EngineReady s kmcks f (queueFree s 16 2 (·.mq)) → queued .mcks kmcks))
    ∧ (weightTypeOk f = true →
      (EngineReady s kMat f (queueFree s 16 2 (·.mq)) → (extentAt s s.thr spa 32768 64).isSome = true → queued .mwld kMat)
      ∧ (EngineReady s kMat f true → (extentAt s s.thr spa 32768 64).isSome = false → exec (.mwld f) s = .next (raise s s.cur 0x09 s.pc spa))
      ∧ (EngineReady s kmmac f (queueFree s 16 2 (·.mq)) → latchAccepts (latestLatch s.thr).1 f.ty = true → mmacFault s spa md = none → queued .mmac kmmac)
      ∧ (EngineReady s kmmac f true → latchAccepts (latestLatch s.thr).1 f.ty = false → exec (.mmac f) s = .next (raise s s.cur 0x16 s.pc (wordsValue (.mmac f))))
      ∧ (EngineReady s kmmac f true → latchAccepts (latestLatch s.thr).1 f.ty = true → 2 ^ 32 ≤ md.toNat → exec (.mmac f) s = .next (raise s s.cur 0x09 s.pc md)))

/-- An accumulator bank in canonical form: rising places, no zero. -/
def Sys2Proof.Machine.Rising (l : Cells32) : Prop := (l.map Prod.fst).Pairwise (· < ·) ∧ ∀ x ∈ l, x.2 ≠ 0

/-- The matrix engine of its core takes the command at the head of the thread's queue at this boundary (R324). -/
def Sys2Proof.Machine.MatrixHead (s : State) (c : Cmd) (rest : List Cmd) : Prop :=
  s.thr.live = true ∧ s.thr.resident = true ∧ s.thr.mq = c :: rest ∧ matrixChoice s s.thr.core = some s.thr.ctx

/-- A matrix command has left its queue; V, Q and P registers, the scratchpad and memory do not change. -/
structure Sys2Proof.Machine.MatrixDone (s t : State) (rest : List Cmd) : Prop where
  outside : t = { s with thr := t.thr, cores := t.cores }
  thread : t.thr = { s.thr with mq := rest, acc := t.thr.acc, latch := t.thr.latch, mat := t.thr.mat, g := t.thr.g, gi := t.thr.gi, ex := t.thr.ex, snapG := t.thr.snapG, sys := { s.thr.sys with pcnt := t.thr.sys.pcnt } }

/-- R152-R157, R161-R163: the matrix commands at the head of the queue: the working bank is cleared with its marks, the banks change places, the status is answered and cleared on request, the latch holds the bytes of
its extent, and under P0 every pass of mmac adds the products of its row with the latched weights into its row of the working bank. -/
def Sys2Proof.Claims.MatrixCommandResults : Prop :=
  ∀ (s : State) (c : Cmd) (rest : List Cmd) (f : Wide), MatrixHead s c rest → f.vd.toNat < 32 →
    let acc (t : State) (k : Nat) : Acc := nth t.thr.acc k Acc.zero
    let k := f.vd.toNat
    let ends (t : State) : Prop := exec (.matrixCommand s.thr.tid {}) s = .next t ∧ MatrixDone s t rest
    let noG (t : State) : Prop := t.thr.g = s.thr.g ∧ t.thr.gi = s.thr.gi ∧ t.thr.ex = s.thr.ex
    (c.i = .mclr f → k < 6 → ∃ t, ends t ∧ acc t k = { acc s k with work := [], workPoison := [] } ∧ (∀ j, j ≠ k → acc t j = acc s j) ∧ t.thr.latch = s.thr.latch ∧ t.thr.mat = s.thr.mat ∧ noG t)
    ∧ (c.i = .mswap f → k < 6 → ∃ t, ends t
        ∧ acc t k = { vis := (acc s k).work, work := (acc s k).vis, visPoison := (acc s k).workPoison, workPoison := (acc s k).visPoison } ∧ (∀ j, j ≠ k → acc t j = acc s j) ∧ t.thr.latch = s.thr.latch ∧ t.thr.mat = s.thr.mat ∧ noG t)
    ∧ (c.i = .mcks f → ∃ t, ends t ∧ t.thr.acc = s.thr.acc ∧ t.thr.latch = s.thr.latch ∧ t.thr.mat = (if f.imm.getLsbD 0 then MatStatus.zero else s.thr.mat)
        ∧ let v := BitVec.ofNat 64 ((if s.thr.mat.cskip then 1 else 0) + (if s.thr.sys.tstat.pclass ≠ 0 then 2 else 0) + s.thr.mat.skips.toNat * 2 ^ 16 + s.thr.mat.passes.toNat * 2 ^ 32);
          (k < 24 ∨ c.bank = false → (∀ r, nth t.thr.g r 0 = if r = k ∧ r ≠ 0 then v else nth s.thr.g r 0) ∧ t.thr.gi = s.thr.gi)
          ∧ (24 ≤ k → c.bank = true → (∀ r, nth t.thr.gi r 0 = if r = k - 24 then v else nth s.thr.gi r 0) ∧ t.thr.g = s.thr.g))
    ∧ (∀ e, c.i = .mwld f → extentAt s s.thr c.g1 32768 64 = some e → bankBusy s s.thr c e = false → ∃ t, ends t ∧ t.thr.acc = s.thr.acc ∧ t.thr.mat = s.thr.mat ∧ noG t
        ∧ t.thr.latch.groupY = decide (0x40000 ≤ e.off) ∧ t.thr.latch.fmt = latchFmt f.ty ∧ (t.thr.latch.poison = false ↔ spadPoisonIn s e = []) ∧ getCells t.thr.latch.bytes 0 32768 = readSpad s e)
    ∧ (∀ e, c.i = .mwldq f → extentAt s s.thr c.g1 16904 64 = some e → bankBusy s s.thr c e = false → ∃ t, ends t ∧ t.thr.acc = s.thr.acc ∧ t.thr.mat = s.thr.mat ∧ noG t
        ∧ t.thr.latch.groupY = decide (0x40000 ≤ e.off) ∧ t.thr.latch.fmt = .q4 ∧ (t.thr.latch.poison = false ↔ spadPoisonIn s e = []) ∧ getCells t.thr.latch.bytes 0 16384 = (readSpad s e).take 16384
        ∧ t.thr.latch.factors = blockFactors (readSpad s e))
    ∧ (∀ e, c.i = .mmac f → k < 6 → s.thr.sys.tstat.pclass = 0 → mdRow0 c.g2 + mdRows c.g2 ≤ 256 → (wideType f true).bits ∈ [8, 16] → extentAt s s.thr c.g1 (mmacLen c.g2) 64 = some e → bankBusy s s.thr c e = false → Rising (acc s k).work →
        let ty := wideType f true;
        let w := ty.bits / 8;
        let a (m : Nat) : List Fp := (List.range (256 / w)).map fun i => matValue ty (leNat (((readSpad s e).drop (m * mdPitch c.g2 + i * w)).take w));
        ∃ t, ends t ∧ t.thr.latch = s.thr.latch ∧ t.thr.mat = s.thr.mat ∧ noG t ∧ (∀ j, j ≠ k → acc t j = acc s j) ∧ (acc t k).vis = (acc s k).vis ∧ (acc t k).visPoison = (acc s k).visPoison ∧ Rising (acc t k).work
        ∧ (∀ m < mdRows c.g2, ∀ n < 128, getCell32 (acc t k).work (128 * (mdRow0 c.g2 + m) + n)
            = accumulate ty (getCell32 (acc s k).work (128 * (mdRow0 c.g2 + m) + n)) (dotProduct (a m) fun i => weight s.thr.latch i n))
        ∧ (∀ q, q < 128 * mdRow0 c.g2 ∨ 128 * (mdRow0 c.g2 + mdRows c.g2) ≤ q → getCell32 (acc t k).work q = getCell32 (acc s k).work q)
        ∧ (∀ r, r ∈ (acc t k).workPoison ↔ r ∈ (acc s k).workPoison ∨ ∃ m < mdRows c.g2, r = mdRow0 c.g2 + m
            ∧ (s.thr.latch.poison = true ∨ ∃ u ∈ spadPoisonIn s e, e.off + m * mdPitch c.g2 < u + 64 ∧ u < e.off + m * mdPitch c.g2 + 256)))

/-- R258-R262: in every number format the value of a finite pattern, rounded back to the format, is that pattern, in every rounding mode. -/
def Sys2Proof.Claims.FormatValues : Prop :=
  ∀ (g : Fmt) (m : Mode) (sat : Bool) (v : Nat), v < 2 ^ g.width → (decodeFp g v).isFin = true → (decodeFp g v).toBits g m sat = v


/-! ### Cue bytecode -/

/-- A decision runs and its budget lets an operation of a cost start (R249). -/
def Sys2Proof.Machine.CueReady (s : State) (cost : Nat) : Prop := s.curPart < 8 ∧ s.run.active = true ∧ s.run.steps < 256 ∧ s.run.cycles + cost ≤ 512

/-- An operation answers a next state in which the decision stands at r and nothing else has changed. -/
def Sys2Proof.Machine.CueGoes (i : Instr) (s : State) (r : CueRun) : Prop :=
  ∃ t, exec i s = .next t ∧ t.run = r ∧ (∀ p, p ≠ s.curPart → t.part p = s.part p) ∧ t.part s.curPart = { s.part s.curPart with run := r } ∧ t.mem = s.mem ∧ t.thr = s.thr ∧ t.teams = s.teams ∧ t.tasks = s.tasks

/-- The imm of R241: IMM5, or with a prefix IMM11 above it; signed for li and addi. -/
def Sys2Proof.Machine.cueImm (r : CueRun) (i : BitVec 5) : Nat := match r.prefixed with | none => i.toNat | some p => p.toNat * 32 + i.toNat
def Sys2Proof.Machine.cueImmS (r : CueRun) (i : BitVec 5) : Int := match r.prefixed with | none => i.toInt | some p => (BitVec.ofNat 16 (p.toNat * 32 + i.toNat)).toInt

/-- R239, R241: the operations that compute a register, each one step of one C-cycle, mod 2^32 with unsigned comparisons; a prefix supplies the upper immediate bits and is no step. -/
def Sys2Proof.Claims.CueArithmetic : Prop :=
  ∀ (s : State) (d a b : CReg) (i : BitVec 5), CueReady s 1 →
    let r := s.run
    let x := nth r.c a.toNat 0
    let y := nth r.c b.toNat 0
    let put (op : Instr) (v : Word32) : Prop := CueGoes op s { r with c := upd r.c d.toNat v, pc := r.pc + 1, prefixed := none, steps := r.steps + 1, cycles := r.cycles + 1 }
    put (.cueMov d a) x ∧ put (.cueLi d i) (BitVec.ofInt 32 (cueImmS r i)) ∧ put (.cueAdd d a b) (BitVec.ofNat 32 (x.toNat + y.toNat)) ∧ put (.cueAddi d a i) (BitVec.ofInt 32 (x.toNat + cueImmS r i))
    ∧ put (.cueSub d a b) (BitVec.ofInt 32 ((x.toNat : Int) - y.toNat)) ∧ put (.cueAnd d a b) (x &&& y) ∧ put (.cueOr d a b) (x ||| y) ∧ put (.cueXor d a b) (x ^^^ y)
    ∧ put (.cueShl d a i) (BitVec.ofNat 32 (x.toNat * 2 ^ i.toNat)) ∧ put (.cueShr d a i) (BitVec.ofNat 32 (x.toNat / 2 ^ i.toNat)) ∧ put (.cueMin d a b) (BitVec.ofNat 32 (min x.toNat y.toNat))
    ∧ put (.cueMax d a b) (BitVec.ofNat 32 (max x.toNat y.toNat)) ∧ put (.cueSlt d a b) (if x.toNat < y.toNat then 1 else 0) ∧ put (.cueSeq d a b) (if x = y then 1 else 0) ∧ put (.cueMul d a b) (BitVec.ofNat 32 (x.toNat * y.toNat))
    ∧ ∀ p : BitVec 11, r.cycles + 2 ≤ 512 → CueGoes (.cuePfx p) s { r with pc := r.pc + 1, prefixed := some p, cycles := r.cycles + 1 }

/-- R242, R243: branches go to slot s + imm when their condition holds and else on; each opens an iteration over the candidates or the twelve chiplets, and next goes back while trips remain. -/
def Sys2Proof.Claims.CueControlFlow : Prop :=
  ∀ (s : State) (d a : CReg) (i : BitVec 5), CueReady s 1 →
    let r := { s.run with steps := s.run.steps + 1, cycles := s.run.cycles + 1, prefixed := none }
    let x := nth r.c d.toNat 0
    let y := nth r.c a.toNat 0
    let go (op : Instr) (yes : Bool) : Prop := CueGoes op s { r with pc := if yes then r.pc + cueImm s.run i else r.pc + 1 }
    go (.cueBeq d a i) (decide (x = y)) ∧ go (.cueBne d a i) (decide (x ≠ y)) ∧ go (.cueBlt d a i) (decide (x.toNat < y.toNat)) ∧ go (.cueBge d a i) (decide (y.toNat ≤ x.toNat)) ∧ go (.cueJmp i) true
    ∧ (∀ sel, let m := if sel then 12 else r.cands.length;
        CueGoes (.cueEach d sel i) s (if m = 0 then { r with pc := r.pc + cueImm s.run i } else { r with c := upd r.c d.toNat 0, trips := m, start := r.pc + 1, pc := r.pc + 1 }))
    ∧ CueGoes (.cueNext d) s { r with c := upd r.c d.toNat (x + 1), trips := r.trips - 1, pc := if 1 < r.trips then r.start else r.pc + 1 }

/-- R244, R245, R247: vget, cget and vglob read a field, saturated at all ones and all ones for a candidate or chiplet outside the view, in two C-cycles; FIT is that of the candidate picked, 0 before a pick; pick and place build the output, at
most eight pairs. What the view holds where R246 and R247 leave it open is the model's choice (log 31). -/
def Sys2Proof.Claims.CueViewAndOutput : Prop :=
  ∀ (s : State) (d a : CReg) (f : BitVec 5),
    let r := s.run
    let x := nth r.c a.toNat 0
    let k := x.toNat
    let sat (n : Nat) : Word32 := BitVec.ofNat 32 (min n 0xFFFFFFFF)
    let put (op : Instr) (v : Word32) : Prop := CueGoes op s { r with c := upd r.c d.toNat v, pc := r.pc + 1, prefixed := none, steps := r.steps + 1, cycles := r.cycles + 2 }
    let next := { r with pc := r.pc + 1, prefixed := none, steps := r.steps + 1, cycles := r.cycles + 1 }
    (CueReady s 2 →
      put (.cueVget d a f) (match r.cands[k]? with | some row => sat (row.getD f.toNat 0) | none => 0xFFFFFFFF)
      ∧ (12 ≤ k ∨ f ≠ 4 → put (.cueCget d a f) (match r.chips[k]? with | some row => sat (row.getD f.toNat 0) | none => 0xFFFFFFFF))
      ∧ (k < 12 → f = 4 → put (.cueCget d a f) (match r.picked with
          | none => 0
          | some c => match r.fits[c.toNat]? with | some l => sat (l.getD k 0) | none => 0))
      ∧ put (.cueVglob d f) (if f = 7 then (match r.picked with | some c => c | none => 0xFFFFFFFF) else sat (r.globs.getD f.toNat 0)))
    ∧ (CueReady s 1 →
      CueGoes (.cuePick a) s { next with picked := some x }
      ∧ (r.places.length < 8 → CueGoes (.cuePlace a) s { next with places := r.places ++ [(match r.picked with | some c => c | none => 0xFFFFFFFF, x)] })
      ∧ (8 ≤ r.places.length → CueGoes (.cuePlace a) s next))

/-- R245, R248, R249, R251, R311, R320: deny ends a decision with its reason logged and no action, after which a DISPATCH has dispatched nothing and a FAULT placed nothing. stop ends it and commits its output: the team it picked, at its places;
with an output that is refused, which is counted, the built-in policy decides. An operation that the budget does not let start ends the decision overrun, which is counted and disables the program at the sixteenth in a row, and the built-in
policy decides. What the built-in policy does after a refused output is the model's reading (log 31). -/
def Sys2Proof.Claims.CueDecisionEnds : Prop :=
  ∀ (s : State) (n : BitVec 5) (d a b : CReg), s.curPart < 8 → s.run.active = true →
    let p := s.curPart
    let r := s.run
    let view := r.cands.zip r.subjects
    let x := modPart s p fun q => { q with run := CueRun.idle, cueStat := { q.cueStat with consec := 0 } }
    let y := modPart s p fun q => { q with run := CueRun.idle, cueStat := { q.cueStat with consec := 0 }, decisionLog := q.decisionLog ++ [n.toNat] }
    let z := modPart s p fun q => { q with run := CueRun.idle, cueStat := { q.cueStat with
      overrun := if q.cueStat.overrun = 255 then 255 else q.cueStat.overrun + 1, consec := q.cueStat.consec + 1, disabled := q.cueStat.disabled || decide (16 ≤ (q.cueStat.consec + 1).toNat) } }
    let subject := match r.picked with | some c => r.subjects[c.toNat]? | none => none
    let place (k : Nat) : Option Nat := (r.places[k]?).map fun x => x.2.toNat
    let refused := builtin (countRefuse x p) p r.kind r.raiser view
    (CueReady s 1 →
      (r.kind = 0 → exec (.cueDeny n) s = .next (afterNothing y p view))
      ∧ (r.kind = 2 → (∀ u, findTeam y r.raiser = some u → exec (.cueDeny n) s = .next (pinnedWaits y u)) ∧ (findTeam y r.raiser = none → exec (.cueDeny n) s = .next y))
      ∧ (r.kind ≠ 0 → r.kind ≠ 2 → exec (.cueDeny n) s = .next y))
    ∧ (CueReady s 1 → r.kind = 0 →
      (r.picked = none → exec .cueStop s = .next (afterNothing x p view))
      ∧ (r.picked ≠ none → subject = none → exec .cueStop s = .next refused)
      ∧ (∀ id, subject = some id →
        (∀ w, commitDispatch x p id (place 0) (place 1) = some (true, w) → exec .cueStop s = .next w)
        ∧ (∀ w, commitDispatch x p id (place 0) (place 1) = some (false, w) → exec .cueStop s = .next (afterNothing w p view))
        ∧ (commitDispatch x p id (place 0) (place 1) = none → exec .cueStop s = .next refused)))
    ∧ (CueReady s 1 → r.kind = 1 →
      (∀ w, preemptMoot x p r.raiser = some w → exec .cueStop s = .next w)
      ∧ (preemptMoot x p r.raiser = none →
        (r.picked = none → exec .cueStop s = .next x)
        ∧ (∀ u, subject.bind (findTeam x) = some u → u.status = .resident → isPinned x u = false → exec .cueStop s = .next (stopPicked x p r.raiser u))
        ∧ (r.picked ≠ none → (∀ u, subject.bind (findTeam x) = some u → u.status ≠ .resident ∨ isPinned x u = true) → exec .cueStop s = .next refused)))
    ∧ (CueReady s 1 → r.kind = 2 →
      (r.picked = none → (∀ u, findTeam x r.raiser = some u → exec .cueStop s = .next (pinnedWaits x u)) ∧ (findTeam x r.raiser = none → exec .cueStop s = .next x))
      ∧ (∀ u w, r.picked = some 0 → findTeam x r.raiser = some u → commitFault x u (place 0) (place 1) = some w → exec .cueStop s = .next w)
      ∧ (∀ c, r.picked = some c → c ≠ 0 ∨ (∀ u, findTeam x r.raiser = some u → commitFault x u (place 0) (place 1) = none) → exec .cueStop s = .next refused))
    ∧ (CueReady s 1 → r.kind = 3 → exec .cueStop s = .next (r.places.foldl (fun w m => match r.subjects[m.1.toNat]? with
        | none => countRefuse w p
        | some id => match commitMove w p id m.2.toNat with | some v => v | none => countRefuse w p) x))
    ∧ (256 ≤ r.steps ∨ 512 < r.cycles + 1 → exec (.cueAdd d a b) s = .next (builtin z p r.kind r.raiser view))

/-! ### Records of the host and of the engines -/

/-- A command record as it stands once it has started. -/
def Sys2Proof.Machine.Begun (s : State) (id : Nat) : State := modRec s id fun r => { r with status := .started, started := s.mod.time }

/-- The record id is of a kind (and a DEBUG operation), may start now, and names a partition it may act on (R335, R337). -/
def Sys2Proof.Machine.RecordReady (s : State) (id kind : Nat) (op : Option Nat) (r : HRec) : Prop :=
  s.recs.find? (fun r => r.id == id) = some r ∧ r.kind = kind ∧ (∀ o, op = some o → debugOp r.raw = o) ∧ mayStart s r = true ∧ partOk s r.conn r.raw = true

/-- The event answers a next state: with effect x, the record has completed with this status (RecordsComplete says what that does). -/
def Sys2Proof.Machine.Finishes (i : Instr) (s x : State) (id : Nat) (st : Status) : Prop := exec i s = .next (finishRec x id st)

/-- The same for a DEBUG record: its RESULT message leaves first (R343). -/
def Sys2Proof.Machine.Answers (i : Instr) (s x : State) (r : HRec) (st : Status) (data : List Byte) : Prop := exec i s = .next (debugDone x r st data)

/-- R336, R337, R341: a record that completes leaves the front end and takes its actions: with no flag nothing else changes, SEME adds SEMINC at SEMA, SWE writes the 32-byte status word, NOTE sends a
message with the reply header and the status word. One whose partition is not there any more is rejected with DETAIL 1 when it would start. Where an address of a completion action does not translate, what follows is the model's choice (log 37). -/
def Obligations.RecordsComplete : Prop :=
  ∀ (s : State) (id : Nat) (r : HRec) (st : Status), s.recs.find? (fun r => r.id == id) = some r →
    let x := { s with recs := s.recs.filter fun r => r.id != id }
    let f (o n : Nat) := fieldOf r.raw o n
    let word (code detail bytes faddr : Nat) : List Byte := [BitVec.ofNat 8 code, BitVec.ofNat 8 (f 0 1)] ++ leBytes 2 (f 4 2) ++ leBytes 4 detail ++ leBytes 8 bytes ++ leBytes 8 faddr ++ leBytes 8 0
    let header (kind : Nat) : List Byte := [BitVec.ofNat 8 kind, BitVec.ofNat 8 (f 1 1), BitVec.ofNat 8 (f 2 1), 0, 0, 0, 0, 0]
    (f 3 1 = 0 → finishRec s id st = x)
    ∧ (∀ pa, f 3 1 = 1 → translatePart x (f 1 1) .store (f 8 8) 8 = .ok pa none → Memory.wf s.mem = true → getLe (finishRec s id st).mem pa 8 = (getLe s.mem pa 8 + f 0x10 8) % 2 ^ 64
        ∧ ∀ q, (q < pa ∨ pa + 8 ≤ q) → getCell (finishRec s id st).mem q = getCell s.mem q)
    ∧ (∀ pa, f 3 1 = 2 → f 0x18 8 % 32 = 0 → translatePart x (f 1 1) .store (f 0x18 8) 32 = .ok pa none → Memory.wf s.mem = true → getCells (finishRec s id st).mem pa 32 = word st.code st.detail st.bytes st.faddr
        ∧ ∀ q, (q < pa ∨ pa + 32 ≤ q) → getCell (finishRec s id st).mem q = getCell s.mem q)
    ∧ (f 3 1 = 4 → finishRec s id st = replyTo x r.conn (header 1 ++ word st.code st.detail st.bytes st.faddr))
    ∧ (r.kind = 0x03 → mayStart s r = true → partOk s r.conn r.raw = false → exec (.wait id) s = .next (replyTo x r.conn (header 2 ++ word 0x0D 1 0 0)))

/-- R341, R287, R339: WAIT completes at once when the counter holds enough and else watches it; SIGNAL adds at its address; HOST_COPY moves bytes either way, to the device as they come, and leaves what the device owns; an address that does
not translate ends the record FAULT. That data goes to its place as it comes is the model's choice (log 37). -/
def Obligations.HostRecords : Prop :=
  ∀ (s : State) (id : Nat) (r : HRec),
    let x := Begun s id
    let f (o n : Nat) := fieldOf r.raw o n
    (RecordReady s id 0x03 none r →
      (∀ pa, translatePart x r.part .load (f 0x20 8) 8 = .ok pa none →
        (f 0x28 8 ≤ getLe s.mem pa 8 → Finishes (.wait id) s x id Status.done)
        ∧ (getLe s.mem pa 8 < f 0x28 8 → exec (.wait id) s = .next (modRec x id fun r => { r with watch := some pa })))
      ∧ (reach x r.part .load (f 0x20 8) 8 = none → Finishes (.wait id) s (logMalformed x r.part (f 0x20 8)) id (Status.fault (f 0x20 8))))
    ∧ (RecordReady s id 0x04 none r → rangeHeld s r.part (f 0x20 8) 8 = false →
      (∀ pa, translatePart x r.part .store (f 0x20 8) 8 = .ok pa none → Memory.wf s.mem = true → ∃ y, Finishes (.signal id) s y id Status.done ∧ getLe y.mem pa 8 = (getLe s.mem pa 8 + f 0x28 8) % 2 ^ 64
        ∧ ∀ q, (q < pa ∨ pa + 8 ≤ q) → getCell y.mem q = getCell s.mem q)
      ∧ (reach x r.part .store (f 0x20 8) 8 = none → Finishes (.signal id) s (logMalformed x r.part (f 0x20 8)) id (Status.fault (f 0x20 8))))
    ∧ (RecordReady s id 0x05 none r → inBitmap s r.part (f 0x20 8) (f 0x28 8) = false →
      (f 0x30 1 = 0 → rangeHeld s r.part (f 0x20 8) (f 0x28 8) = false → deviceOwns s r.part (f 0x20 8) (f 0x28 8) = true → r.moved = 0 → Finishes (.hostCopy id) s x id { code := 0x0B, detail := 0, bytes := 0, faddr := 0 })
      ∧ (f 0x30 1 = 1 → rangeHeld s r.part (f 0x20 8) 0 = false → deviceOwns s r.part (f 0x20 8) (f 0x28 8) = true → Finishes (.hostCopy id) s x id { code := 0x0B, detail := 0, bytes := 0, faddr := 0 })
      ∧ (∀ pa y, f 0x30 1 = 1 → rangeHeld s r.part (f 0x20 8) 0 = false → deviceOwns s r.part (f 0x20 8) (f 0x28 8) = false → 0 < f 0x28 8 → f 0x28 8 ≤ 64 - f 0x20 8 % 64 →
          hostReach x r.part .load (f 0x20 8) (f 0x28 8) = some (pa, y) → poisonedIn y pa (f 0x28 8) = false →
          Finishes (.hostCopy id) s (resultTo y r (doneWith (f 0x28 8)) (getCells y.mem pa (f 0x28 8))) id (doneWith (f 0x28 8))))
    ∧ (∀ w, (RecordReady s id 0x05 none r ∧ rangeHeld s r.part (f 0x20 8) (f 0x28 8) = false ∧ w = x
          ∨ startedRec s id 0x05 = some r ∧ recordsRun s = true ∧ actionsHeld s r.raw = false ∧ rangeHeld s r.part (f 0x20 8 + r.moved) r.data.length = false ∧ w = s) →
        f 0x30 1 = 0 → inBitmap s r.part (f 0x20 8) (f 0x28 8) = false → deviceOwns s r.part (f 0x20 8 + r.moved) (f 0x28 8 - r.moved) = false →
      let va := f 0x20 8 + r.moved;
      let k := r.data.length;
      ∀ pa y, 0 < k → k ≤ 64 - va % 64 → hostReach w r.part .store va k = some (pa, y) → Memory.wf y.mem = true →
        (r.moved + k = f 0x28 8 → ∃ z, Finishes (.hostCopy id) s z id (doneWith (f 0x28 8)) ∧ getCells z.mem pa k = r.data ∧ ∀ q, (q < pa ∨ pa + k ≤ q) → getCell z.mem q = getCell y.mem q)
        ∧ (r.moved + k < f 0x28 8 → (va + k) % 64 = 0 → ∃ t r', exec (.hostCopy id) s = .next t ∧ t.recs.find? (fun r => r.id == id) = some r' ∧ r'.moved = r.moved + k ∧ r'.data = [] ∧ getCells t.mem pa k = r.data
            ∧ ∀ q, (q < pa ∨ pa + k ≤ q) → getCell t.mem q = getCell y.mem q))

/-- R307, R338-R340: LAUNCH reads its tables and its image and its task enters its queue, or completes REFUSED 1 at the limit. TROUPE reads its parts, reserves them and starts all
together, or waits with those reserved and goes on reserving when its turn comes again; when its time is over every reservation is released. The order of the checks and that the reserved parts keep their places are the model's choices (logs 32 and 54). -/
def Obligations.LaunchAndTroupe : Prop :=
  ∀ (s y z : State) (id : Nat) (r : HRec),
    let x := Begun s id
    let f (o n : Nat) := fieldOf r.raw o n
    (∀ mb deps k, RecordReady s id 0x01 none r → launchTables x r.raw = .ok (mb, deps, y) → imageFor y r.part (f 0x20 8) = .ok (k, z) →
      let count := (z.tasks.filter fun t => t.part == r.part && t.queue == r.queue && !t.troupe).length;
      let q := nth (z.part r.part).queues r.queue noQueue;
      (q.limit ≤ count → Finishes (.launch id) s z id (Status.refused 1))
      ∧ (count < q.limit → ∃ k', k'.id = z.nextId ∧ k'.state = .queued ∧ k'.part = rPart r.raw ∧ k'.queue = rQueue r.raw ∧ k'.img = k ∧ k'.nteams = f 0x28 2 ∧ k'.deps = deps ∧ k'.record = id ∧ k'.seq = q.launches
          ∧ k'.pclass = max k.pclass (f 0x2A 1 % 4) ∧ k'.endedTeams = []
          ∧ exec (.launch id) s = .next (advanceQueue (wantDispatch (modPart { z with tasks := z.tasks ++ [k'], nextId := z.nextId + 1 } r.part fun p =>
              { p with queues := modNth p.queues r.queue fun c => { c with launches := c.launches + 1 } }) r.part) r.part r.queue)))
    ∧ (∀ st, RecordReady s id 0x01 none r → launchTables x r.raw = .error (st, y) → Finishes (.launch id) s y id st)
    ∧ (∀ mb deps st, RecordReady s id 0x01 none r → launchTables x r.raw = .ok (mb, deps, y) → imageFor y r.part (f 0x20 8) = .error (st, z) → Finishes (.launch id) s z id st)
    ∧ (∀ a, s.troupe = none → RecordReady s id 0x02 none r → readRange x r.part (f 0x20 8) (128 * f 0x28 1) = .error a → Finishes (.troupe id) s (logMalformed x r.part a) id (Status.fault a))
    ∧ (∀ bs, s.troupe = none → RecordReady s id 0x02 none r → readRange x r.part (f 0x20 8) (128 * f 0x28 1) = .ok (bs, x) →
      let r' := { r with data := bs };
      (¬ ((∀ p ∈ troupeParts r', partRecordOk x r.conn p = true) ∧ ((troupeParts r').map rPart).Nodup) → Finishes (.troupe id) s x id (Status.rejected 0x20))
      ∧ ((∀ p ∈ troupeParts r', partRecordOk x r.conn p = true) → ((troupeParts r').map rPart).Nodup →
          let w := modRec { x with troupe := some { record := id, parts := [] } } id fun r => { r with data := bs };
          ∃ r'', w.recs.find? (fun r => r.id == id) = some r'' ∧ troupeParts r'' = troupeParts r'
            ∧ (∀ t, reserveParts w r'' (troupeParts r') = .ok z → z.troupe = some t → exec (.troupe id) s = .next (if t.parts.length = (troupeParts r').length then commitParts z r'' t.parts else z))
            ∧ ∀ st, reserveParts w r'' (troupeParts r') = .error (st, z) → exec (.troupe id) s = .next (endTroupe z id st)))
    ∧ (∀ t u, s.recs.find? (fun r => r.id == id) = some r → s.troupe = some t → t.record = id → recordsRun s = true →
      let kept := t.parts.filter (standing s);
      reserveParts { s with troupe := some { t with parts := kept } } r (unreserved r kept) = .ok z → z.troupe = some u →
        exec (.troupe id) s = .next (if u.parts.length = (troupeParts r).length then commitParts z r u.parts else z))
    ∧ (∀ t st, s.recs.find? (fun r => r.id == id) = some r → s.troupe = some t → t.record = id → recordsRun s = true →
      let kept := t.parts.filter (standing s);
      reserveParts { s with troupe := some { t with parts := kept } } r (unreserved r kept) = .error (st, z) → exec (.troupe id) s = .next (endTroupe z id st))
    ∧ (∀ t, s.recs.find? (fun r => r.id == id) = some r → s.troupe = some t → t.record = id → recordsRun s = true → actionsHeld s r.raw = false → f 0x2C 4 ≤ micros s r.started →
      ∃ w : State, exec (.troupeTwaitExpiry id) s = .next (finishRec w id (Status.refused (6 + 256 * rPart ((unreserved r t.parts).getD 0 [])))) ∧ w.troupe = none ∧ w.recs = s.recs)

/-- R183, R186-R188, R290, R384, R192, R193, R199: a stagehand whose turn is the record's partition copies (COPY, and the rows of COPY2D) or fills the bytes of its record in order, a unit of the destination at a time, here the last unit of
a segment of 65,536 bytes: the record ends DONE with BYTES there, or goes on in a segment of its own. An overlap ends it at once with code 3, no bytes end it DONE; at an address that does not translate it stops, and goes on when the
firmware has mapped it, or ends FAULT with FADDR. RECORD_COMPLETION takes the completion actions, the status word before the semaphore, and frees the place. -/
def Obligations.StagehandRecords : Prop :=
  ∀ (s : State) (id : Nat) (r : EngRec), findEng s id = some r → r.id = id →
    let w := r.words
    let reg (k : Nat) : Nat := (w.getD k 0).toNat
    let two : Prop := recKind w = 2
    let rows := if two then reg 3 / 2 ^ 32 else 1
    let len := if two then reg 3 % 2 ^ 32 else reg 3 % 2 ^ 48
    let dstep := if two then reg 4 / 2 ^ 32 else 0
    let sstep := if two then reg 4 % 2 ^ 32 else 0
    let total := rows * len
    let i := r.bytes
    let src := reg 1 + i / len * sstep + i % len
    let dst := reg 2 + i / len * dstep + i % len
    let side (step : Nat) : Nat := if step = len then total - i else len - i % len
    let m := min (side dstep) (64 - dst % 64)
    let ms := min (side sstep) (64 - src % 64)
    let last : Prop := min total ((i / 65536 + 1) * 65536) ≤ i + m
    let apart : Prop := ¬ (reg 1 < reg 2 + ((rows - 1) * dstep + len) ∧ reg 2 < reg 1 + ((rows - 1) * sstep + len))
    let u := noteServed s r.eng r.part
    let moves (t : State) (r' : EngRec) : Prop := findEng t id = some r' ∧ r'.bytes = i + m ∧ (i + m = total → r'.status = .done ∧ r'.code = 1) ∧ (i + m < total → r'.status = .running ∧ r'.faulted = r.faulted)
    (servable s r = true → nextServed s r.eng = some r.part ∨ r.eng = 0 ∧ r.status = .running → r.ahead = [] →
      (r.faulted = false → recKind w = 1 ∨ two →
        (i = 0 → total = 0 → ∃ t r', exec (.stagehandSegment id) s = .next t ∧ findEng t id = some r' ∧ r'.status = .done ∧ r'.code = 1 ∧ r'.bytes = 0 ∧ t.mem = s.mem)
        ∧ (i = 0 → 0 < total → ¬ apart → ∃ t r', exec (.stagehandSegment id) s = .next t ∧ findEng t id = some r' ∧ r'.status = .done ∧ r'.code = 3 ∧ r'.bytes = 0 ∧ t.mem = s.mem)
        ∧ (∀ pa pb, (i = 0 → apart) → i < total → last → m ≤ ms → translatePart s r.part .load src ms = .ok pa none → translatePart s r.part .store dst m = .ok pb none → commitHolds s pb m = false → Memory.wf s.mem = true →
            ∃ t r', exec (.stagehandSegment id) s = .next t ∧ moves t r' ∧ getCells t.mem pb m = getCells s.mem pa m ∧ (∀ q, (q < pb ∨ pb + m ≤ q) → getCell t.mem q = getCell s.mem q) ∧ t.teams = s.teams)
        ∧ ((i = 0 → apart) → i < total → (∀ pa q, translatePart s r.part .load src ms ≠ .ok pa q) →
            ∃ t r', exec (.stagehandSegment id) s = .next t ∧ findEng t id = some r' ∧ r'.status = .queued ∧ r'.faulted = true ∧ r'.faddr = BitVec.ofNat 64 src ∧ r'.bytes = i ∧ t.mem = s.mem))
      ∧ (r.faulted = false → recKind w = 3 → i < total → last → ∀ pb, translatePart s r.part .store dst m = .ok pb none → commitHolds s pb m = false → Memory.wf s.mem = true →
          ∃ t r', exec (.stagehandSegment id) s = .next t ∧ moves t r' ∧ (∀ k < m, getCell t.mem (pb + k) = BitVec.ofNat 8 (reg 1 / 2 ^ (8 * ((dst + k) % 8)))) ∧ ∀ q, (q < pb ∨ pb + m ≤ q) → getCell t.mem q = getCell s.mem q)
      ∧ (r.faulted = true → ∀ kind, kind = (if r.faddr.toNat = dst then .store else .load) →
          (∀ pa y, reach u r.part kind r.faddr.toNat 1 = some (pa, y) → exec (.stagehandSegment id) s = .next (modEng y id fun r => { r with faulted := false }))
          ∧ (reach u r.part kind r.faddr.toNat 1 = none → ∃ t r', exec (.stagehandSegment id) s = .next t ∧ findEng t id = some r' ∧ r'.status = .done ∧ r'.code = 2 ∧ r'.bytes = i ∧ r'.faddr = r.faddr ∧ t.mem = s.mem)))
    ∧ (r.status = .done → engineHeld s r = false →
      let x := modEng s id fun x => { x with status := .done, code := r.code, detail := r.detail, bytes := r.bytes };
      let word : List Byte := [BitVec.ofNat 8 r.code, BitVec.ofNat 8 (recKind w)] ++ leBytes 2 (recTag w) ++ leBytes 4 r.detail ++ leBytes 8 r.bytes ++ leBytes 8 (if r.code = 2 then r.faddr.toNat else 0) ++ leBytes 8 0;
      let y := if recSwe w then (writeRange x r.part (reg 7) word).2 else x;
      (recSwe w = false → recSeme w = false → ∃ t, exec (.recordCompletion id) s = .next t ∧ t.eng = s.eng.filter (fun x => x.id != id) ∧ t.mem = s.mem
        ∧ (recUli w = false → t.thr = s.thr)
        ∧ (recUli w = true → s.thr.live = true → s.thr.ended = false → (s.thr.task, s.thr.teamIx, s.thr.thrIx) = r.owner → s.thr.tid = r.tid → s.thr.uli.length < 16 →
            ∃ u, t.thr = { s.thr with uli := s.thr.uli ++ [u] } ∧ u.engine = r.eng ∧ u.bytes = BitVec.ofNat 64 r.bytes))
      ∧ (∀ pa, recSwe w = true → reg 7 % 32 = 0 → translatePart s r.part .store (reg 7) 32 = .ok pa none → Memory.wf s.mem = true → getCells y.mem pa 32 = word ∧ (∀ q, (q < pa ∨ pa + 32 ≤ q) → getCell y.mem q = getCell s.mem q)
          ∧ (recSeme w = false → ∃ t, exec (.recordCompletion id) s = .next t ∧ t.eng = s.eng.filter (fun x => x.id != id) ∧ t.mem = y.mem))
      ∧ (∀ pb, recSeme w = true → (recSwe w = true → ∃ pa, reg 7 % 32 = 0 ∧ translatePart s r.part .store (reg 7) 32 = .ok pa none) → translatePart y r.part .store (reg 5) 8 = .ok pb none → Memory.wf y.mem = true →
          ∃ t, exec (.recordCompletion id) s = .next t ∧ t.eng = s.eng.filter (fun x => x.id != id) ∧ getLe t.mem pb 8 = (getLe y.mem pb 8 + reg 6) % 2 ^ 64
          ∧ ∀ q, (q < pb ∨ pb + 8 ≤ q) → getCell t.mem q = getCell y.mem q))

/-- A message to a peer leaves at once over its idle open connection, which keeps it until it is acknowledged; one that no window lets go waits there; without a connection of the channel the device opens one through the port, and the
message waits for it (R330-R332). -/
def Sys2Proof.Machine.Leaves (s t : State) (port : Nat) (node : Word) (chan : Nat) (x : PeerMsg) : Prop :=
  (∀ c, s.conns.find? (fun c => c.node == node && c.chan == chan && !c.lost && !c.closing) = some c → s.conns.find? (fun x => x.id == c.id) = some c →
    ∃ c' ∈ t.conns, c'.id = c.id ∧ c'.node = node ∧ c'.chan = chan ∧ c'.unacked = c.unacked ++ [(c.tx, .peer x)] ∧ c'.tx = c.tx + 1
    ∧ (c.isOpen = true → c.unacked = [] → c.flight = 0 → 0 < c.win → c.holdUntil ≤ s.mod.time → t.out = s.out ++ [.peer c.port chan c.tx s.mod.cfg.node node x])
    ∧ (c.win ≤ c.flight → t.out = s.out))
  ∧ ((∀ c ∈ s.conns, (c.node ≠ node ∨ c.chan ≠ chan) ∧ c.id ≠ s.nextId) → t.out = s.out ++ [.clovo port 4 chan 0 0 0 0 0 s.mod.cfg.node node (if chan = 3 then leBytes 8 s.mod.cfg.feed.toNat else [])]
    ∧ ∃ c' ∈ t.conns, c'.id = s.nextId ∧ c'.node = node ∧ c'.chan = chan ∧ c'.isOpen = false ∧ c'.unacked = [(0, .peer x)])

/-- A DATA message of a peer's channel is delivered on its connection c (R327-R332): the filter takes it, it is the next in order, and neither the buffer nor the acknowledgments owed are full. -/
def Sys2Proof.Machine.PeerGate (s : State) (m : Clovo) (chan : Nat) (c : Conn) : Prop :=
  filterOn s = true ∧ portTakes m = true ∧ clovoSound s m = true ∧ m.chan = chan ∧ connOf s m = some c ∧ s.conns.find? (fun x => x.id == c.id) = some c ∧ m.psn = c.rx ∧ c.refuseUntil ≤ s.mod.time ∧ bufferUsed s < 2 ^ 20 ∧ c.owed < 15

/-- It has the effect that leads from s to y, and its connection expects the next. -/
def Sys2Proof.Machine.Delivers (i : Instr) (s y : State) (c : Conn) : Prop := exec i s = .next (modConn y c.id fun c => { c with rx := c.rx + 1, owed := c.owed + 1 })

/-- R189-R191, R377, R378, R330-R332: a collective record, its push's release complete, starts with its first frame to the member it sends to, or ends MALFORMED with aborts to the members of its table; a frame, delivered as DATA of an
open connection, joins the sources and goes on round the ring; RECV writes what came; what disagrees ends MISMATCH with the destination as it was; a frame of another epoch than the record's, or of a round that is over, is dropped; frames and
HOLD frames of the predecessor restart the time-out, and HOLD frames are sent; a member not heard of ends it TIMEOUT with its rank and aborts, an abort of its round ABORTED. From a node without an open COLLECTIVE connection a frame, a HOLD and an abort receive NAK NOCONN. What becomes of frames that come early or late, and the order of the rounds, is the model's choice where R190 and R378 leave it open (log 36). -/
def Obligations.CollectiveRecords : Prop :=
  (∀ (s : State) (id : Nat) (r : EngRec) (head ents entries bs : List Byte), findEng s id = some r → r.id = id → r.eng = 40 → r.status = .queued → collTurn s r = true → engineServes s r = true →
    let k := recKind r.words;
    let c := recDword r.words 3;
    let g := recDword r.words 4;
    (recordReady s r = false → exec (.collectiveRecordStart id) s = .next s)
    ∧ (recordReady s r = true → readRange s r.part g 16 = .ok (head, s) →
    let n := fieldOf head 0 2;
    let t := groupTable head entries;
    readEntries s r.part g (min n 64) 0 = (ents, s) →
    (n < 2 ∨ 64 < n → ∃ w r', exec (.collectiveRecordStart id) s = .next w ∧ findEng w id = some r' ∧ r'.status = .done ∧ r'.code = 7 ∧ w.mem = s.mem)
    ∧ (2 ≤ n → n ≤ 64 → readRange s r.part (g + 16) (16 * n) = .ok (entries, s) → tableOk t k c = false → ∃ w r', exec (.collectiveRecordStart id) s = .next w ∧ findEng w id = some r' ∧ r'.status = .done ∧ r'.code = 7
        ∧ w.mem = s.mem ∧ ∀ i < n, (∀ j < n, j ≠ t.rank ∧ 1 ≤ t.ports.getD j 0 ∧ t.ports.getD j 0 ≤ 8 ↔ j = i) → ∃ a : CollAbort, Leaves s w (t.ports.getD i 0) (t.nodes.getD i 0) 2 (.abort a) ∧ a.epoch = t.epoch ∧ a.kind = k)
    ∧ (2 ≤ n → n ≤ 64 → readRange s r.part (g + 16) (16 * n) = .ok (entries, s) → tableOk t k c = true →
        firstHole s r.part .load (srcBytes k c / 4096 + 2) (recDword r.words 1) (srcBytes k c) = (none, s) → firstHole s r.part .store (dstBytes k c n / 4096 + 2) (recDword r.words 2) (dstBytes k c n) = (none, s) →
        readRange s r.part (recDword r.words 1) (srcBytes k c) = .ok (bs, s) → s.frames = [] →
        let rank := if k = 0x13 ∨ k = 0x14 then cdPeer c else (t.rank + 1) % n;
        ∃ w r' x f, exec (.collectiveRecordStart id) s = .next w ∧ w.mem = s.mem ∧ Leaves s w (t.ports.getD rank 0) (t.nodes.getD rank 0) 2 (.frame f) ∧ f.bytes = bs ∧ f.origin = t.rank ∧ f.epoch = t.epoch ∧ f.kind = k ∧ f.count = cdCount c
          ∧ f.nmem = n ∧ findEng w id = some r' ∧ r'.status = .running ∧ r'.coll = some x ∧ x.lastRecv = s.mod.time ∧ x.rank = t.rank ∧ x.round = f.round)))
  ∧ (∀ (s : State) (m : Clovo) (g : CollFrame) (cn : Conn), PeerGate s m 2 cn → engineOn s = true →
    let f := { g with node := m.src };
    let h := heardFrom s m.src g.epoch;
    (∀ r x, recordFor s f = some (r, x) → findEng s r.id = some r → (∀ e ∈ x.sources, e.origin ≠ f.origin) →
      let k := recKind r.words;
      let c := recDword r.words 3;
      let n := x.nodes.length;
      let next := (x.rank + 1) % n;
      (k < 0x13 → x.sources.length + 1 < n → f.nmem = n → ∃ t r' x', Delivers (.collectiveFrame (m, g)) s t cn ∧ findEng t r.id = some r' ∧ r'.status = .running ∧ r'.coll = some x' ∧ x'.sources = x.sources ++ [f]
          ∧ x'.lastRecv = s.mod.time ∧ x'.bad = (x.bad || !agrees r x f) ∧ t.mem = s.mem
          ∧ (next = f.origin → t.out = s.out) ∧ (next ≠ f.origin → Leaves s t (x.ports.getD next 0) (x.nodes.getD next 0) 2 (.frame { f with node := s.mod.cfg.node })))
      ∧ (k = 0x14 → agrees r x f = false → ∃ t r', Delivers (.collectiveFrame (m, g)) s t cn ∧ findEng t r.id = some r' ∧ r'.status = .done ∧ r'.code = 6 ∧ t.mem = s.mem ∧ t.out = s.out)
      ∧ (∀ y z l, k = 0x14 → agrees r x f = true → x.bad = false → x.sources = [] → f.origin = cdPeer c → f.poison = [] →
          let x0 := modEng h r.id fun r => { r with coll := some { x with sources := [f], lastRecv := s.mod.time } };
          rangeHeld x0 r.part (recDword r.words 2) (dstBytes k c n) = false → firstHole x0 r.part .store (f.bytes.length / 4096 + 2) (recDword r.words 2) f.bytes.length = (none, y) →
          writeRange y r.part (recDword r.words 2) f.bytes = (l, z) → Delivers (.collectiveFrame (m, g)) s (endRecord z r.id 1 0 (cdCount c) 0) cn))
    ∧ (recordFor s f = none → otherEpoch s m.src g.epoch = false → Delivers (.collectiveFrame (m, g)) s (if f.round < roundOf s (frameKey f) then h else { h with frames := s.frames ++ [f] }) cn)
    ∧ (otherEpoch s m.src g.epoch = true → Delivers (.collectiveFrame (m, g)) s s cn)
    ∧ (∀ r x, r ∈ s.eng → r.coll = some x → r.status = .running → x.epoch = g.epoch → x.nodes.getD (sourceRank (recKind r.words) (recDword r.words 3) x) 0 = m.src → { r with coll := some { x with lastRecv := s.mod.time } } ∈ h.eng))
  ∧ (∀ (s : State) (m : Clovo) (epoch : Word) (cn : Conn), PeerGate s m 2 cn → Delivers (.holdFrame m epoch) s (heardFrom s m.src epoch) cn)
  ∧ (∀ (s : State) (id : Nat) (r : EngRec) (x : CollState), findEng s id = some r → r.id = id → r.status = .running → r.coll = some x →
    let next := (x.rank + 1) % x.nodes.length;
    (recKind r.words < 0x13 → max (recTmo r.words / 4) 1 ≤ micros s x.lastSent → ∃ t r', exec (.holdTimer id) s = .next t ∧ Leaves s t (x.ports.getD next 0) (x.nodes.getD next 0) 2 (.hold x.epoch) ∧ findEng t id = some r'
        ∧ r'.coll = some { x with lastSent := s.mod.time } ∧ t.mem = s.mem)
    ∧ (recTmo r.words ≠ 0 → recTmo r.words ≤ micros s x.lastRecv → ∃ t r', exec (.collectiveTimeout id) s = .next t ∧ findEng t id = some r' ∧ r'.status = .done ∧ r'.code = 4
        ∧ r'.detail = sourceRank (recKind r.words) (recDword r.words 3) x ∧ t.mem = s.mem
        ∧ ∀ i < x.nodes.length, (∀ j < x.nodes.length, j ≠ x.rank ∧ 1 ≤ x.ports.getD j 0 ∧ x.ports.getD j 0 ≤ 8 ↔ j = i) →
            Leaves s t (x.ports.getD i 0) (x.nodes.getD i 0) 2 (.abort { node := s.mod.cfg.node, epoch := x.epoch, kind := recKind r.words, round := x.round }))
    ∧ (∀ m cn (b : CollAbort), PeerGate s m 2 cn → b.epoch = x.epoch → b.round = x.round →
        (b.kind ≠ 0x13 ∧ b.kind ≠ 0x14 ∧ recKind r.words < 0x13 ∨ (b.kind = 0x13 ∧ recKind r.words = 0x14 ∨ b.kind = 0x14 ∧ recKind r.words = 0x13) ∧ x.nodes.getD (cdPeer (recDword r.words 3)) 0 = m.src) →
        ∃ t r', Delivers (.collectiveAbort (m, b)) s t cn ∧ findEng t id = some r' ∧ r'.status = .done ∧ r'.code = 5 ∧ t.mem = s.mem ∧ t.out = s.out))
  ∧ (∀ (s : State) (m : Clovo) (f : CollFrame) (epoch : Word) (a : CollAbort), filterOn s = true → portTakes m = true → clovoSound s m = true → connOf s m = none → ∀ i ∈ [Instr.collectiveFrame (m, f), .holdFrame m epoch, .collectiveAbort (m, a)],
      ∃ w, exec i s = .next { s with freeCtr := s.freeCtr + 1, out := s.out ++ [.clovo m.port 3 m.chan 0 0 w 0 3 s.mod.cfg.node m.src []] })

/-! ### The wire -/

/-- A Clovo message that the ingress filter takes (R327-R329). -/
def Sys2Proof.Machine.Taken (s : State) (m : Clovo) : Prop := filterOn s = true ∧ portTakes m = true ∧ clovoSound s m = true

/-- R328-R332, R344, R345, R412: OPEN from a listed node is answered OPENACK and the connection starts at PSN 0, with COMMAND the device opens REPLY; another gets NAK NOCONN. DATA is taken in PSN order, acknowledged when it comes again, and
answered NAK ORDER when it is early, NAK FULL while refusals last; a record in it joins the ingress buffer and wakes its firmware core. CLOSE ends a connection with nothing outstanding. Frames on the wrong port are dropped and counted. -/
def Obligations.HostConnections : Prop :=
  ∀ (s : State) (m : Clovo),
    (filterOn s = false → ∀ i ∈ [Instr.clovoData m, .clovoAck m, .clovoNakOrder m, .clovoNakFull m, .clovoOpen m, .clovoOpenack m, .clovoClose m], exec i s = .next s)
    ∧ (filterOn s = true → portTakes m = false → ∀ i ∈ [Instr.clovoData m, .clovoAck m, .clovoNakOrder m, .clovoNakFull m, .clovoOpen m, .clovoOpenack m, .clovoClose m], exec i s = .next { s with mod := { s.mod with dropped := s.mod.dropped + 1 } })
    ∧ (Taken s m →
      (mayOpen s m = false → ∃ t w, exec (.clovoOpen m) s = .next t ∧ t.out = s.out ++ [.clovo m.port 3 m.chan 0 0 w 0 3 s.mod.cfg.node m.src []] ∧ t.conns = s.conns ∧ t.mem = s.mem)
      ∧ (mayOpen s m = true → m.chan = 2 → (∀ c ∈ s.conns, c.node ≠ m.src) → ∃ t w c, exec (.clovoOpen m) s = .next t ∧ t.out = s.out ++ [.clovo m.port 5 2 0 0 w 0 0 s.mod.cfg.node m.src []] ∧ t.conns = s.conns ++ [c]
          ∧ c.node = m.src ∧ c.chan = 2 ∧ c.port = m.port ∧ c.isOpen = true ∧ c.rx = 0 ∧ c.tx = 0 ∧ c.win = m.win ∧ t.mem = s.mem)
      ∧ (mayOpen s m = true → m.chan = 0 → (∀ c ∈ s.conns, c.node ≠ m.src) → ∃ t w c d, exec (.clovoOpen m) s = .next t ∧ t.out = s.out ++ [.clovo m.port 5 0 0 0 w 0 0 s.mod.cfg.node m.src [], .clovo m.port 4 1 0 0 0 0 0 s.mod.cfg.node m.src []]
          ∧ t.conns = s.conns ++ [c, d] ∧ c.node = m.src ∧ c.chan = 0 ∧ c.isOpen = true ∧ c.rx = 0 ∧ d.node = m.src ∧ d.chan = 1 ∧ d.isOpen = false ∧ d.tx = 0 ∧ t.mem = s.mem)
      ∧ (mayOpen s m = true → m.chan = 3 → (∀ c ∈ s.conns, c.node ≠ m.src) → ∃ t w c, exec (.clovoOpen m) s = .next t ∧ t.out = s.out ++ [.clovo m.port 5 3 0 0 w 0 0 s.mod.cfg.node m.src (leBytes 8 s.mod.cfg.feed.toNat)] ∧ t.conns = s.conns ++ [c]
          ∧ c.node = m.src ∧ c.chan = 3 ∧ c.isOpen = true
          ∧ ∀ p < 8, (t.part p).rp.feed = true ↔ (s.part p).rp.feed = true ∨ ∃ d port, (s.part p).domain = some d ∧ d.partner = some (m.src, port) ∧ BitVec.ofNat 64 (fieldOf m.payload 0 8) = s.mod.cfg.feed)
      ∧ (connOf s m = none → ∀ i ∈ [Instr.clovoData m, .clovoAck m, .clovoNakOrder m, .clovoNakFull m, .clovoClose m], ∃ t w, exec i s = .next t ∧ t.out = s.out ++ [.clovo m.port 3 m.chan 0 0 w 0 3 s.mod.cfg.node m.src []] ∧ t.conns = s.conns)
      ∧ ∀ c, connOf s m = some c → s.conns.find? (fun x => x.id == c.id) = some c →
        (m.psn = c.rx → m.chan ≠ 0 → c.refuseUntil ≤ s.mod.time → bufferUsed s < 2 ^ 20 → c.owed + 1 < 16 → exec (.clovoData m) s = .next (modConn s c.id fun c => { c with rx := c.rx + 1, owed := c.owed + 1 }))
        ∧ (m.psn = c.rx → m.chan ≠ 0 → s.mod.time < c.refuseUntil ∨ 2 ^ 20 ≤ bufferUsed s → ∃ t w n, exec (.clovoData m) s = .next t ∧ t.out = s.out ++ [.clovo m.port 3 m.chan 0 (c.rx - 1) w n 2 s.mod.cfg.node m.src []] ∧ 10 ≤ n ∧ n ≤ 65535
            ∧ t.conns = (modConn s c.id fun c => { c with refuseUntil := s.mod.time + 1400 * n }).conns)
        ∧ (m.psn ≠ c.rx → (m.psn - c.rx).msb = true → ∃ t w, exec (.clovoData m) s = .next t ∧ t.out = s.out ++ [.clovo c.port 2 c.chan 0 (c.rx - 1) w 0 0 s.mod.cfg.node c.node []] ∧ t.recs = s.recs)
        ∧ (m.psn ≠ c.rx → (m.psn - c.rx).msb = false → ∃ t w, exec (.clovoData m) s = .next t ∧ t.out = s.out ++ [.clovo m.port 3 m.chan 0 (c.rx - 1) w 0 1 s.mod.cfg.node m.src []] ∧ t.recs = s.recs ∧ t.conns = s.conns)
        ∧ (m.chan = 0 → m.psn = c.rx → m.flags.getLsbD 0 = false → m.payload.length = 128 → malformedAt m.payload = none → safeOk s m.payload = true → dataLen m.payload = 0 → fastPath s m.payload = false → s.mod.power = .ps0 →
            c.refuseUntil ≤ s.mod.time → bufferUsed s + 128 ≤ 2 ^ 20 → c.owed + 1 < 16 → ∃ t r, exec (.clovoData m) s = .next t ∧ t.recs = s.recs ++ [r] ∧ r.id = s.nextId ∧ r.raw = m.payload ∧ r.conn = c.id ∧ r.status = .buffered
            ∧ r.kind = rKind m.payload ∧ (t.mod.fw[ownerCore m.payload]?.map (·.wake)) = (s.mod.fw[ownerCore m.payload]?.map fun _ => true) ∧ t.mem = s.mem ∧ t.out = s.out)
        ∧ (c.unacked = [] → c.owed = 0 → ∃ t c', exec (.clovoClose m) s = .next t ∧ t.out = s.out ∧ t.conns.find? (fun x => x.id == c.id) = some c' ∧ c'.closing = true ∧ c'.isOpen = false))

/-- R331, R332, R328, R330: an ACK retires what it covers; NAK ORDER and time-outs resend from there; NAK FULL holds messages back for RETRY microseconds; OPENACK opens the device's connection; owed data is acknowledged; the eighth
attempt without an answer loses the connection and is logged. ARP requests and neighbour solicitations for the port's addresses are answered; other frames are dropped and counted. -/
def Obligations.HostDelivery : Prop :=
  ∀ (s : State) (m : Clovo) (c : Conn) (p : Word32) (b : Payload), s.conns.find? (fun x => x.id == c.id) = some c →
    let data : Out := match b with
      | .bytes l => .clovo c.port 1 c.chan p (c.rx - 1) 0 0 0 s.mod.cfg.node c.node l
      | .peer x => .peer c.port c.chan p s.mod.cfg.node c.node x
    (Taken s m → connOf s m = some c → c.unacked = [(p, b)] →
      (m.apsn = p → c.flight = 1 → c.closing = false → ∃ t c', exec (.clovoAck m) s = .next t ∧ t.out = s.out ∧ t.conns.find? (fun x => x.id == c.id) = some c' ∧ c' = { c with unacked := [], flight := 0, win := m.win, tries := 0 })
      ∧ (m.apsn = p - 1 → 0 < m.win → c.holdUntil ≤ s.mod.time → c.isOpen = true → ∃ t, exec (.clovoNakOrder m) s = .next t ∧ t.out = s.out ++ [data] ∧ t.recs = s.recs ∧ t.mem = s.mem)
      ∧ (m.apsn = p - 1 → ∃ t c', exec (.clovoNakFull m) s = .next t ∧ t.out = s.out ∧ t.conns.find? (fun x => x.id == c.id) = some c' ∧ c'.holdUntil = s.mod.time + 1400 * m.retry ∧ c'.unacked = c.unacked ∧ c'.tries = 0))
    ∧ (Taken s m → s.conns.find? (fun c => c.node == m.src && c.chan == m.chan && !c.isOpen && !c.lost && !c.closing) = none → connOf s m = none →
        ∃ t w, exec (.clovoOpenack m) s = .next t ∧ t.out = s.out ++ [.clovo m.port 3 m.chan 0 0 w 0 3 s.mod.cfg.node m.src []] ∧ t.conns = s.conns)
    ∧ (Taken s m → m.chan ≠ 3 → s.conns.find? (fun c => c.node == m.src && c.chan == m.chan && !c.isOpen && !c.lost && !c.closing) = some c →
        ∃ t c', exec (.clovoOpenack m) s = .next t ∧ (c.unacked = [] → t.out = s.out) ∧ (c.unacked = [(p, b)] → 0 < m.win → c.holdUntil ≤ s.mod.time → t.out = s.out ++ [data]) ∧ t.conns.find? (fun x => x.id == c.id) = some c' ∧ c'.isOpen = true ∧ c'.win = m.win)
    ∧ (filterOn s = true →
      (c.isOpen = true → c.holdUntil ≤ s.mod.time → 0 < c.win → c.unacked = [(p, b)] → ∃ t, exec (.retryExpiry c.id) s = .next t ∧ t.out = s.out ++ [data] ∧ t.recs = s.recs)
      ∧ (c.owed ≠ 0 → ∃ t w c', exec (.ackTimer c.id) s = .next t ∧ t.out = s.out ++ [.clovo c.port 2 c.chan 0 (c.rx - 1) w 0 0 s.mod.cfg.node c.node []] ∧ t.conns.find? (fun x => x.id == c.id) = some c' ∧ c'.owed = 0)
      ∧ (c.isOpen = true → c.flight = 1 → c.tries < 8 → min (50 * 2 ^ c.tries) 6400 ≤ micros s c.sentAt → c.holdUntil ≤ s.mod.time → 0 < c.win → c.unacked = [(p, b)] →
          ∃ t c', exec (.retransmitTimeout c.id) s = .next t ∧ t.out = s.out ++ [data] ∧ t.conns.find? (fun x => x.id == c.id) = some c' ∧ c'.tries = c.tries + 1)
      ∧ (s.mod.time < c.holdUntil → exec (.retransmitTimeout c.id) s = .next s ∧ exec (.connectionLost c.id) s = .next s)
      ∧ (c.isOpen = true → c.flight ≠ 0 → 8 ≤ c.tries → min (50 * 2 ^ c.tries) 6400 ≤ micros s c.sentAt → c.holdUntil ≤ s.mod.time →
          ∃ t c', exec (.connectionLost c.id) s = .next t ∧ t.out = s.out ∧ t.conns.find? (fun x => x.id == c.id) = some c' ∧ c'.isOpen = false ∧ c'.lost = true ∧ t.mod.errorLog = s.mod.errorLog ++ [c.id])
      ∧ (∀ port ip, exec (.arpRequest port ip) s = .next (if (port, ip) ∈ s.mod.cfg.ips then { s with out := s.out ++ [.arpReply port (s.mod.cfg.macs[port]?.getD 0) ip] } else s))
      ∧ (∀ port ip, exec (.neighbourSolicitation port ip) s = .next (if (port, ip) ∈ s.mod.cfg.ip6s then { s with out := s.out ++ [.neighbourAdvert port (s.mod.cfg.macs[port]?.getD 0) ip] } else s))
      ∧ ∀ fr : WireFrame, exec (.unsupportedFrame fr) s = .next (if wireFrame s fr.port fr.bytes = none then { s with mod := { s.mod with dropped := s.mod.dropped + 1 } } else s))

/-! ### Control and DEBUG records -/

/-- R252-R255, R326, R341, R343, R286: CUE_LOAD puts a checked image into the standby slot, or ends REJECTED; CUE_SWAP asks for the exchange, a second one for a second exchange; the READ operations answer their words; DSWAP exchanges the dirty bitmaps; QSET sets a queue. -/
def Obligations.CueAndQueueRecords : Prop :=
  ∀ (s : State) (id : Nat) (r : HRec), r.part < 8 →
    let x := Begun s id
    let f (o n : Nat) := fieldOf r.raw o n
    (RecordReady s id 0x06 none r →
      (∀ a, readRange x r.part (f 0x20 8) (f 0x28 4) = .error a → Finishes (.cueLoad id) s (logMalformed x r.part a) id (Status.fault a))
      ∧ ∀ bs, readRange x r.part (f 0x20 8) (f 0x28 4) = .ok (bs, x) →
        (∀ o, cueImageFault bs = some o → Finishes (.cueLoad id) s x id (Status.rejected (2 ^ 31 + o)))
        ∧ (cueImageFault bs = none → ∃ y img, Finishes (.cueLoad id) s y id Status.done ∧ y = modPart x r.part (fun q => { q with cueStandby := some img }) ∧ img.code.length = fieldOf bs 6 2
            ∧ (∀ k < fieldOf bs 6 2, img.code.getD k 0 = BitVec.ofNat 16 (fieldOf bs (32 + 2 * k) 2)) ∧ ∀ k < 4, img.entries.getD k 0 = fieldOf bs (8 + 2 * k) 2))
    ∧ (RecordReady s id 0x07 none r →
      ((s.part r.part).cueStandby = none → Finishes (.cueSwap id) s x id (Status.refused 5))
      ∧ ((s.part r.part).cueStandby ≠ none → (s.part r.part).cueStat.swapPend = false →
          Finishes (.cueSwap id) s (modPart x r.part fun q => { q with cueStat := { q.cueStat with swapPend := true } }) id Status.done)
      ∧ ((s.part r.part).cueStandby ≠ none → (s.part r.part).cueStat.swapPend = true →
          Finishes (.cueSwap id) s (modPart x r.part fun q => { q with cueStat := { q.cueStat with moreSwaps := q.cueStat.moreSwaps + 1 } }) id Status.done))
    ∧ (RecordReady s id 0x13 (some 1) r → Answers (.readCuestat id) s x r Status.done (leBytes 8 (cueStatBits (s.part r.part)).toNat))
    ∧ (RecordReady s id 0x13 (some 2) r → Answers (.readSchedstat id) s x r Status.done (leBytes 8 (schedStatBits x r.part).toNat))
    ∧ (RecordReady s id 0x13 (some 3) r → Answers (.dswap id) s (modPart x r.part fun q => { q with dirtyActive := q.dirtyIdle, dirtyIdle := q.dirtyActive }) r Status.done [])
    ∧ (RecordReady s id 0x13 (some 5) r → f 0x22 1 < 64 → ∃ y, Answers (.qset id) s y r Status.done [] ∧ y.mem = s.mem
        ∧ (let q := nth (y.part r.part).queues (f 0x22 1) noQueue;
           q.prio = BitVec.ofNat 4 (f 0x23 1) ∧ q.enabled = decide (f 0x24 1 = 1) ∧ q.limit = f 0x25 2 + 1)
        ∧ ∀ k < 64, k ≠ f 0x22 1 → nth (y.part r.part).queues k noQueue = nth (s.part r.part).queues k noQueue)

/-- R304, R305, R342, R288, R287, R341: PART_CREATE refuses what is taken, and else the partition stands with its quota, heap grant, queues and cores; PART_DESTROY removes everything of it and its memory joins the zeroing list; RANGE_ACQUIRE sets
DEV in the leaves of the range, RANGE_RELEASE clears it and shoots down the translations. What counts toward the quota and the order of the refusals is the model's choice (log 34). -/
def Obligations.PartitionRecords : Prop :=
  ∀ (s : State) (id : Nat) (r : HRec), r.part < 8 →
    let x := Begun s id
    let f (o n : Nat) := fieldOf r.raw o n
    (RecordReady s id 0x08 none r →
      (∀ k, createRefusal x r.raw = some k → Finishes (.partCreate id) s x id (Status.refused k))
      ∧ (createRefusal x r.raw = none → f 3 1 = 0 → ∃ t, exec (.partCreate id) s = .next t
          ∧ (let q := t.part r.part;
             q.present = true ∧ q.quota = f 0x38 8 ∧ q.heapPA = f 0x40 8 ∧ q.heapLen = f 0x48 8 ∧ q.frozen = false ∧ q.domain = none ∧ (∀ k < 64, (nth q.queues k noQueue).limit = f 0x58 8 / 2 ^ 43 % 2 ^ 16 + 1))
          ∧ (∀ c < 192, (t.core c).owner = if (f 0x20 24).testBit c then some r.part else (s.core c).owner) ∧ (∀ p, p ≠ r.part → t.part p = s.part p) ∧ t.mem = s.mem ∧ t.thr = s.thr))
    ∧ (RecordReady s id 0x09 none r → f 3 1 = 0 → (∀ u, s.troupe = some u → ∀ w ∈ s.recs, w.part = r.part → w.id ≠ u.record) → ∃ t, exec (.partDestroy id) s = .next t ∧ (t.part r.part).present = false ∧ (∀ k ∈ t.tasks, k.part ≠ r.part) ∧ (∀ u ∈ t.teams, u.part ≠ r.part)
        ∧ (∀ w ∈ t.threads, w.live = true → w.part ≠ r.part) ∧ (∀ e ∈ t.eng, e.part ≠ r.part) ∧ (∀ c < 192, (t.core c).owner ≠ some r.part) ∧ t.zeroing = s.zeroing ++ partRanges (s.part r.part)
        ∧ (∀ p, p ≠ r.part → t.part p = s.part p) ∧ t.mem = s.mem)
    ∧ (∀ e ea, f 0x20 8 % 4096 = 0 → f 0x28 8 = 4096 → walkVA s r.part (f 0x20 8) = some (e, ea, 4096) → e < 2 ^ 64 → Memory.wf s.mem = true → (s.part r.part).ranges.length < 1024 →
      (RecordReady s id 0x0A none r → ∃ y, Finishes (.rangeAcquire id) s y id Status.done ∧ (getLe y.mem ea 8).testBit 1 = true ∧ (∀ k, k ≠ 1 → (getLe y.mem ea 8).testBit k = e.testBit k)
          ∧ (∀ q, (q < ea ∨ ea + 8 ≤ q) → getCell y.mem q = getCell s.mem q) ∧ { va := f 0x20 8, len := 4096, device := true } ∈ (y.part r.part).ranges
          ∧ (∀ c ∈ y.cores, c.owner = some r.part → ∀ z ∈ c.tlb, f 0x20 8 + 4096 ≤ z.va ∨ z.va + z.size ≤ f 0x20 8))
      ∧ (RecordReady s id 0x0B none r → (∀ w ∈ s.recs, w.id = id → w = r) → f 3 1 = 0 →
          let y := shootDown (setOwner x r.part (f 0x20 8) 4096 false) r.part (f 0x20 8) 4096;
          let frames := (pagesOf (f 0x20 8) 4096).filterMap (frameOf y r.part);
          (accessPending y frames = true → exec (.rangeRelease id) s = .next y) ∧ (accessPending y frames = false → Finishes (.rangeRelease id) s y id Status.done)
          ∧ (getLe y.mem ea 8).testBit 1 = false ∧ (∀ k, k ≠ 1 → (getLe y.mem ea 8).testBit k = e.testBit k)
          ∧ (∀ q, (q < ea ∨ ea + 8 ≤ q) → getCell y.mem q = getCell s.mem q) ∧ (∀ c ∈ y.cores, c.owner = some r.part → ∀ z ∈ c.tlb, f 0x20 8 + 4096 ≤ z.va ∨ z.va + z.size ≤ f 0x20 8)))

/-- R347, R348, R375, R376, R353, R351, R352, R416: CONN_SET refuses a table beyond the caps or that leaves a die out, else lowers entries at once and is done when the raised ones are lit; READ_ATTESTATION answers the report with its signature; PSTATE enters PS2
when no partition is present; CFGWRITE keeps a block whose signature verifies for the next start, and refuses another; RESTART stops the module. The layout of the configuration block and the functions that sign and verify are the model's own (logs 15 and 20). -/
def Obligations.ModuleRecords : Prop :=
  ∀ (s : State) (id : Nat) (r : HRec),
    let x := Begun s id
    let f (o n : Nat) := fieldOf r.raw o n
    let want := (connEntries r.raw).foldl (fun t e => setUnits t e.1 e.2.1 e.2.2) s.mod.circuits
    (s.mod.raising = [] → RecordReady s id 0x12 none r →
      (∀ k, tableRefusal x want = some k → Finishes (.connSet id) s x id (Status.refused k))
      ∧ (tableRefusal x want = none → (∀ e ∈ want, e.2.2 ≤ unitsOf s.mod.circuits e.1 e.2.1) → ∃ y, Finishes (.connSet id) s y id Status.done ∧ y.mod.raising = [] ∧ y.mem = s.mem ∧ y.thr = s.thr)
      ∧ (tableRefusal x want = none → (∃ e ∈ want, unitsOf s.mod.circuits e.1 e.2.1 < e.2.2) → ∃ t, exec (.connSet id) s = .next t ∧ t.mod.raising = want.filter (fun e => decide (unitsOf s.mod.circuits e.1 e.2.1 < e.2.2))
          ∧ t.mod.raisingRec = some id ∧ t.mem = s.mem))
    ∧ (∀ a b n, recordsRun s = true → s.mod.raising = [(a, b, n)] → s.mod.raisingRec = some id →
        Finishes (.circuitLit a b) s { s with mod := { s.mod with circuits := setUnits s.mod.circuits a b n, raising := [], raisingRec := none } } id Status.done)
    ∧ (RecordReady s id 0x13 (some 4) r → Answers (.readAttestation id) s x r Status.done (report x ++ Config.attestationSignature (report x)))
    ∧ (RecordReady s id 0x13 (some 6) r → f 3 1 = 0 → (∀ p, (s.part p).present = false) → ∃ t, exec (.pstate id) s = .next t ∧ t.mod.power = .ps2 ∧ t.mod.time = s.mod.time ∧ t.thr = s.thr)
    ∧ (∀ bs, RecordReady s id 0x13 (some 7) r → readRange x r.part (f 0x22 8) (f 0x2A 4) = .ok (bs, x) →
        ∃ n, Answers (.cfgwrite id) s (if Config.signatureVerifies bs = true then { x with mod := { x.mod with nextCfg := some { Config.configOf bs with raw := bs } } } else { x with freeCtr := x.freeCtr + 1 }) r
          (if Config.signatureVerifies bs = true then Status.done else Status.refused n) [])
    ∧ (RecordReady s id 0x13 (some 8) r → f 3 1 = 0 → ∃ t, exec (.restartModule id) s = .next t ∧ t.mod.inReset = true ∧ t.mod.portOpen = false ∧ t.mod.coldDue = decide (f 0x22 1 = 1) ∧ t.tasks = [] ∧ t.teams = [] ∧ t.recs = [] ∧ t.eng = []
        ∧ t.conns = [] ∧ t.mod.time = s.mod.time)

/-- R401-R408, R231-R233: a checkpoint OPEN counts up as rpopen does; DOMAIN designates a domain, PARTNER names or drops the partner, JREAD writes the latest entries; CKPT_COMMIT begins the commit of the open point and ends DONE when COMMIT_END
has made it durable, FAULT when that failed; STALL_END lets held writes go. Reason 13 when there is no domain or no such point. Where the rules of a commit leave an order open it is the model's choice (log 39), and whether the partner refuses is a free value (log 44). -/
def Obligations.CheckpointRecords : Prop :=
  ∀ (s : State) (id : Nat) (r : HRec), r.part < 8 →
    let x := Begun s id
    let f (o n : Nat) := fieldOf r.raw o n
    let q := s.part r.part
    (RecordReady s id 0x0C none r →
      (f 0x20 1 = 0 → q.domain = none →
        (q.rp.state ≠ 0 → Finishes (.ckptOpen id) s x id (doneWith 0))
        ∧ (q.rp.state = 0 → Finishes (.ckptOpen id) s (modPart x r.part fun q => { q with rp := { q.rp with rpseq := q.rp.rpseq + 1, state := 1, cfail := false } }) id (doneWith (q.rp.rpseq + 1).toNat)))
      ∧ (f 0x20 1 = 0 → Finishes (.ckptOpen id) s (openPoint x r.part).2 id (doneWith (openPoint x r.part).1.toNat))
      ∧ (f 0x20 1 = 1 →
        (q.domain ≠ none ∨ anyRunning s r.part = true ∨ q.rp.state ≠ 0 → Finishes (.domain id) s x id (Status.refused 13))
        ∧ (q.domain = none → anyRunning s r.part = false → q.rp.state = 0 → ∀ w, newDomain x r.part (f 0x28 8) (f 0x30 8 % 2 ^ 32) (f 0x30 8 / 2 ^ 32 % 2 ^ 16) (f 0x38 8) = w →
            (w = none → Finishes (.domain id) s x id (Status.refused 17))
            ∧ ∀ d, w = some d → Finishes (.domain id) s (modPart x r.part fun q => { q with domain := some d, usedFrames := q.usedFrames + domainFrames d.nwork }) id Status.done ∧ d.nwork = f 0x30 8 % 2 ^ 32 ∧ d.granules.length = d.nwork))
      ∧ (f 0x20 1 = 3 → (q.domain = none → Finishes (.partner id) s x id (Status.refused 13))
        ∧ (∀ d, q.domain = some d → f 0x30 1 = 0 → ∃ y, Finishes (.partner id) s y id Status.done ∧ (y.part r.part).domain = some { d with partner := none } ∧ (y.part r.part).rp = { q.rp with feed := false } ∧ y.mem = s.mem ∧ y.out = s.out)
        ∧ (∀ d, q.domain = some d → f 0x30 1 ≠ 0 → ∃ y, (Finishes (.partner id) s y id (Status.refused 15) ∧ (y.part r.part).domain = some d)
            ∨ (Finishes (.partner id) s y id Status.done ∧ (y.part r.part).domain = some { d with partner := some (BitVec.ofNat 64 (f 0x28 8), f 0x30 1) }
              ∧ y.out = s.out ++ [.clovo (f 0x30 1) 4 3 0 0 0 0 0 s.mod.cfg.node (BitVec.ofNat 64 (f 0x28 8)) (leBytes 8 s.mod.cfg.feed.toNat)])))
      ∧ (f 0x20 1 = 4 → rangeHeld s r.part (f 0x28 8) (64 * f 0x30 8) = false → (q.domain = none → Finishes (.jread id) s x id (Status.refused 13))
        ∧ ∀ d y, q.domain = some d →
          let bs := (d.journal.drop (d.journal.length - f 0x30 8)).flatMap (JEntry.bytes r.part);
          (writeRange x r.part (f 0x28 8) bs = (bs.length, y) → Finishes (.jread id) s y id Status.done)
          ∧ ∀ m, m < bs.length → writeRange x r.part (f 0x28 8) bs = (m, y) → Finishes (.jread id) s y id { code := 2, detail := 0, bytes := m, faddr := f 0x28 8 + m }))
    ∧ (RecordReady s id 0x0D none r → (∀ w ∈ s.recs, w.id = id → w = r) →
      (¬ (q.rp.state = 1 ∧ BitVec.ofNat 64 (f 0x20 8) = q.rp.rpseq) → Finishes (.ckptCommit id) s x id (Status.refused 13))
      ∧ (q.rp.state = 1 → BitVec.ofNat 64 (f 0x20 8) = q.rp.rpseq → ∃ t r', exec (.ckptCommit id) s = .next t ∧ (t.part r.part).rp = { q.rp with state := 2 } ∧ t.recs.find? (fun r => r.id == id) = some r' ∧ r'.status = .started ∧ t.mem = s.mem))
    ∧ (∀ p : Nat, p < 8 → recordsRun s = true → (s.part p).present = true → (s.part p).rp.state = 2 → (∀ w ∈ s.recs, w.status ≠ .started) →
      ((s.part p).domain = none → ∃ t, exec (.commitEnd p true) s = .next t ∧ (t.part p).rp = { (s.part p).rp with rpdur := (s.part p).rp.rpseq, state := 0 } ∧ t.mem = s.mem)
      ∧ (∀ d c, (s.part p).domain = some d → d.commit = some c → c.poisoned = false → c.todo ≠ [] → exec (.commitEnd p true) s = .next s)
      ∧ (∀ d c, (s.part p).domain = some d → d.commit = some c → ∃ t d', exec (.commitEnd p false) s = .next t ∧ (t.part p).rp = { (s.part p).rp with state := 1, cfail := true } ∧ (t.part p).domain = some d' ∧ d'.commit = none
          ∧ (∀ g ∈ c.granules, g ∈ d'.cur) ∧ t.mem = s.mem)
      ∧ (∀ d c, (s.part p).domain = some d → d.commit = some c → c.poisoned = false → c.todo = [] → c.slot < 2 → Memory.wf s.mem = true →
          let a := promptPA d (sectionOff d c.seq.toNat);
          ∃ t d', exec (.commitEnd p true) s = .next t ∧ (t.part p).rp = { (s.part p).rp with rpdur := c.seq, state := 0 } ∧ (t.part p).domain = some d' ∧ d'.commit = none
          ∧ (let x := d'.slot c.slot;
             x.valid = true ∧ x.version = 1 ∧ x.slot = c.slot ∧ x.part = p ∧ x.seq = c.seq ∧ x.nseg = d.nwork ∧ x.pbix = BitVec.ofNat 64 (getLe s.mem (a + 8) 8)
             ∧ ∀ g ∈ c.granules, g < d.nwork → x.table.getD g (0, 0) = (crc32c (segmentBytes (x.segs.getD g [])), c.seq))
          ∧ getCells t.mem (a + 16) 8 = getCells s.mem (a + 8) 8 ∧ (∀ q, (q < a + 16 ∨ a + 24 ≤ q) → getCell t.mem q = getCell s.mem q)
          ∧ (d.partner = none → t.out = s.out ∧ t.conns = s.conns)
          ∧ ∀ node port, d.partner = some (node, port) → ∃ m : Replica, Leaves s t port node 3 (.replica m) ∧ m.part = p ∧ m.seq = c.seq ∧ m.nseg = d.nwork ∧ m.segments.map (·.1) = c.granules))
    ∧ ∀ (p : Nat) (d : Domain), p < 8 → (s.part p).domain = some d → ∃ t, exec (.stallEnd p) s = .next t ∧ (t.part p).domain = some { d with held := d.held.filter fun h => decide (s.mod.time < h.2) } ∧ t.mem = s.mem
        ∧ ∀ c, d.commit = some c → ∀ h ∈ d.held, h.2 ≤ s.mod.time → h.1 ∈ c.todo → ∀ k ∈ t.cores, ∀ e ∈ k.tlb,
            leafPA e.pte.toNat e.size e.va + e.size ≤ d.granules.getD h.1 0 ∨ d.granules.getD h.1 0 + 0x200000 ≤ leafPA e.pte.toNat e.size e.va

/-- R409, R410, R412, R413: RESTORE waits while a commit or its stall goes on, refuses while a task runs and what no slot holds, and else the point is restored, or the one before it when its slot is torn, and its record ends with the sequence in BYTES; with
FROM = 1 the partner is asked, and what comes back is restored, or refused where it is no point of the domain. A peer's point is kept and acknowledged, or refused for want of space; its acknowledgment sets RPPAR; what it asks for goes back, or word
that there is none. How a fetched point is recognised is the model's choice (log 45). -/
def Obligations.RestoreAndPartners : Prop :=
  (∀ (s : State) (id : Nat) (r : HRec), r.part < 8 → RecordReady s id 0x0C none r → (∀ w ∈ s.recs, w.id = id → w = r) →
    let x := Begun s id;
    let f (o n : Nat) := fieldOf r.raw o n;
    let p := s.part r.part;
    f 0x20 1 = 2 →
      (p.rp.state = 2 ∨ (∃ d, p.domain = some d ∧ d.held ≠ []) → exec (.restore id) s = .next s)
      ∧ (p.rp.state ≠ 2 → (∀ d, p.domain = some d → d.held = []) →
      (anyRunning s r.part = true → Finishes (.restore id) s x id (Status.refused 14))
      ∧ (anyRunning s r.part = false → p.domain = none → Finishes (.restore id) s x id (Status.refused 13))
      ∧ ∀ d, anyRunning s r.part = false → p.domain = some d →
        let want := if f 0x28 8 = 0 then p.rp.rpdur else BitVec.ofNat 64 (f 0x28 8);
        let restored (k : Nat) (torn : Bool) : Prop := ∃ y, Finishes (.restore id) s y id (doneWith (d.slot k).seq.toNat) ∧ y = restoreFrom x r.part d k torn ∧ (y.part r.part).rp.rpseq = (d.slot k).seq ∧ (y.part r.part).rp.rpdur = (d.slot k).seq
          ∧ (y.part r.part).rp.state = 0 ∧ (y.part r.part).rp.torn = (p.rp.torn || torn);
        (f 0x30 8 = 0 → (∀ k < 2, (d.slot k).valid = true → (d.slot k).seq ≠ want) → Finishes (.restore id) s x id (Status.refused 13))
        ∧ (f 0x30 8 = 0 → d.slot0.seq = want → slotSound d.nwork 0 r.part d.slot0 = true → restored 0 false)
        ∧ (f 0x30 8 = 0 → d.slot0.valid = true → d.slot0.seq = want → slotSound d.nwork 0 r.part d.slot0 = false → slotSound d.nwork 1 r.part d.slot1 = true → d.slot1.seq.toNat < want.toNat → restored 1 true)
        ∧ (f 0x30 8 ≠ 0 → d.partner = none → Finishes (.restore id) s x id (Status.refused 13))
        ∧ (∀ node port, f 0x30 8 ≠ 0 → d.partner = some (node, port) → ∃ t, exec (.restore id) s = .next t ∧ Leaves s t port node 3 (.fetch r.part (BitVec.ofNat 64 (f 0x28 8))) ∧ t.recs = x.recs ∧ t.mem = s.mem)))
  ∧ (∀ (s : State) (m : Clovo) (g : Replica) (c : Conn), PeerGate s m 3 c → replicaIn s m.src = true →
      (fetching s m.src g = none →
        (replicaRoom s m.src g = false → ∃ t, Delivers (.replicaSegments (m, g)) s t c ∧ Leaves s t m.port m.src 3 (.answer ⟨g.part, g.seq, true⟩) ∧ t.replicas = s.replicas ∧ t.mem = s.mem)
        ∧ (replicaRoom s m.src g = true → ∃ t k, Delivers (.replicaSegments (m, g)) s t c ∧ Leaves s t m.port m.src 3 (.answer ⟨g.part, g.seq, false⟩) ∧ k ∈ t.replicas ∧ k.node = m.src ∧ k.part = g.part
          ∧ (k.slot0.seq = BitVec.ofNat 64 (fieldOf g.commit 8 8) ∨ k.slot1.seq = BitVec.ofNat 64 (fieldOf g.commit 8 8)) ∧ t.mem = s.mem))
      ∧ (∀ r d, fetching s m.src g = some r → r.part < 8 → recordsRun s = true → (s.part r.part).domain = some d → actionsHeld s r.raw = false →
        let z := modRec s r.id fun r => { r with fetched := some g };
        let x := slotOf g 0 Slot.blank;
        (restoreFree s r.part = false → Delivers (.replicaSegments (m, g)) s z c)
        ∧ (restoreFree s r.part = true → anyRunning s r.part = true → Delivers (.replicaSegments (m, g)) s (finishRec z r.id (Status.refused 14)) c)
        ∧ (restoreFree s r.part = true → anyRunning s r.part = false → fieldOf g.commit 0x10 4 ≠ d.nwork → Delivers (.replicaSegments (m, g)) s (finishRec z r.id (Status.refused 13)) c)
        ∧ (restoreFree s r.part = true → anyRunning s r.part = false → slotSound d.nwork 0 r.part x = true → ∃ y, Delivers (.replicaSegments (m, g)) s (finishRec y r.id (doneWith x.seq.toNat)) c
            ∧ (y.part r.part).rp.rpseq = x.seq ∧ (y.part r.part).rp.rpdur = x.seq ∧ ((s.part r.part).rp.feed = false → (y.part r.part).rp.rppar = x.seq) ∧ ∃ d', (y.part r.part).domain = some d' ∧ d'.slot0 = x ∧ d'.slot1.valid = false)))
  ∧ (∀ (s : State) (m : Clovo) (a : PartnerReply) (c : Conn), PeerGate s m 3 c → engineOn s = true → a.part < 8 →
      (∀ d port, (s.part a.part).domain = some d → d.partner = some (m.src, port) → a.refused = false → (s.part a.part).rp.feed = false → a.seq.toNat ≤ (s.part a.part).rp.rpseq.toNat →
        ∃ t d' e, Delivers (.partnerAck m a) s t c ∧ (t.part a.part).rp = { (s.part a.part).rp with rppar := a.seq } ∧ (t.part a.part).domain = some d' ∧ d'.jseq = d.jseq + 1 ∧ d'.journal.getLast? = some e ∧ e.type = 7 ∧ e.arg = a.seq ∧ t.mem = s.mem)
      ∧ (a.refused = true ∨ (s.part a.part).rp.feed = true ∨ (s.part a.part).rp.rpseq.toNat < a.seq.toNat ∨ (∀ d port, (s.part a.part).domain = some d → d.partner ≠ some (m.src, port)) → Delivers (.partnerAck m a) s s c))
  ∧ (∀ (s : State) (m : Clovo) (p : Nat) (seq : Word) (c : Conn), PeerGate s m 3 c → replicaIn s m.src = true →
      (∀ k, s.replicas.find? (fun x => x.node == m.src && x.part == p) = some k → slotSound k.slot0.nseg 0 p k.slot0 = true → slotSound k.slot1.nseg 1 p k.slot1 = false → seq = 0 ∨ seq = k.slot0.seq →
        ∃ t g, Delivers (.partnerFetch m p seq) s t c ∧ Leaves s t m.port m.src 3 (.replica g) ∧ g.seq = k.slot0.seq ∧ g.part = p ∧ g.nseg = k.slot0.nseg ∧ g.commit = commitRecord k.slot0 ∧ t.mem = s.mem)
      ∧ ((∀ k, s.replicas.find? (fun x => x.node == m.src && x.part == p) = some k → slotSound k.slot0.nseg 0 p k.slot0 = false ∧ slotSound k.slot1.nseg 1 p k.slot1 = false) →
        ∃ t g, Delivers (.partnerFetch m p seq) s t c ∧ Leaves s t m.port m.src 3 (.replica g) ∧ g.seq = seq ∧ g.part = p ∧ fieldOf g.commit 0 4 = 0 ∧ t.mem = s.mem))
  ∧ ∀ (s : State) (m : Clovo) (g : Replica) (a : PartnerReply) (p : Nat) (seq : Word), filterOn s = true → portTakes m = true → clovoSound s m = true → connOf s m = none →
      ∀ i ∈ [Instr.replicaSegments (m, g), .partnerAck m a, .partnerFetch m p seq], ∃ w, exec i s = .next { s with freeCtr := s.freeCtr + 1, out := s.out ++ [.clovo m.port 3 m.chan 0 0 w 0 3 s.mod.cfg.node m.src []] }

/-- R396, R393, R306: PART_FREEZE stops the resident teams and ends once every team image is cut; PART_RESUME lifts the freeze, or is refused with 9; IMAGE_OUT and IMAGE_IN need a frozen partition, name an image that exists, with room, and
move its bytes. -/
def Obligations.FreezeAndImages : Prop :=
  ∀ (s : State) (id : Nat) (r : HRec), r.part < 8 →
    let x := Begun s id
    let f (o n : Nat) := fieldOf r.raw o n
    ((∀ w ∈ s.recs, w.id = id → w = r) → RecordReady s id 0x0E none r →
      ((s.part r.part).frozen = true → Finishes (.partFreeze id) s x id Status.done)
      ∧ ((s.part r.part).frozen = false → (∀ u ∈ s.teams, u.part = r.part → u.status = .suspended) → (∀ e ∈ s.eng, e.part = r.part → e.status = .held ∨ e.status = .imaged ∨ e.status = .queued ∧ e.begun = false) → ∃ y, Finishes (.partFreeze id) s y id Status.done
          ∧ (y.part r.part).frozen = true ∧ y.mem = s.mem ∧ y.thr = s.thr ∧ y.teams = s.teams)
      ∧ (∀ u, (s.part r.part).frozen = false → s.teams = [u] → u.part = r.part → u.status = .resident → ∃ t u', exec (.partFreeze id) s = .next t ∧ t.teams = [u'] ∧ u'.status = .stopping ∧ u'.stopFor = .freeze ∧ (t.part r.part).frozen = true
          ∧ t.mem = s.mem ∧ ∃ r', t.recs.find? (fun r => r.id == id) = some r' ∧ r'.status = .started))
    ∧ (RecordReady s id 0x0F none r →
      ((s.part r.part).frozen = false → Finishes (.partResume id) s x id (Status.refused 9))
      ∧ ((s.part r.part).frozen = true → ∃ y, Finishes (.partResume id) s y id Status.done ∧ (y.part r.part).frozen = false ∧ y.mem = s.mem ∧ y.teams = s.teams))
    ∧ (RecordReady s id 0x10 none r → rangeHeld s r.part (f 0x28 8) (f 0x30 8) = false →
      ((s.part r.part).frozen = false → Finishes (.imageOut id) s x id (Status.refused 9))
      ∧ ((s.part r.part).frozen = true → imageAt x r.part (f 0x20 4) = none → Finishes (.imageOut id) s x id (Status.refused 10))
      ∧ ∀ bs, (s.part r.part).frozen = true → imageAt x r.part (f 0x20 4) = some bs →
        (f 0x30 8 < bs.length → Finishes (.imageOut id) s x id (Status.refused 7))
        ∧ ∀ y, bs.length ≤ f 0x30 8 → writeRange x r.part (f 0x28 8) bs = (bs.length, y) → Finishes (.imageOut id) s y id (doneWith bs.length))
    ∧ (RecordReady s id 0x11 none r →
      ((s.part r.part).frozen = false → Finishes (.imageIn id) s x id (Status.refused 9))
      ∧ ∀ bs, (s.part r.part).frozen = true → readImage x r.part (f 0x20 8) (f 0x28 8) = .ok (bs, x) →
        (fieldOf bs 0 4 ≠ 0x4D414554 → Finishes (.imageIn id) s x id (Status.rejected (2 ^ 31)))
        ∧ (∀ k, imageKindFault bs = none → fieldOf bs 6 1 ≠ 1 → s.tasks.find? (fun k => k.part == r.part && taskId k == fieldOf bs 0x10 8) = some k → k.state = .running → fieldOf bs 0x18 2 < k.nteams →
            (∀ u ∈ s.teams, u.task ≠ k.id) → teamImageFault k bs (!hasN x r.part) = none → imageRoom x r.part 1 = true → Finishes (.imageIn id) s (importTeam x k bs) id Status.done))

/-- R398-R400, R382: ATTACH and DETACH; HANDLER maps its pages executable; HALT, RESUME and STEP act on both replicas of the team named, and are refused with 10 when there is none or it is not halted, a STEP with 12 after 1 ms; READ answers the image,
WRITE installs one, TRAPIMG the trap image. -/
def Obligations.DebuggerRecords : Prop :=
  ∀ (s : State) (id : Nat) (r : HRec), r.part < 8 →
    let x := Begun s id
    let f (o n : Nat) := fieldOf r.raw o n
    (RecordReady s id 0x13 (some 0x101) r → Answers (.attach id) s (modPart x r.part fun q => { q with debugger := true, stopSh := (f 0x22 1).testBit 0 }) r Status.done [])
    ∧ (RecordReady s id 0x13 (some 0x102) r → ∃ y, Answers (.detach id) s y r Status.done [] ∧ (y.part r.part).debugger = false ∧ y.mem = s.mem ∧ ∀ u ∈ s.teams, u.part = r.part → u.rep = 0 → u.dbgHalt = true →
        ∀ w ∈ y.teams, w.task = u.task → w.ix = u.ix → w.dbgHalt = false)
    ∧ (RecordReady s id 0x13 (some 0x100) r → (∀ w ∈ s.recs, w.id = id → w = r) →
      let pages := pagesOf (f 0x22 8) (f 0x2A 4);
      (∀ v, pages.find? (fun v => !placed x r.part v) = some v → Answers (.handler id) s (logMalformed x r.part v) r (Status.fault (max (f 0x22 8) v)) [])
      ∧ ((∀ v ∈ pages, placed x r.part v = true) → f 3 1 = 0 →
          let z := shootDown (pages.foldl (fun s v => setLeaf s r.part v fun e => withBit e 4 true) x) r.part (f 0x22 8) (f 0x2A 4);
          let y := modPart z r.part fun q => { q with handler := some (f 0x22 8, f 0x2A 4) };
          (accessPending y (pages.filterMap (frameOf y r.part)) = true → exec (.handler id) s = .next y)
          ∧ (accessPending y (pages.filterMap (frameOf y r.part)) = false → Answers (.handler id) s y r Status.done [])))
    ∧ (∀ i op, (i, op) ∈ [(Instr.debugHalt id, 0x103), (.debugResume id, 0x104), (.debugStep id, 0x105), (.debugRead id, 0x106), (.debugWrite id, 0x107)] → RecordReady s id 0x13 (some op) r → (∀ w ∈ s.recs, w.id = id → w = r) →
        rangeHeld s r.part (f 0x2C 8) (f 0x34 8) = false → debugTeam s r = none → Answers i s x r (Status.refused 10) [])
    ∧ (∀ u, debugTeam s r = some u →
      (RecordReady s id 0x13 (some 0x103) r → ∃ y, Answers (.debugHalt id) s y r Status.done [] ∧ (∀ w ∈ y.teams, w.task = u.task → w.ix = u.ix → w.dbgHalt = true) ∧ y.mem = s.mem ∧ y.thr = s.thr)
      ∧ (RecordReady s id 0x13 (some 0x104) r → u.dbgHalt = false → Answers (.debugResume id) s x r (Status.refused 10) [])
      ∧ (RecordReady s id 0x13 (some 0x104) r → u.dbgHalt = true → ∃ y, Answers (.debugResume id) s y r Status.done [] ∧ (∀ w ∈ y.teams, w.task = u.task → w.ix = u.ix → w.dbgHalt = false) ∧ y.mem = s.mem)
      ∧ (RecordReady s id 0x13 (some 0x105) r → (∀ w ∈ s.recs, w.id = id → w = r) → u.dbgHalt = false ∨ stepThreads s r = [] → Answers (.debugStep id) s x r (Status.refused 10) [])
      ∧ (RecordReady s id 0x13 (some 0x105) r → (∀ w ∈ s.recs, w.id = id → w = r) → u.dbgHalt = true → replicasOf s u = [u] → s.threads = [s.thr] → s.thr.team = u.id → s.thr.live = true → s.thr.thrIx = f 0x2C 1 → s.thr.rep < 2 →
          ∃ t, exec (.debugStep id) s = .next t ∧ t.thr = { s.thr with stepping := some (if f 0x2D 1 = 1 then .access else .execute), stepFrom := some s.thr.cmdix } ∧ t.mem = s.mem)
      ∧ (∀ bs y, RecordReady s id 0x13 (some 0x106) r → u.dbgHalt = true → (∀ w ∈ threadsOf s u, haltQuiet s w = true) → rangeHeld s r.part (f 0x2C 8) (f 0x34 8) = false → teamImageNow x u = some bs → 
          (f 0x34 8 < bs.length → Answers (.debugRead id) s x r (Status.refused 7) [])
          ∧ (bs.length ≤ f 0x34 8 → writeRange x r.part (f 0x2C 8) bs = (bs.length, y) → Answers (.debugRead id) s y r (doneWith bs.length) []))
      ∧ (∀ a k, RecordReady s id 0x13 (some 0x107) r → u.dbgHalt = true → (∀ w ∈ threadsOf s u, haltQuiet s w = true) → findTask s u.task = some k → readImage x r.part (f 0x2C 8) (f 0x34 8) = .error a →
          Answers (.debugWrite id) s (logMalformed x r.part a) r (Status.fault a) [])
      ∧ (∀ bs k, RecordReady s id 0x13 (some 0x107) r → u.dbgHalt = true → (∀ w ∈ threadsOf s u, haltQuiet s w = true) → findTask s u.task = some k → readImage x r.part (f 0x2C 8) (f 0x34 8) = .ok (bs, x) →
          let named := if (fieldOf bs 7 1).testBit 2 then (replicasOf s u).find? (fun w => w.rep == 1) else some u;
          (∀ o, teamImageFault k bs (12 ≤ u.chip || !Config.nClass u.chip) = some o → Answers (.debugWrite id) s x r (Status.rejected (2 ^ 31 + o)) [])
          ∧ (teamImageFault k bs (12 ≤ u.chip || !Config.nClass u.chip) = none → (named = none → Answers (.debugWrite id) s x r (Status.refused 10) [])
            ∧ ∀ w, named = some w → Answers (.debugWrite id) s (writeTeam x k w bs) r Status.done [])))
    ∧ (s.recs.find? (fun r => r.id == id) = some r → r.kind = 0x13 → r.status = .started → debugOp r.raw = 0x105 → f 3 1 = 0 → recordsRun s = true → 1000 ≤ micros s r.started → (∃ w ∈ stepThreads s r, w.stepping ≠ none) →
        ∃ y, Answers (.stepTimeout id) s y r (Status.refused 12) [] ∧ y.mem = s.mem)
    ∧ (RecordReady s id 0x13 (some 0x108) r → rangeHeld s r.part (f 0x22 8) (f 0x2A 8) = false →
      ((s.part r.part).trapImage = none → Answers (.trapimg id) s x r (Status.refused 10) [])
      ∧ (∀ u k ts, (s.part r.part).trapImage = some (u, k, ts) → f 0x2A 8 < (teamImage x k u ts []).length → Answers (.trapimg id) s x r (Status.refused 7) [])
      ∧ ∀ u k ts y, (s.part r.part).trapImage = some (u, k, ts) → (teamImage x k u ts []).length ≤ f 0x2A 8 → writeRange x r.part (f 0x22 8) (teamImage x k u ts []) = ((teamImage x k u ts []).length, y) →
        Answers (.trapimg id) s y r (doneWith (teamImage x k u ts []).length) [])

/-- R345, R346, R351-R354, R371, R373, R416, R402: the firmware cores' wake registers and mailboxes, and the green room after 50 microseconds with nothing to do; PS1 after 10 ms with nothing in progress; a start loads the latest sound copy of
the sealed part (zeros when neither is, as a cold start), opens the port when it ends well and clears the failures, and writes the sealed part again, whose latest sound copy stands while the other is written; the third failure in a row forces a cold start or safe mode; a die reset loses the work and keeps the
partitions; heat stops scheduling, a trip the module, and both end when it has cooled. TIME goes on through a warm start and a die reset; it is 0 after a cold start and with the power off (log 46). -/
def Obligations.PowerAndStarts : Prop :=
  ∀ (s : State) (c : Nat) (k : FwCore), c < 8 → s.mod.fw[c]? = some k →
    let load := loadSealed (coldState s)
    let cold := startTests (applyConfig { load with mod := { load.mod with trims := load.mod.trims + 1 } }) true
    let warm := startTests (applyConfig ((List.range 8).foldl startPoint (loadSealed s))) false
    (∃ t, exec (.wakeWrite c) s = .next t ∧ t.mod.fw[c]? = some (if k.wake then { k with retention := false, wake := false } else k) ∧ t.mem = s.mem)
    ∧ (∀ src (msg : List Byte), msg.length = 64 → ∃ t, exec (.firmwareMailboxMessage src c msg) s = .next t ∧ t.mem = s.mem
        ∧ t.mod.fw[c]? = some (if k.mailbox.length < 32 then { k with retention := false, mailbox := k.mailbox ++ [(src, msg)] } else k))
    ∧ (∃ t, exec (.greenRoom c) s = .next t ∧ t.mem = s.mem ∧ (∀ m rest, k.mailbox = m :: rest → t.mod.fw[c]? = some { k with mailbox := rest })
        ∧ (k.mailbox = [] → k.wake = false → s.recs = [] → t.mod.fw[c]? = some (if k.idleAt + 70000 ≤ s.mod.time then { k with retention := true } else k)))
    ∧ (recordsRun s = true → s.recs = [] → s.eng = [] → s.tasks = [] → s.troupe = none → (∀ u ∈ s.teams, u.status ≠ .resident ∧ u.status ≠ .stopping) →
      (s.mod.busyAt + 14000000 ≤ s.mod.time → ∃ t, exec .ps1Entry s = .next t ∧ t.mod.power = .ps1 ∧ t.mem = s.mem ∧ t.thr = s.thr ∧ t.mod.time = s.mod.time)
      ∧ (s.mod.time < s.mod.busyAt + 14000000 → exec .ps1Entry s = .next s))
    ∧ (∃ t, exec .powerRemoved s = .next t ∧ t.mod.power = .ps3 ∧ t.mem = [] ∧ t.mod.time = 0 ∧ t.tasks = [] ∧ t.mod.cfg = s.mod.cfg ∧ t.mod.seal0 = s.mod.seal0 ∧ t.mod.seal1 = s.mod.seal1)
    ∧ (s.mod.power = .ps3 → exec .powerOn s = .next { s with mod := { s.mod with inReset := true, coldDue := true } })
    ∧ (s.mod.inReset = true → s.mod.tripped = false → ∀ failed,
      (s.mod.coldDue = false → ∀ x, latestSeal s.mod = some x →
        (∀ ok, ok = false ∨ tableLights (warm failed) = false → ∃ t, exec (.warmStart ok failed) s = .next t ∧ t.mod.warmFails = x.part.warmFails + 1 ∧ t.mod.coldDue = decide (3 ≤ x.part.warmFails + 1) ∧ t.mod.inReset = true
          ∧ (∀ i < 192, (t.core i).score = x.part.scores.getD i 0) ∧ t.mem = s.mem ∧ t.parts = s.parts ∧ t.mod.time = s.mod.time)
        ∧ (s.mod.testDue = false → tableLights (warm failed) = true → ∃ t, exec (.warmStart true failed) s = .next t ∧ t.mod.power = .ps0 ∧ t.mod.inReset = false ∧ t.mod.portOpen = true ∧ t.mod.warmFails = 0 ∧ t.mod.time = s.mod.time ∧ t.mem = s.mem
          ∧ (∀ p < 8, (s.part p).present = true → (t.part p).rp.state = 0 ∧ (t.part p).rp.rpseq = (s.part p).rp.rpseq ∧ (t.part p).rp.rpdur = (s.part p).rp.rpdur)
          ∧ (s.mod.sealing = none → ∃ y, latestSeal t.mod = some y ∧ y.part = sealedNow t)))
      ∧ (s.mod.coldDue = false → latestSeal s.mod = none → ∀ ok, exec (.warmStart ok failed) s = exec (.coldStart ok failed) { s with mod := { s.mod with coldDue := true } })
      ∧ (s.mod.coldDue = true →
        (∀ i < 192, (load.core i).score = match latestSeal s.mod with | some x => x.part.scores.getD i 0 | none => 0)
        ∧ (tableLights (cold failed) = true → ∃ t, exec (.coldStart true failed) s = .next t ∧ t.mod.power = .ps0 ∧ t.mod.inReset = false ∧ t.mod.portOpen = true ∧ t.mod.coldFails = 0 ∧ t.mod.time = 0 ∧ t.mem = [] ∧ (∀ p, (t.part p).present = false)
          ∧ ∃ y, latestSeal t.mod = some y ∧ y.part = sealedNow t)
        ∧ (∀ ok, ok = false ∨ tableLights (cold failed) = false → ∃ t, exec (.coldStart ok failed) s = .next t ∧ t.mod.coldFails = load.mod.coldFails + 1 ∧ t.mod.safeMode = decide (3 ≤ load.mod.coldFails + 1)
          ∧ t.mod.portOpen = decide (3 ≤ load.mod.coldFails + 1) ∧ t.mod.inReset = decide (load.mod.coldFails + 1 < 3))))
    ∧ (∀ x, s.mod.sealing = none → latestSeal s.mod = some x → x.part ≠ sealedNow s → latestSeal (sealStep s).mod = some x ∧ ∃ y, latestSeal (sealStep (sealStep s)).mod = some y ∧ y.part = sealedNow s)
    ∧ (∀ die < 17, s.mod.power ≠ .ps3 → s.mod.tripped = false →
      (∃ t, exec (.dieReset die) s = .next t ∧ t.mod.inReset = true ∧ t.mod.portOpen = false ∧ t.mod.time = s.mod.time ∧ t.tasks = [] ∧ t.teams = [] ∧ t.eng = [] ∧ t.recs = [] ∧ t.conns = [] ∧ t.thr.live = false
        ∧ ∀ p < 8, (s.part p).present = true → (t.part p).present = true ∧ (t.part p).rp = (s.part p).rp ∧ (t.part p).quota = (s.part p).quota)
      ∧ (∃ t, exec (.thermalHot die) s = .next t ∧ t.mod.hot = true ∧ t.mem = s.mem ∧ t.thr = s.thr ∧ t.teams = s.teams)
      ∧ (∃ t, exec (.thermalTrip die) s = .next t ∧ t.mod.tripped = true ∧ t.tasks = [] ∧ t.recs = [] ∧ ∀ p < 8, (t.part p).domain = none))
    ∧ (s.mod.hot = true → ∃ t, exec .thermalClear s = .next t ∧ t.mod.hot = false ∧ t.mem = s.mem ∧ t.thr = s.thr)
    ∧ (s.mod.tripped = true → exec .thermalCooled s = .next { s with mod := { s.mod with tripped := false, hot := false, inReset := true, coldDue := true } })

/-! ### Encoding, fetching, one step -/

/-- R45-R62, R207, R239: decoding gives back every well-formed instruction from the words that encode writes, with every operand at every value the
encoding admits; and words decode to an instruction only if they are exactly its words and it is well-formed. -/
def Obligations.DecodeAndEncodeAgree : Prop :=
  (∀ (st : Stream) (i : Instr), wellFormed st i = true →
      (∀ w w1, encode i = .one w → twoWords w = false ∧ decode st w w1 = .ok i) ∧ (∀ w w1, encode i = .two w w1 → twoWords w = true ∧ decode st w w1 = .ok i)
      ∧ ∀ h, encode i = .half h → decodeCue h = .ok i)
  ∧ (∀ (st : Stream) (w w1 : Word32) (i : Instr), decode st w w1 = .ok i → wellFormed st i = true ∧ encode i = if twoWords w then .two w w1 else .one w)
  ∧ ∀ (st : Stream) (h : BitVec 16) (i : Instr), decodeCue h = .ok i → wellFormed st i = true ∧ encode i = .half h

/-- Words that the spec itself writes out (R62, R67, R207), and words put together from the formats of R47 and R49. -/
def Obligations.WordsOfTheSpec : Prop :=
  decode .execute 0xBC200000 0 = .ok (.sysrdTrapInfo 1 0) ∧ decode .access 0xBC002005 0 = .ok (.trap 5) ∧ decode .execute 0xBC003000 0 = .ok .eret
  ∧ decode .execute 0xBC004006 0 = .ok (.cro 6) ∧ decode .execute 0xBC005000 0 = .ok .crc ∧ decode .execute 0xBCA67001 0 = .ok (.locq 5 6 true)
  ∧ decode .execute 0xBC008001 0 = .ok (.brk 1) ∧ decode .execute 0xBC009000 0 = .ok .halt ∧ decode .execute 0xBC62D000 0 = .ok (.rpcommit 3 2)
  ∧ decode .execute 0xBC44E001 0 = .ok (.rpwait 2 4 true) ∧ decode .execute 0x04221800 0 = .ok (.add 1 2 3) ∧ decode .execute 0x10220005 0 = .ok (.addi 1 2 5)
  ∧ decode .execute 0 0 = .error .unassigned ∧ decode .execute 0xA0000000 0 = .error .unassigned ∧ (∀ w, decode .execute 0xF8000000 w = .error .unassigned)
  ∧ decode .access 0x10310005 0 ≠ .ok (.addi 1 17 5) ∧ decode .execute 0x6C400801 0 ≠ .ok (.qpop 2 0) ∧ decode .access 0x6C400001 0 ≠ .ok (.qpop 2 0)

/-- R62, R67, R66, R45: when a turn of a thread's stream comes and it may issue, the step runs the instruction that the words at its pc decode to, and TIME goes on; an interrupt that is due is delivered first; what
does not decode, and a word outside every code section, is an illegal instruction with the words in TADDR; a malformed page-table entry on the way to it is logged (R281). A decision's turn runs the operation at its slot, an event's turn the event. -/
def Obligations.StepRunsTheDecodedInstruction : Prop :=
  (∀ (s x : State) (tid : Nat) (st : Stream) (rest : List Turn) (w : Word32) (w1 : Option Word32), s.sched = .issue tid st :: rest → focus { s with sched := rest } tid = some x →
      recordsRun x = true → mayIssue x x.thr st = true →
      let y := { x with cur := st };
      (st = .execute → uliDue y y.thr ≠ none → step s = andTick (exec (.uliDelivery tid) y))
      ∧ ((st = .execute → uliDue y y.thr = none) →
        (codeWords y y.thr y.pc.toNat = none → step s = .next (tick (raise (logMalformed y y.thr.part y.pc.toNat) st 0x01 y.pc 0)))
      ∧ (codeWords y y.thr y.pc.toNat = some (w, w1) →
        (w.toNat < 0xC0000000 → (∀ i, decode st w 0 = .ok i → step s = andTick (exec i y)) ∧ ((∀ i, decode st w 0 ≠ .ok i) → step s = .next (tick (raise y st 0x01 y.pc (0#32 ++ w)))))
        ∧ (0xC0000000 ≤ w.toNat → w1 = none → step s = .next (tick (raise y st 0x01 y.pc (0#32 ++ w))))
        ∧ (0xC0000000 ≤ w.toNat → ∀ v, w1 = some v → (∀ i, decode st w v = .ok i → step s = andTick (exec i y))
            ∧ ((∀ i, decode st w v ≠ .ok i) → step s = .next (tick (raise y st 0x01 y.pc (v ++ w))))))))
  ∧ (∀ (s : State) (tid : Nat) (st : Stream) (rest : List Turn), s.sched = .issue tid st :: rest → (∀ x, focus { s with sched := rest } tid = some x → recordsRun x = false ∨ mayIssue x x.thr st = false) →
      step s = .next (tick { s with sched := rest }))
  ∧ (∀ (s : State) (e : Instr) (rest : List Turn), s.sched = .event e :: rest → step s = andTick (exec e { s with sched := rest }))
  ∧ (∀ (s : State) (p : Nat) (rest : List Turn) (i : Instr), s.sched = .cue p :: rest → recordsRun s = true → (s.part p).run.active = true →
      decodeCue ((s.part p).run.code.getD (s.part p).run.pc 0) = .ok i → step s = andTick (exec i { s with sched := rest, curPart := p }))
  ∧ (∀ s : State, (s.mod.power = .ps3 → tick s = s) ∧ (s.mod.power ≠ .ps3 → s.mod.time ≤ (tick s).mod.time) ∧ (tick s).mem = s.mem)
  ∧ ∀ (s : State) (w w1 : Word32), exec (.illegalInstruction w w1) s = .next (raise s s.cur 0x01 s.pc (w1 ++ w))

/-- What reset leaves (R209-R214, R352, R353): PS0 with the port open, TIME 0, no partition, no work, memory in canonical form with nothing listed, the system registers of a thread
at the values R210 to R214 give. What the model's own values of logs 15 and 16 are is not stated here. -/
def Obligations.Reset : Prop :=
  MemInv State.reset ∧ State.reset.mod.power = .ps0 ∧ State.reset.mod.portOpen = true ∧ State.reset.mod.time = 0 ∧ State.reset.mod.safeMode = false ∧ (∀ p, (State.reset.part p).present = false)
  ∧ State.reset.tasks = [] ∧ State.reset.teams = [] ∧ State.reset.threads = [State.reset.thr] ∧ State.reset.thr.live = false
  ∧ (∀ p, (State.reset.part p).rp = { rpseq := 0, rpdur := 0, rppar := 0, state := 0, cfail := false, torn := false, feed := false, pblost := false })
  ∧ (let y := State.reset.thr.sys;
     y.tcause = 0 ∧ y.taddr = 0 ∧ y.tpc = 0 ∧ y.txpc = 0 ∧ y.tvec = 0 ∧ y.crhnd = 0 ∧ y.ulivec = 0 ∧ y.uliret = 0 ∧ y.hbase = 0 ∧ y.hlimit = 0 ∧ y.hoff = 0 ∧ y.sigv = 0 ∧ y.sigs = 0
      ∧ y.tstat.bits = 0 ∧ (∀ k, nth y.tscr k 0 = 0) ∧ (∀ k, nth y.pcnt k 0 = 0))

/-- Every step keeps memory in its canonical form, which is the model's own (log 1): addresses strictly rising and no entry equal to what an unlisted address reads as. -/
def Obligations.StepKeepsMemoryCanonical : Prop := ∀ s t : State, MemInv s → step s = .next t → MemInv t

/-! ### Statements of several parts -/

/-- The register-register instructions of majors 0x01 and 0x03 complete with the results of R77 and R79. -/
def Obligations.ScalarResults : Prop := Sys2Proof.Claims.ArithmeticAndLogicResults ∧ Sys2Proof.Claims.BitCounts ∧ Sys2Proof.Claims.CompareResults

/-- Branches, queue branches, jal and jalr go where their rules say; a misaligned jalr target traps. -/
def Obligations.Branches : Prop := Sys2Proof.Claims.ConditionalBranches ∧ Sys2Proof.Claims.QueueBranches ∧ Sys2Proof.Claims.JumpsAndLinks

/-- loop sets up its level or skips its body, and the end of a body goes back or ends the level. -/
def Obligations.Loops : Prop := Sys2Proof.Claims.LoopStarts ∧ Sys2Proof.Claims.LoopBack

/-- rotrd, rotwr and mbrd, and mbput of a P0 or P1 thread, whose request takes effect, waits or is kept by a region; when its effect comes is the model's choice (log 24). -/
def Obligations.RotationAndMailboxes : Prop := Sys2Proof.Claims.RotationAndMailboxReads ∧ Sys2Proof.Claims.MailboxPut

/-- The checks of an access unit in their order, and what a load or a store address does when one fails. -/
def Obligations.AddressChecks : Prop := Sys2Proof.Claims.AddressCheckOrder ∧ Sys2Proof.Claims.AccessFaults

/-- Loads and queue loads go in flight, and the return of a P0 or P1 thread writes the H register or the queue entry. What counts as a request is the model's choice (log 52). -/
def Obligations.Loads : Prop := Sys2Proof.Claims.LoadsGoInFlight ∧ Sys2Proof.Claims.QueueLoadsGoInFlight ∧ Sys2Proof.Claims.LoadReturns

/-- A store address enters SAQ, and the oldest pair of a P0 or P1 thread writes its bytes to memory or to the region lines. -/
def Obligations.Stores : Prop := Sys2Proof.Claims.StoreAddresses ∧ Sys2Proof.Claims.StorePairs

/-- The queue instructions push, pop and stall, and marks pair when the counts agree; what waits behind a mark is the model's choice (log 47). -/
def Obligations.QueuesAndMarks : Prop := Sys2Proof.Claims.QueueTransfers ∧ Sys2Proof.Claims.Marks

/-- Tile transfers start or stop at their checks, move their units and leave; the spill slice reads back. What a lock covers and what a faulting transfer has moved are the model's choices (logs 9 and 10). -/
def Obligations.TransfersAndSpill : Prop := Sys2Proof.Claims.TransfersStart ∧ Sys2Proof.Claims.TransfersComplete ∧ Sys2Proof.Claims.Spill

/-- push of a COPY record enqueues it or answers 1 on a full queue, and a malformed record raises. -/
def Obligations.Push : Prop := Sys2Proof.Claims.PushEnqueues ∧ Sys2Proof.Claims.PushRejects

/-- swait, ssig and srd of P0 and P1 threads, the poll and the notice that end a wait. How notices and polls follow each other is the model's choice (log 51). -/
def Obligations.SemaphoreOperations : Prop := Sys2Proof.Claims.Semaphores ∧ Sys2Proof.Claims.SemaphoreWaitEnds ∧ Sys2Proof.Claims.SemaphoreNotices

/-- Delivery of a user-level interrupt, uret and uimask. -/
def Obligations.UserInterrupts : Prop := Sys2Proof.Claims.UserInterruptDelivery ∧ Sys2Proof.Claims.UserInterruptReturn

/-- Ensemble requests, and the barrier of P0 and P1 threads of an ensemble of any number of members, answer what their rules say. -/
def Obligations.Ensembles : Prop := Sys2Proof.Claims.EnsembleRequests ∧ Sys2Proof.Claims.EnsembleBarrier

/-- What the system registers read, and where the fields of TSTAT lie. -/
def Obligations.SystemReads : Prop := Sys2Proof.Claims.SystemRegisterReads ∧ Sys2Proof.Claims.TrapInfoReads ∧ Sys2Proof.Claims.TrapStatusLayout

/-- What syswr writes and what it leaves, the heap window test, and what user level may not touch. -/
def Obligations.SystemWrites : Prop := Sys2Proof.Claims.SystemRegisterWrites ∧ Sys2Proof.Claims.HeapWindowWrites ∧ Sys2Proof.Claims.PrivilegedAtUserLevel

/-- trap, a waiting access-stream cause and brk enter the handler or halt; eret returns. In which waits a cause is entered, and which of two misaligned addresses eret reports, are the model's choices (logs 48 and 58). -/
def Obligations.Traps : Prop := Sys2Proof.Claims.TrapEntry ∧ Sys2Proof.Claims.AccessTrapEntry ∧ Sys2Proof.Claims.TrapReturn ∧ Sys2Proof.Claims.Breakpoint

/-- Containment regions of P0 and P1 threads open, close, drain and unwind. Corners that the rules leave open are the model's choices (logs 26, 47 and 56). -/
def Obligations.Regions : Prop := Sys2Proof.Claims.RegionOpens ∧ Sys2Proof.Claims.RegionCloses ∧ Sys2Proof.Claims.RegionDrains ∧ Sys2Proof.Claims.RegionUnwinds

/-- sigchk, yield and wfi outside P2, halt and locq; what a wait counts is the model's choice (log 47). -/
def Obligations.WaitsAndPlaces : Prop := Sys2Proof.Claims.HaltYieldWait ∧ Sys2Proof.Claims.Location

/-- Queue protocol error after the deadlock of R26, and the end of a thread; which stalls count is the model's choice where two rules disagree (log 47). -/
def Obligations.ThreadsEnd : Prop := Sys2Proof.Claims.QueueProtocolDeadlock ∧ Sys2Proof.Claims.ThreadEnds

/-- A page walk fills the TLB or faults; the firmware maps a zeroed frame, copies a frame of a commit, or finds the page mapped, and the access goes on; else the thread traps. -/
def Obligations.PageFaults : Prop := Sys2Proof.Claims.PageWalks ∧ Sys2Proof.Claims.PageFaultsResolved ∧ Sys2Proof.Claims.PageFaultsTaken

/-- A team ends when its threads have ended, a task when its teams have or when it is being ended. -/
def Obligations.TeamsAndTasksEnd : Prop := Sys2Proof.Claims.TeamEnds ∧ Sys2Proof.Claims.TaskEnds

/-- Agreement points pass for both replicas or stop both, an srd of a pair is performed once, and a vote makes the replica that the Understudy agrees with the winner. Corners are the model's choices (log 29). -/
def Obligations.Duplication : Prop := Sys2Proof.Claims.AgreementPoints ∧ Sys2Proof.Claims.PairedRequests ∧ Sys2Proof.Claims.Votes

/-- Scores halve every 24 hours of powered time, and in-field tests come with TESTINT and retire a core that fails. Which cores are in service is the model's choice (log 62). -/
def Obligations.Health : Prop := Sys2Proof.Claims.ScoresHalve ∧ Sys2Proof.Claims.InFieldTests

/-- DISPATCH, PREEMPT, FAULT and REBALANCE decisions are raised, start and do what they decide. -/
def Obligations.Decisions : Prop := Sys2Proof.Claims.BuiltInDecisions ∧ Sys2Proof.Claims.CueDecisionStarts ∧ Sys2Proof.Claims.PreemptAndPeriods

/-- Vector instructions and shp, shpr issue when their tests pass, and what the reductions, the moves, vcomp and vldac write. -/
def Obligations.EngineInstructionsIssue : Prop := Sys2Proof.Claims.VectorInstructionsIssue ∧ Sys2Proof.Claims.ShapeInstructions ∧ Sys2Proof.Claims.VectorMovementResults ∧ Sys2Proof.Claims.CompressResult

/-- Illegal, format fault and migrate of the engine instructions, tint, tload and mwldq on an N-class core, and the scratchpad instructions with their faults. Which of several faults is taken is the model's choice (log 27). -/
def Obligations.EngineInstructionFaults : Prop := Sys2Proof.Claims.MigratingInstructions ∧ Sys2Proof.Claims.VectorInstructionFaults ∧ Sys2Proof.Claims.ScratchpadStores

/-- What the elementwise and the predicate commands write to the V and P registers. Corners that the rules leave open are the model's choices (log 27). -/
def Obligations.VectorResults : Prop := Sys2Proof.Claims.VectorElementResults ∧ Sys2Proof.Claims.IntegerElements ∧ Sys2Proof.Claims.PredicateResults

/-- The value of a finite pattern, rounded to its format, is that pattern; and what the conversions, rng and tint write. -/
def Obligations.FormatsRoundTrip : Prop := Sys2Proof.Claims.FormatValues ∧ Sys2Proof.Claims.ConversionResults

/-- Matrix instructions issue or raise, and their commands change banks, latch and status; a pass of mmac under P0. -/
def Obligations.MatrixResults : Prop := Sys2Proof.Claims.MatrixInstructionsIssue ∧ Sys2Proof.Claims.MatrixCommandResults

/-- The arithmetic, branch and iteration operations of cue bytecode. -/
def Obligations.CueOperations : Prop := Sys2Proof.Claims.CueArithmetic ∧ Sys2Proof.Claims.CueControlFlow

/-- View reads, the output and the end of a cue decision. What the view holds where its rules leave it open is the model's choice (log 31). -/
def Obligations.CueDecisions : Prop := Sys2Proof.Claims.CueViewAndOutput ∧ Sys2Proof.Claims.CueDecisionEnds
end

