-- ==== Sys2Proof/Laws/State.lean ====
section
/-!
SUPPORT. One lemma for each field under each update of State: what the update leaves alone, so that no proof unfolds it.
-/

namespace Sys2Proof.Machine

/-! ### modThr -/

@[simp] theorem modThr_cur (s : State) (f : Thread → Thread) : (modThr s f).cur = s.cur := rfl
@[simp] theorem modThr_others (s : State) (f : Thread → Thread) : (modThr s f).others = s.others := rfl
@[simp] theorem modThr_teams (s : State) (f : Thread → Thread) : (modThr s f).teams = s.teams := rfl
@[simp] theorem modThr_tasks (s : State) (f : Thread → Thread) : (modThr s f).tasks = s.tasks := rfl
@[simp] theorem modThr_parts (s : State) (f : Thread → Thread) : (modThr s f).parts = s.parts := rfl
@[simp] theorem modThr_curPart (s : State) (f : Thread → Thread) : (modThr s f).curPart = s.curPart := rfl
@[simp] theorem modThr_cores (s : State) (f : Thread → Thread) : (modThr s f).cores = s.cores := rfl
@[simp] theorem modThr_mem (s : State) (f : Thread → Thread) : (modThr s f).mem = s.mem := rfl
@[simp] theorem modThr_poison (s : State) (f : Thread → Thread) : (modThr s f).poison = s.poison := rfl
@[simp] theorem modThr_ensembles (s : State) (f : Thread → Thread) : (modThr s f).ensembles = s.ensembles := rfl
@[simp] theorem modThr_ensUses (s : State) (f : Thread → Thread) : (modThr s f).ensUses = s.ensUses := rfl
@[simp] theorem modThr_ensGens (s : State) (f : Thread → Thread) : (modThr s f).ensGens = s.ensGens := rfl
@[simp] theorem modThr_eng (s : State) (f : Thread → Thread) : (modThr s f).eng = s.eng := rfl
@[simp] theorem modThr_engLast (s : State) (f : Thread → Thread) : (modThr s f).engLast = s.engLast := rfl
@[simp] theorem modThr_frames (s : State) (f : Thread → Thread) : (modThr s f).frames = s.frames := rfl
@[simp] theorem modThr_rounds (s : State) (f : Thread → Thread) : (modThr s f).rounds = s.rounds := rfl
@[simp] theorem modThr_recs (s : State) (f : Thread → Thread) : (modThr s f).recs = s.recs := rfl
@[simp] theorem modThr_images (s : State) (f : Thread → Thread) : (modThr s f).images = s.images := rfl
@[simp] theorem modThr_conns (s : State) (f : Thread → Thread) : (modThr s f).conns = s.conns := rfl
@[simp] theorem modThr_out (s : State) (f : Thread → Thread) : (modThr s f).out = s.out := rfl
@[simp] theorem modThr_replicas (s : State) (f : Thread → Thread) : (modThr s f).replicas = s.replicas := rfl
@[simp] theorem modThr_notices (s : State) (f : Thread → Thread) : (modThr s f).notices = s.notices := rfl
@[simp] theorem modThr_fabric (s : State) (f : Thread → Thread) : (modThr s f).fabric = s.fabric := rfl
@[simp] theorem modThr_mod (s : State) (f : Thread → Thread) : (modThr s f).mod = s.mod := rfl
@[simp] theorem modThr_frameNext (s : State) (f : Thread → Thread) : (modThr s f).frameNext = s.frameNext := rfl
@[simp] theorem modThr_framePool (s : State) (f : Thread → Thread) : (modThr s f).framePool = s.framePool := rfl
@[simp] theorem modThr_zeroing (s : State) (f : Thread → Thread) : (modThr s f).zeroing = s.zeroing := rfl
@[simp] theorem modThr_imageNext (s : State) (f : Thread → Thread) : (modThr s f).imageNext = s.imageNext := rfl
@[simp] theorem modThr_nextId (s : State) (f : Thread → Thread) : (modThr s f).nextId = s.nextId := rfl
@[simp] theorem modThr_troupe (s : State) (f : Thread → Thread) : (modThr s f).troupe = s.troupe := rfl
@[simp] theorem modThr_sched (s : State) (f : Thread → Thread) : (modThr s f).sched = s.sched := rfl
@[simp] theorem modThr_rotation (s : State) (f : Thread → Thread) : (modThr s f).rotation = s.rotation := rfl
@[simp] theorem modThr_freeCtr (s : State) (f : Thread → Thread) : (modThr s f).freeCtr = s.freeCtr := rfl
@[simp] theorem modThr_picks (s : State) (f : Thread → Thread) : (modThr s f).picks = s.picks := rfl
@[simp] theorem modThr_stamp (s : State) (f : Thread → Thread) : (modThr s f).stamp = s.stamp := rfl

/-! ### mapThreads -/

@[simp] theorem mapThreads_cur (s : State) (f : Thread → Thread) : (mapThreads s f).cur = s.cur := rfl
@[simp] theorem mapThreads_teams (s : State) (f : Thread → Thread) : (mapThreads s f).teams = s.teams := rfl
@[simp] theorem mapThreads_tasks (s : State) (f : Thread → Thread) : (mapThreads s f).tasks = s.tasks := rfl
@[simp] theorem mapThreads_parts (s : State) (f : Thread → Thread) : (mapThreads s f).parts = s.parts := rfl
@[simp] theorem mapThreads_curPart (s : State) (f : Thread → Thread) : (mapThreads s f).curPart = s.curPart := rfl
@[simp] theorem mapThreads_cores (s : State) (f : Thread → Thread) : (mapThreads s f).cores = s.cores := rfl
@[simp] theorem mapThreads_mem (s : State) (f : Thread → Thread) : (mapThreads s f).mem = s.mem := rfl
@[simp] theorem mapThreads_poison (s : State) (f : Thread → Thread) : (mapThreads s f).poison = s.poison := rfl
@[simp] theorem mapThreads_ensembles (s : State) (f : Thread → Thread) : (mapThreads s f).ensembles = s.ensembles := rfl
@[simp] theorem mapThreads_ensUses (s : State) (f : Thread → Thread) : (mapThreads s f).ensUses = s.ensUses := rfl
@[simp] theorem mapThreads_ensGens (s : State) (f : Thread → Thread) : (mapThreads s f).ensGens = s.ensGens := rfl
@[simp] theorem mapThreads_eng (s : State) (f : Thread → Thread) : (mapThreads s f).eng = s.eng := rfl
@[simp] theorem mapThreads_engLast (s : State) (f : Thread → Thread) : (mapThreads s f).engLast = s.engLast := rfl
@[simp] theorem mapThreads_frames (s : State) (f : Thread → Thread) : (mapThreads s f).frames = s.frames := rfl
@[simp] theorem mapThreads_rounds (s : State) (f : Thread → Thread) : (mapThreads s f).rounds = s.rounds := rfl
@[simp] theorem mapThreads_recs (s : State) (f : Thread → Thread) : (mapThreads s f).recs = s.recs := rfl
@[simp] theorem mapThreads_images (s : State) (f : Thread → Thread) : (mapThreads s f).images = s.images := rfl
@[simp] theorem mapThreads_conns (s : State) (f : Thread → Thread) : (mapThreads s f).conns = s.conns := rfl
@[simp] theorem mapThreads_out (s : State) (f : Thread → Thread) : (mapThreads s f).out = s.out := rfl
@[simp] theorem mapThreads_replicas (s : State) (f : Thread → Thread) : (mapThreads s f).replicas = s.replicas := rfl
@[simp] theorem mapThreads_notices (s : State) (f : Thread → Thread) : (mapThreads s f).notices = s.notices := rfl
@[simp] theorem mapThreads_fabric (s : State) (f : Thread → Thread) : (mapThreads s f).fabric = s.fabric := rfl
@[simp] theorem mapThreads_mod (s : State) (f : Thread → Thread) : (mapThreads s f).mod = s.mod := rfl
@[simp] theorem mapThreads_frameNext (s : State) (f : Thread → Thread) : (mapThreads s f).frameNext = s.frameNext := rfl
@[simp] theorem mapThreads_framePool (s : State) (f : Thread → Thread) : (mapThreads s f).framePool = s.framePool := rfl
@[simp] theorem mapThreads_zeroing (s : State) (f : Thread → Thread) : (mapThreads s f).zeroing = s.zeroing := rfl
@[simp] theorem mapThreads_imageNext (s : State) (f : Thread → Thread) : (mapThreads s f).imageNext = s.imageNext := rfl
@[simp] theorem mapThreads_nextId (s : State) (f : Thread → Thread) : (mapThreads s f).nextId = s.nextId := rfl
@[simp] theorem mapThreads_troupe (s : State) (f : Thread → Thread) : (mapThreads s f).troupe = s.troupe := rfl
@[simp] theorem mapThreads_sched (s : State) (f : Thread → Thread) : (mapThreads s f).sched = s.sched := rfl
@[simp] theorem mapThreads_rotation (s : State) (f : Thread → Thread) : (mapThreads s f).rotation = s.rotation := rfl
@[simp] theorem mapThreads_freeCtr (s : State) (f : Thread → Thread) : (mapThreads s f).freeCtr = s.freeCtr := rfl
@[simp] theorem mapThreads_picks (s : State) (f : Thread → Thread) : (mapThreads s f).picks = s.picks := rfl
@[simp] theorem mapThreads_stamp (s : State) (f : Thread → Thread) : (mapThreads s f).stamp = s.stamp := rfl

/-! ### modTid -/

@[simp] theorem modTid_cur (s : State) (n : Nat) (f : Thread → Thread) : (modTid s n f).cur = s.cur := rfl
@[simp] theorem modTid_teams (s : State) (n : Nat) (f : Thread → Thread) : (modTid s n f).teams = s.teams := rfl
@[simp] theorem modTid_tasks (s : State) (n : Nat) (f : Thread → Thread) : (modTid s n f).tasks = s.tasks := rfl
@[simp] theorem modTid_parts (s : State) (n : Nat) (f : Thread → Thread) : (modTid s n f).parts = s.parts := rfl
@[simp] theorem modTid_curPart (s : State) (n : Nat) (f : Thread → Thread) : (modTid s n f).curPart = s.curPart := rfl
@[simp] theorem modTid_cores (s : State) (n : Nat) (f : Thread → Thread) : (modTid s n f).cores = s.cores := rfl
@[simp] theorem modTid_mem (s : State) (n : Nat) (f : Thread → Thread) : (modTid s n f).mem = s.mem := rfl
@[simp] theorem modTid_poison (s : State) (n : Nat) (f : Thread → Thread) : (modTid s n f).poison = s.poison := rfl
@[simp] theorem modTid_ensembles (s : State) (n : Nat) (f : Thread → Thread) : (modTid s n f).ensembles = s.ensembles := rfl
@[simp] theorem modTid_ensUses (s : State) (n : Nat) (f : Thread → Thread) : (modTid s n f).ensUses = s.ensUses := rfl
@[simp] theorem modTid_ensGens (s : State) (n : Nat) (f : Thread → Thread) : (modTid s n f).ensGens = s.ensGens := rfl
@[simp] theorem modTid_eng (s : State) (n : Nat) (f : Thread → Thread) : (modTid s n f).eng = s.eng := rfl
@[simp] theorem modTid_engLast (s : State) (n : Nat) (f : Thread → Thread) : (modTid s n f).engLast = s.engLast := rfl
@[simp] theorem modTid_frames (s : State) (n : Nat) (f : Thread → Thread) : (modTid s n f).frames = s.frames := rfl
@[simp] theorem modTid_rounds (s : State) (n : Nat) (f : Thread → Thread) : (modTid s n f).rounds = s.rounds := rfl
@[simp] theorem modTid_recs (s : State) (n : Nat) (f : Thread → Thread) : (modTid s n f).recs = s.recs := rfl
@[simp] theorem modTid_images (s : State) (n : Nat) (f : Thread → Thread) : (modTid s n f).images = s.images := rfl
@[simp] theorem modTid_conns (s : State) (n : Nat) (f : Thread → Thread) : (modTid s n f).conns = s.conns := rfl
@[simp] theorem modTid_out (s : State) (n : Nat) (f : Thread → Thread) : (modTid s n f).out = s.out := rfl
@[simp] theorem modTid_replicas (s : State) (n : Nat) (f : Thread → Thread) : (modTid s n f).replicas = s.replicas := rfl
@[simp] theorem modTid_notices (s : State) (n : Nat) (f : Thread → Thread) : (modTid s n f).notices = s.notices := rfl
@[simp] theorem modTid_fabric (s : State) (n : Nat) (f : Thread → Thread) : (modTid s n f).fabric = s.fabric := rfl
@[simp] theorem modTid_mod (s : State) (n : Nat) (f : Thread → Thread) : (modTid s n f).mod = s.mod := rfl
@[simp] theorem modTid_frameNext (s : State) (n : Nat) (f : Thread → Thread) : (modTid s n f).frameNext = s.frameNext := rfl
@[simp] theorem modTid_framePool (s : State) (n : Nat) (f : Thread → Thread) : (modTid s n f).framePool = s.framePool := rfl
@[simp] theorem modTid_zeroing (s : State) (n : Nat) (f : Thread → Thread) : (modTid s n f).zeroing = s.zeroing := rfl
@[simp] theorem modTid_imageNext (s : State) (n : Nat) (f : Thread → Thread) : (modTid s n f).imageNext = s.imageNext := rfl
@[simp] theorem modTid_nextId (s : State) (n : Nat) (f : Thread → Thread) : (modTid s n f).nextId = s.nextId := rfl
@[simp] theorem modTid_troupe (s : State) (n : Nat) (f : Thread → Thread) : (modTid s n f).troupe = s.troupe := rfl
@[simp] theorem modTid_sched (s : State) (n : Nat) (f : Thread → Thread) : (modTid s n f).sched = s.sched := rfl
@[simp] theorem modTid_rotation (s : State) (n : Nat) (f : Thread → Thread) : (modTid s n f).rotation = s.rotation := rfl
@[simp] theorem modTid_freeCtr (s : State) (n : Nat) (f : Thread → Thread) : (modTid s n f).freeCtr = s.freeCtr := rfl
@[simp] theorem modTid_picks (s : State) (n : Nat) (f : Thread → Thread) : (modTid s n f).picks = s.picks := rfl
@[simp] theorem modTid_stamp (s : State) (n : Nat) (f : Thread → Thread) : (modTid s n f).stamp = s.stamp := rfl

/-! ### modTeam -/

@[simp] theorem modTeam_thr (s : State) (n : Nat) (f : Team → Team) : (modTeam s n f).thr = s.thr := rfl
@[simp] theorem modTeam_cur (s : State) (n : Nat) (f : Team → Team) : (modTeam s n f).cur = s.cur := rfl
@[simp] theorem modTeam_others (s : State) (n : Nat) (f : Team → Team) : (modTeam s n f).others = s.others := rfl
@[simp] theorem modTeam_tasks (s : State) (n : Nat) (f : Team → Team) : (modTeam s n f).tasks = s.tasks := rfl
@[simp] theorem modTeam_parts (s : State) (n : Nat) (f : Team → Team) : (modTeam s n f).parts = s.parts := rfl
@[simp] theorem modTeam_curPart (s : State) (n : Nat) (f : Team → Team) : (modTeam s n f).curPart = s.curPart := rfl
@[simp] theorem modTeam_cores (s : State) (n : Nat) (f : Team → Team) : (modTeam s n f).cores = s.cores := rfl
@[simp] theorem modTeam_mem (s : State) (n : Nat) (f : Team → Team) : (modTeam s n f).mem = s.mem := rfl
@[simp] theorem modTeam_poison (s : State) (n : Nat) (f : Team → Team) : (modTeam s n f).poison = s.poison := rfl
@[simp] theorem modTeam_ensembles (s : State) (n : Nat) (f : Team → Team) : (modTeam s n f).ensembles = s.ensembles := rfl
@[simp] theorem modTeam_ensUses (s : State) (n : Nat) (f : Team → Team) : (modTeam s n f).ensUses = s.ensUses := rfl
@[simp] theorem modTeam_ensGens (s : State) (n : Nat) (f : Team → Team) : (modTeam s n f).ensGens = s.ensGens := rfl
@[simp] theorem modTeam_eng (s : State) (n : Nat) (f : Team → Team) : (modTeam s n f).eng = s.eng := rfl
@[simp] theorem modTeam_engLast (s : State) (n : Nat) (f : Team → Team) : (modTeam s n f).engLast = s.engLast := rfl
@[simp] theorem modTeam_frames (s : State) (n : Nat) (f : Team → Team) : (modTeam s n f).frames = s.frames := rfl
@[simp] theorem modTeam_rounds (s : State) (n : Nat) (f : Team → Team) : (modTeam s n f).rounds = s.rounds := rfl
@[simp] theorem modTeam_recs (s : State) (n : Nat) (f : Team → Team) : (modTeam s n f).recs = s.recs := rfl
@[simp] theorem modTeam_images (s : State) (n : Nat) (f : Team → Team) : (modTeam s n f).images = s.images := rfl
@[simp] theorem modTeam_conns (s : State) (n : Nat) (f : Team → Team) : (modTeam s n f).conns = s.conns := rfl
@[simp] theorem modTeam_out (s : State) (n : Nat) (f : Team → Team) : (modTeam s n f).out = s.out := rfl
@[simp] theorem modTeam_replicas (s : State) (n : Nat) (f : Team → Team) : (modTeam s n f).replicas = s.replicas := rfl
@[simp] theorem modTeam_notices (s : State) (n : Nat) (f : Team → Team) : (modTeam s n f).notices = s.notices := rfl
@[simp] theorem modTeam_fabric (s : State) (n : Nat) (f : Team → Team) : (modTeam s n f).fabric = s.fabric := rfl
@[simp] theorem modTeam_mod (s : State) (n : Nat) (f : Team → Team) : (modTeam s n f).mod = s.mod := rfl
@[simp] theorem modTeam_frameNext (s : State) (n : Nat) (f : Team → Team) : (modTeam s n f).frameNext = s.frameNext := rfl
@[simp] theorem modTeam_framePool (s : State) (n : Nat) (f : Team → Team) : (modTeam s n f).framePool = s.framePool := rfl
@[simp] theorem modTeam_zeroing (s : State) (n : Nat) (f : Team → Team) : (modTeam s n f).zeroing = s.zeroing := rfl
@[simp] theorem modTeam_imageNext (s : State) (n : Nat) (f : Team → Team) : (modTeam s n f).imageNext = s.imageNext := rfl
@[simp] theorem modTeam_nextId (s : State) (n : Nat) (f : Team → Team) : (modTeam s n f).nextId = s.nextId := rfl
@[simp] theorem modTeam_troupe (s : State) (n : Nat) (f : Team → Team) : (modTeam s n f).troupe = s.troupe := rfl
@[simp] theorem modTeam_sched (s : State) (n : Nat) (f : Team → Team) : (modTeam s n f).sched = s.sched := rfl
@[simp] theorem modTeam_rotation (s : State) (n : Nat) (f : Team → Team) : (modTeam s n f).rotation = s.rotation := rfl
@[simp] theorem modTeam_freeCtr (s : State) (n : Nat) (f : Team → Team) : (modTeam s n f).freeCtr = s.freeCtr := rfl
@[simp] theorem modTeam_picks (s : State) (n : Nat) (f : Team → Team) : (modTeam s n f).picks = s.picks := rfl
@[simp] theorem modTeam_stamp (s : State) (n : Nat) (f : Team → Team) : (modTeam s n f).stamp = s.stamp := rfl

/-! ### modTask -/

@[simp] theorem modTask_thr (s : State) (n : Nat) (f : Task → Task) : (modTask s n f).thr = s.thr := rfl
@[simp] theorem modTask_cur (s : State) (n : Nat) (f : Task → Task) : (modTask s n f).cur = s.cur := rfl
@[simp] theorem modTask_others (s : State) (n : Nat) (f : Task → Task) : (modTask s n f).others = s.others := rfl
@[simp] theorem modTask_teams (s : State) (n : Nat) (f : Task → Task) : (modTask s n f).teams = s.teams := rfl
@[simp] theorem modTask_parts (s : State) (n : Nat) (f : Task → Task) : (modTask s n f).parts = s.parts := rfl
@[simp] theorem modTask_curPart (s : State) (n : Nat) (f : Task → Task) : (modTask s n f).curPart = s.curPart := rfl
@[simp] theorem modTask_cores (s : State) (n : Nat) (f : Task → Task) : (modTask s n f).cores = s.cores := rfl
@[simp] theorem modTask_mem (s : State) (n : Nat) (f : Task → Task) : (modTask s n f).mem = s.mem := rfl
@[simp] theorem modTask_poison (s : State) (n : Nat) (f : Task → Task) : (modTask s n f).poison = s.poison := rfl
@[simp] theorem modTask_ensembles (s : State) (n : Nat) (f : Task → Task) : (modTask s n f).ensembles = s.ensembles := rfl
@[simp] theorem modTask_ensUses (s : State) (n : Nat) (f : Task → Task) : (modTask s n f).ensUses = s.ensUses := rfl
@[simp] theorem modTask_ensGens (s : State) (n : Nat) (f : Task → Task) : (modTask s n f).ensGens = s.ensGens := rfl
@[simp] theorem modTask_eng (s : State) (n : Nat) (f : Task → Task) : (modTask s n f).eng = s.eng := rfl
@[simp] theorem modTask_engLast (s : State) (n : Nat) (f : Task → Task) : (modTask s n f).engLast = s.engLast := rfl
@[simp] theorem modTask_frames (s : State) (n : Nat) (f : Task → Task) : (modTask s n f).frames = s.frames := rfl
@[simp] theorem modTask_rounds (s : State) (n : Nat) (f : Task → Task) : (modTask s n f).rounds = s.rounds := rfl
@[simp] theorem modTask_recs (s : State) (n : Nat) (f : Task → Task) : (modTask s n f).recs = s.recs := rfl
@[simp] theorem modTask_images (s : State) (n : Nat) (f : Task → Task) : (modTask s n f).images = s.images := rfl
@[simp] theorem modTask_conns (s : State) (n : Nat) (f : Task → Task) : (modTask s n f).conns = s.conns := rfl
@[simp] theorem modTask_out (s : State) (n : Nat) (f : Task → Task) : (modTask s n f).out = s.out := rfl
@[simp] theorem modTask_replicas (s : State) (n : Nat) (f : Task → Task) : (modTask s n f).replicas = s.replicas := rfl
@[simp] theorem modTask_notices (s : State) (n : Nat) (f : Task → Task) : (modTask s n f).notices = s.notices := rfl
@[simp] theorem modTask_fabric (s : State) (n : Nat) (f : Task → Task) : (modTask s n f).fabric = s.fabric := rfl
@[simp] theorem modTask_mod (s : State) (n : Nat) (f : Task → Task) : (modTask s n f).mod = s.mod := rfl
@[simp] theorem modTask_frameNext (s : State) (n : Nat) (f : Task → Task) : (modTask s n f).frameNext = s.frameNext := rfl
@[simp] theorem modTask_framePool (s : State) (n : Nat) (f : Task → Task) : (modTask s n f).framePool = s.framePool := rfl
@[simp] theorem modTask_zeroing (s : State) (n : Nat) (f : Task → Task) : (modTask s n f).zeroing = s.zeroing := rfl
@[simp] theorem modTask_imageNext (s : State) (n : Nat) (f : Task → Task) : (modTask s n f).imageNext = s.imageNext := rfl
@[simp] theorem modTask_nextId (s : State) (n : Nat) (f : Task → Task) : (modTask s n f).nextId = s.nextId := rfl
@[simp] theorem modTask_troupe (s : State) (n : Nat) (f : Task → Task) : (modTask s n f).troupe = s.troupe := rfl
@[simp] theorem modTask_sched (s : State) (n : Nat) (f : Task → Task) : (modTask s n f).sched = s.sched := rfl
@[simp] theorem modTask_rotation (s : State) (n : Nat) (f : Task → Task) : (modTask s n f).rotation = s.rotation := rfl
@[simp] theorem modTask_freeCtr (s : State) (n : Nat) (f : Task → Task) : (modTask s n f).freeCtr = s.freeCtr := rfl
@[simp] theorem modTask_picks (s : State) (n : Nat) (f : Task → Task) : (modTask s n f).picks = s.picks := rfl
@[simp] theorem modTask_stamp (s : State) (n : Nat) (f : Task → Task) : (modTask s n f).stamp = s.stamp := rfl

/-! ### modPart -/

@[simp] theorem modPart_thr (s : State) (n : Nat) (f : Partition → Partition) : (modPart s n f).thr = s.thr := rfl
@[simp] theorem modPart_cur (s : State) (n : Nat) (f : Partition → Partition) : (modPart s n f).cur = s.cur := rfl
@[simp] theorem modPart_others (s : State) (n : Nat) (f : Partition → Partition) : (modPart s n f).others = s.others := rfl
@[simp] theorem modPart_teams (s : State) (n : Nat) (f : Partition → Partition) : (modPart s n f).teams = s.teams := rfl
@[simp] theorem modPart_tasks (s : State) (n : Nat) (f : Partition → Partition) : (modPart s n f).tasks = s.tasks := rfl
@[simp] theorem modPart_curPart (s : State) (n : Nat) (f : Partition → Partition) : (modPart s n f).curPart = s.curPart := rfl
@[simp] theorem modPart_cores (s : State) (n : Nat) (f : Partition → Partition) : (modPart s n f).cores = s.cores := rfl
@[simp] theorem modPart_mem (s : State) (n : Nat) (f : Partition → Partition) : (modPart s n f).mem = s.mem := rfl
@[simp] theorem modPart_poison (s : State) (n : Nat) (f : Partition → Partition) : (modPart s n f).poison = s.poison := rfl
@[simp] theorem modPart_ensembles (s : State) (n : Nat) (f : Partition → Partition) : (modPart s n f).ensembles = s.ensembles := rfl
@[simp] theorem modPart_ensUses (s : State) (n : Nat) (f : Partition → Partition) : (modPart s n f).ensUses = s.ensUses := rfl
@[simp] theorem modPart_ensGens (s : State) (n : Nat) (f : Partition → Partition) : (modPart s n f).ensGens = s.ensGens := rfl
@[simp] theorem modPart_eng (s : State) (n : Nat) (f : Partition → Partition) : (modPart s n f).eng = s.eng := rfl
@[simp] theorem modPart_engLast (s : State) (n : Nat) (f : Partition → Partition) : (modPart s n f).engLast = s.engLast := rfl
@[simp] theorem modPart_frames (s : State) (n : Nat) (f : Partition → Partition) : (modPart s n f).frames = s.frames := rfl
@[simp] theorem modPart_rounds (s : State) (n : Nat) (f : Partition → Partition) : (modPart s n f).rounds = s.rounds := rfl
@[simp] theorem modPart_recs (s : State) (n : Nat) (f : Partition → Partition) : (modPart s n f).recs = s.recs := rfl
@[simp] theorem modPart_images (s : State) (n : Nat) (f : Partition → Partition) : (modPart s n f).images = s.images := rfl
@[simp] theorem modPart_conns (s : State) (n : Nat) (f : Partition → Partition) : (modPart s n f).conns = s.conns := rfl
@[simp] theorem modPart_out (s : State) (n : Nat) (f : Partition → Partition) : (modPart s n f).out = s.out := rfl
@[simp] theorem modPart_replicas (s : State) (n : Nat) (f : Partition → Partition) : (modPart s n f).replicas = s.replicas := rfl
@[simp] theorem modPart_notices (s : State) (n : Nat) (f : Partition → Partition) : (modPart s n f).notices = s.notices := rfl
@[simp] theorem modPart_fabric (s : State) (n : Nat) (f : Partition → Partition) : (modPart s n f).fabric = s.fabric := rfl
@[simp] theorem modPart_mod (s : State) (n : Nat) (f : Partition → Partition) : (modPart s n f).mod = s.mod := rfl
@[simp] theorem modPart_frameNext (s : State) (n : Nat) (f : Partition → Partition) : (modPart s n f).frameNext = s.frameNext := rfl
@[simp] theorem modPart_framePool (s : State) (n : Nat) (f : Partition → Partition) : (modPart s n f).framePool = s.framePool := rfl
@[simp] theorem modPart_zeroing (s : State) (n : Nat) (f : Partition → Partition) : (modPart s n f).zeroing = s.zeroing := rfl
@[simp] theorem modPart_imageNext (s : State) (n : Nat) (f : Partition → Partition) : (modPart s n f).imageNext = s.imageNext := rfl
@[simp] theorem modPart_nextId (s : State) (n : Nat) (f : Partition → Partition) : (modPart s n f).nextId = s.nextId := rfl
@[simp] theorem modPart_troupe (s : State) (n : Nat) (f : Partition → Partition) : (modPart s n f).troupe = s.troupe := rfl
@[simp] theorem modPart_sched (s : State) (n : Nat) (f : Partition → Partition) : (modPart s n f).sched = s.sched := rfl
@[simp] theorem modPart_rotation (s : State) (n : Nat) (f : Partition → Partition) : (modPart s n f).rotation = s.rotation := rfl
@[simp] theorem modPart_freeCtr (s : State) (n : Nat) (f : Partition → Partition) : (modPart s n f).freeCtr = s.freeCtr := rfl
@[simp] theorem modPart_picks (s : State) (n : Nat) (f : Partition → Partition) : (modPart s n f).picks = s.picks := rfl
@[simp] theorem modPart_stamp (s : State) (n : Nat) (f : Partition → Partition) : (modPart s n f).stamp = s.stamp := rfl

/-! ### modCore -/

@[simp] theorem modCore_thr (s : State) (n : Nat) (f : Core → Core) : (modCore s n f).thr = s.thr := rfl
@[simp] theorem modCore_cur (s : State) (n : Nat) (f : Core → Core) : (modCore s n f).cur = s.cur := rfl
@[simp] theorem modCore_others (s : State) (n : Nat) (f : Core → Core) : (modCore s n f).others = s.others := rfl
@[simp] theorem modCore_teams (s : State) (n : Nat) (f : Core → Core) : (modCore s n f).teams = s.teams := rfl
@[simp] theorem modCore_tasks (s : State) (n : Nat) (f : Core → Core) : (modCore s n f).tasks = s.tasks := rfl
@[simp] theorem modCore_parts (s : State) (n : Nat) (f : Core → Core) : (modCore s n f).parts = s.parts := rfl
@[simp] theorem modCore_curPart (s : State) (n : Nat) (f : Core → Core) : (modCore s n f).curPart = s.curPart := rfl
@[simp] theorem modCore_mem (s : State) (n : Nat) (f : Core → Core) : (modCore s n f).mem = s.mem := rfl
@[simp] theorem modCore_poison (s : State) (n : Nat) (f : Core → Core) : (modCore s n f).poison = s.poison := rfl
@[simp] theorem modCore_ensembles (s : State) (n : Nat) (f : Core → Core) : (modCore s n f).ensembles = s.ensembles := rfl
@[simp] theorem modCore_ensUses (s : State) (n : Nat) (f : Core → Core) : (modCore s n f).ensUses = s.ensUses := rfl
@[simp] theorem modCore_ensGens (s : State) (n : Nat) (f : Core → Core) : (modCore s n f).ensGens = s.ensGens := rfl
@[simp] theorem modCore_eng (s : State) (n : Nat) (f : Core → Core) : (modCore s n f).eng = s.eng := rfl
@[simp] theorem modCore_engLast (s : State) (n : Nat) (f : Core → Core) : (modCore s n f).engLast = s.engLast := rfl
@[simp] theorem modCore_frames (s : State) (n : Nat) (f : Core → Core) : (modCore s n f).frames = s.frames := rfl
@[simp] theorem modCore_rounds (s : State) (n : Nat) (f : Core → Core) : (modCore s n f).rounds = s.rounds := rfl
@[simp] theorem modCore_recs (s : State) (n : Nat) (f : Core → Core) : (modCore s n f).recs = s.recs := rfl
@[simp] theorem modCore_images (s : State) (n : Nat) (f : Core → Core) : (modCore s n f).images = s.images := rfl
@[simp] theorem modCore_conns (s : State) (n : Nat) (f : Core → Core) : (modCore s n f).conns = s.conns := rfl
@[simp] theorem modCore_out (s : State) (n : Nat) (f : Core → Core) : (modCore s n f).out = s.out := rfl
@[simp] theorem modCore_replicas (s : State) (n : Nat) (f : Core → Core) : (modCore s n f).replicas = s.replicas := rfl
@[simp] theorem modCore_notices (s : State) (n : Nat) (f : Core → Core) : (modCore s n f).notices = s.notices := rfl
@[simp] theorem modCore_fabric (s : State) (n : Nat) (f : Core → Core) : (modCore s n f).fabric = s.fabric := rfl
@[simp] theorem modCore_mod (s : State) (n : Nat) (f : Core → Core) : (modCore s n f).mod = s.mod := rfl
@[simp] theorem modCore_frameNext (s : State) (n : Nat) (f : Core → Core) : (modCore s n f).frameNext = s.frameNext := rfl
@[simp] theorem modCore_framePool (s : State) (n : Nat) (f : Core → Core) : (modCore s n f).framePool = s.framePool := rfl
@[simp] theorem modCore_zeroing (s : State) (n : Nat) (f : Core → Core) : (modCore s n f).zeroing = s.zeroing := rfl
@[simp] theorem modCore_imageNext (s : State) (n : Nat) (f : Core → Core) : (modCore s n f).imageNext = s.imageNext := rfl
@[simp] theorem modCore_nextId (s : State) (n : Nat) (f : Core → Core) : (modCore s n f).nextId = s.nextId := rfl
@[simp] theorem modCore_troupe (s : State) (n : Nat) (f : Core → Core) : (modCore s n f).troupe = s.troupe := rfl
@[simp] theorem modCore_sched (s : State) (n : Nat) (f : Core → Core) : (modCore s n f).sched = s.sched := rfl
@[simp] theorem modCore_rotation (s : State) (n : Nat) (f : Core → Core) : (modCore s n f).rotation = s.rotation := rfl
@[simp] theorem modCore_freeCtr (s : State) (n : Nat) (f : Core → Core) : (modCore s n f).freeCtr = s.freeCtr := rfl
@[simp] theorem modCore_picks (s : State) (n : Nat) (f : Core → Core) : (modCore s n f).picks = s.picks := rfl
@[simp] theorem modCore_stamp (s : State) (n : Nat) (f : Core → Core) : (modCore s n f).stamp = s.stamp := rfl

/-! ### modRec -/

@[simp] theorem modRec_thr (s : State) (n : Nat) (f : HRec → HRec) : (modRec s n f).thr = s.thr := rfl
@[simp] theorem modRec_cur (s : State) (n : Nat) (f : HRec → HRec) : (modRec s n f).cur = s.cur := rfl
@[simp] theorem modRec_others (s : State) (n : Nat) (f : HRec → HRec) : (modRec s n f).others = s.others := rfl
@[simp] theorem modRec_teams (s : State) (n : Nat) (f : HRec → HRec) : (modRec s n f).teams = s.teams := rfl
@[simp] theorem modRec_tasks (s : State) (n : Nat) (f : HRec → HRec) : (modRec s n f).tasks = s.tasks := rfl
@[simp] theorem modRec_parts (s : State) (n : Nat) (f : HRec → HRec) : (modRec s n f).parts = s.parts := rfl
@[simp] theorem modRec_curPart (s : State) (n : Nat) (f : HRec → HRec) : (modRec s n f).curPart = s.curPart := rfl
@[simp] theorem modRec_cores (s : State) (n : Nat) (f : HRec → HRec) : (modRec s n f).cores = s.cores := rfl
@[simp] theorem modRec_mem (s : State) (n : Nat) (f : HRec → HRec) : (modRec s n f).mem = s.mem := rfl
@[simp] theorem modRec_poison (s : State) (n : Nat) (f : HRec → HRec) : (modRec s n f).poison = s.poison := rfl
@[simp] theorem modRec_ensembles (s : State) (n : Nat) (f : HRec → HRec) : (modRec s n f).ensembles = s.ensembles := rfl
@[simp] theorem modRec_ensUses (s : State) (n : Nat) (f : HRec → HRec) : (modRec s n f).ensUses = s.ensUses := rfl
@[simp] theorem modRec_ensGens (s : State) (n : Nat) (f : HRec → HRec) : (modRec s n f).ensGens = s.ensGens := rfl
@[simp] theorem modRec_eng (s : State) (n : Nat) (f : HRec → HRec) : (modRec s n f).eng = s.eng := rfl
@[simp] theorem modRec_engLast (s : State) (n : Nat) (f : HRec → HRec) : (modRec s n f).engLast = s.engLast := rfl
@[simp] theorem modRec_frames (s : State) (n : Nat) (f : HRec → HRec) : (modRec s n f).frames = s.frames := rfl
@[simp] theorem modRec_rounds (s : State) (n : Nat) (f : HRec → HRec) : (modRec s n f).rounds = s.rounds := rfl
@[simp] theorem modRec_images (s : State) (n : Nat) (f : HRec → HRec) : (modRec s n f).images = s.images := rfl
@[simp] theorem modRec_conns (s : State) (n : Nat) (f : HRec → HRec) : (modRec s n f).conns = s.conns := rfl
@[simp] theorem modRec_out (s : State) (n : Nat) (f : HRec → HRec) : (modRec s n f).out = s.out := rfl
@[simp] theorem modRec_replicas (s : State) (n : Nat) (f : HRec → HRec) : (modRec s n f).replicas = s.replicas := rfl
@[simp] theorem modRec_notices (s : State) (n : Nat) (f : HRec → HRec) : (modRec s n f).notices = s.notices := rfl
@[simp] theorem modRec_fabric (s : State) (n : Nat) (f : HRec → HRec) : (modRec s n f).fabric = s.fabric := rfl
@[simp] theorem modRec_mod (s : State) (n : Nat) (f : HRec → HRec) : (modRec s n f).mod = s.mod := rfl
@[simp] theorem modRec_frameNext (s : State) (n : Nat) (f : HRec → HRec) : (modRec s n f).frameNext = s.frameNext := rfl
@[simp] theorem modRec_framePool (s : State) (n : Nat) (f : HRec → HRec) : (modRec s n f).framePool = s.framePool := rfl
@[simp] theorem modRec_zeroing (s : State) (n : Nat) (f : HRec → HRec) : (modRec s n f).zeroing = s.zeroing := rfl
@[simp] theorem modRec_imageNext (s : State) (n : Nat) (f : HRec → HRec) : (modRec s n f).imageNext = s.imageNext := rfl
@[simp] theorem modRec_nextId (s : State) (n : Nat) (f : HRec → HRec) : (modRec s n f).nextId = s.nextId := rfl
@[simp] theorem modRec_troupe (s : State) (n : Nat) (f : HRec → HRec) : (modRec s n f).troupe = s.troupe := rfl
@[simp] theorem modRec_sched (s : State) (n : Nat) (f : HRec → HRec) : (modRec s n f).sched = s.sched := rfl
@[simp] theorem modRec_rotation (s : State) (n : Nat) (f : HRec → HRec) : (modRec s n f).rotation = s.rotation := rfl
@[simp] theorem modRec_freeCtr (s : State) (n : Nat) (f : HRec → HRec) : (modRec s n f).freeCtr = s.freeCtr := rfl
@[simp] theorem modRec_picks (s : State) (n : Nat) (f : HRec → HRec) : (modRec s n f).picks = s.picks := rfl
@[simp] theorem modRec_stamp (s : State) (n : Nat) (f : HRec → HRec) : (modRec s n f).stamp = s.stamp := rfl

/-! ### modEng -/

@[simp] theorem modEng_thr (s : State) (n : Nat) (f : EngRec → EngRec) : (modEng s n f).thr = s.thr := rfl
@[simp] theorem modEng_cur (s : State) (n : Nat) (f : EngRec → EngRec) : (modEng s n f).cur = s.cur := rfl
@[simp] theorem modEng_others (s : State) (n : Nat) (f : EngRec → EngRec) : (modEng s n f).others = s.others := rfl
@[simp] theorem modEng_teams (s : State) (n : Nat) (f : EngRec → EngRec) : (modEng s n f).teams = s.teams := rfl
@[simp] theorem modEng_tasks (s : State) (n : Nat) (f : EngRec → EngRec) : (modEng s n f).tasks = s.tasks := rfl
@[simp] theorem modEng_parts (s : State) (n : Nat) (f : EngRec → EngRec) : (modEng s n f).parts = s.parts := rfl
@[simp] theorem modEng_curPart (s : State) (n : Nat) (f : EngRec → EngRec) : (modEng s n f).curPart = s.curPart := rfl
@[simp] theorem modEng_cores (s : State) (n : Nat) (f : EngRec → EngRec) : (modEng s n f).cores = s.cores := rfl
@[simp] theorem modEng_mem (s : State) (n : Nat) (f : EngRec → EngRec) : (modEng s n f).mem = s.mem := rfl
@[simp] theorem modEng_poison (s : State) (n : Nat) (f : EngRec → EngRec) : (modEng s n f).poison = s.poison := rfl
@[simp] theorem modEng_ensembles (s : State) (n : Nat) (f : EngRec → EngRec) : (modEng s n f).ensembles = s.ensembles := rfl
@[simp] theorem modEng_ensUses (s : State) (n : Nat) (f : EngRec → EngRec) : (modEng s n f).ensUses = s.ensUses := rfl
@[simp] theorem modEng_ensGens (s : State) (n : Nat) (f : EngRec → EngRec) : (modEng s n f).ensGens = s.ensGens := rfl
@[simp] theorem modEng_engLast (s : State) (n : Nat) (f : EngRec → EngRec) : (modEng s n f).engLast = s.engLast := rfl
@[simp] theorem modEng_frames (s : State) (n : Nat) (f : EngRec → EngRec) : (modEng s n f).frames = s.frames := rfl
@[simp] theorem modEng_rounds (s : State) (n : Nat) (f : EngRec → EngRec) : (modEng s n f).rounds = s.rounds := rfl
@[simp] theorem modEng_recs (s : State) (n : Nat) (f : EngRec → EngRec) : (modEng s n f).recs = s.recs := rfl
@[simp] theorem modEng_images (s : State) (n : Nat) (f : EngRec → EngRec) : (modEng s n f).images = s.images := rfl
@[simp] theorem modEng_conns (s : State) (n : Nat) (f : EngRec → EngRec) : (modEng s n f).conns = s.conns := rfl
@[simp] theorem modEng_out (s : State) (n : Nat) (f : EngRec → EngRec) : (modEng s n f).out = s.out := rfl
@[simp] theorem modEng_replicas (s : State) (n : Nat) (f : EngRec → EngRec) : (modEng s n f).replicas = s.replicas := rfl
@[simp] theorem modEng_notices (s : State) (n : Nat) (f : EngRec → EngRec) : (modEng s n f).notices = s.notices := rfl
@[simp] theorem modEng_fabric (s : State) (n : Nat) (f : EngRec → EngRec) : (modEng s n f).fabric = s.fabric := rfl
@[simp] theorem modEng_mod (s : State) (n : Nat) (f : EngRec → EngRec) : (modEng s n f).mod = s.mod := rfl
@[simp] theorem modEng_frameNext (s : State) (n : Nat) (f : EngRec → EngRec) : (modEng s n f).frameNext = s.frameNext := rfl
@[simp] theorem modEng_framePool (s : State) (n : Nat) (f : EngRec → EngRec) : (modEng s n f).framePool = s.framePool := rfl
@[simp] theorem modEng_zeroing (s : State) (n : Nat) (f : EngRec → EngRec) : (modEng s n f).zeroing = s.zeroing := rfl
@[simp] theorem modEng_imageNext (s : State) (n : Nat) (f : EngRec → EngRec) : (modEng s n f).imageNext = s.imageNext := rfl
@[simp] theorem modEng_nextId (s : State) (n : Nat) (f : EngRec → EngRec) : (modEng s n f).nextId = s.nextId := rfl
@[simp] theorem modEng_troupe (s : State) (n : Nat) (f : EngRec → EngRec) : (modEng s n f).troupe = s.troupe := rfl
@[simp] theorem modEng_sched (s : State) (n : Nat) (f : EngRec → EngRec) : (modEng s n f).sched = s.sched := rfl
@[simp] theorem modEng_rotation (s : State) (n : Nat) (f : EngRec → EngRec) : (modEng s n f).rotation = s.rotation := rfl
@[simp] theorem modEng_freeCtr (s : State) (n : Nat) (f : EngRec → EngRec) : (modEng s n f).freeCtr = s.freeCtr := rfl
@[simp] theorem modEng_picks (s : State) (n : Nat) (f : EngRec → EngRec) : (modEng s n f).picks = s.picks := rfl
@[simp] theorem modEng_stamp (s : State) (n : Nat) (f : EngRec → EngRec) : (modEng s n f).stamp = s.stamp := rfl

/-! ### modConn -/

@[simp] theorem modConn_thr (s : State) (n : Nat) (f : Conn → Conn) : (modConn s n f).thr = s.thr := rfl
@[simp] theorem modConn_cur (s : State) (n : Nat) (f : Conn → Conn) : (modConn s n f).cur = s.cur := rfl
@[simp] theorem modConn_others (s : State) (n : Nat) (f : Conn → Conn) : (modConn s n f).others = s.others := rfl
@[simp] theorem modConn_teams (s : State) (n : Nat) (f : Conn → Conn) : (modConn s n f).teams = s.teams := rfl
@[simp] theorem modConn_tasks (s : State) (n : Nat) (f : Conn → Conn) : (modConn s n f).tasks = s.tasks := rfl
@[simp] theorem modConn_parts (s : State) (n : Nat) (f : Conn → Conn) : (modConn s n f).parts = s.parts := rfl
@[simp] theorem modConn_curPart (s : State) (n : Nat) (f : Conn → Conn) : (modConn s n f).curPart = s.curPart := rfl
@[simp] theorem modConn_cores (s : State) (n : Nat) (f : Conn → Conn) : (modConn s n f).cores = s.cores := rfl
@[simp] theorem modConn_mem (s : State) (n : Nat) (f : Conn → Conn) : (modConn s n f).mem = s.mem := rfl
@[simp] theorem modConn_poison (s : State) (n : Nat) (f : Conn → Conn) : (modConn s n f).poison = s.poison := rfl
@[simp] theorem modConn_ensembles (s : State) (n : Nat) (f : Conn → Conn) : (modConn s n f).ensembles = s.ensembles := rfl
@[simp] theorem modConn_ensUses (s : State) (n : Nat) (f : Conn → Conn) : (modConn s n f).ensUses = s.ensUses := rfl
@[simp] theorem modConn_ensGens (s : State) (n : Nat) (f : Conn → Conn) : (modConn s n f).ensGens = s.ensGens := rfl
@[simp] theorem modConn_eng (s : State) (n : Nat) (f : Conn → Conn) : (modConn s n f).eng = s.eng := rfl
@[simp] theorem modConn_engLast (s : State) (n : Nat) (f : Conn → Conn) : (modConn s n f).engLast = s.engLast := rfl
@[simp] theorem modConn_frames (s : State) (n : Nat) (f : Conn → Conn) : (modConn s n f).frames = s.frames := rfl
@[simp] theorem modConn_rounds (s : State) (n : Nat) (f : Conn → Conn) : (modConn s n f).rounds = s.rounds := rfl
@[simp] theorem modConn_recs (s : State) (n : Nat) (f : Conn → Conn) : (modConn s n f).recs = s.recs := rfl
@[simp] theorem modConn_images (s : State) (n : Nat) (f : Conn → Conn) : (modConn s n f).images = s.images := rfl
@[simp] theorem modConn_out (s : State) (n : Nat) (f : Conn → Conn) : (modConn s n f).out = s.out := rfl
@[simp] theorem modConn_replicas (s : State) (n : Nat) (f : Conn → Conn) : (modConn s n f).replicas = s.replicas := rfl
@[simp] theorem modConn_notices (s : State) (n : Nat) (f : Conn → Conn) : (modConn s n f).notices = s.notices := rfl
@[simp] theorem modConn_fabric (s : State) (n : Nat) (f : Conn → Conn) : (modConn s n f).fabric = s.fabric := rfl
@[simp] theorem modConn_mod (s : State) (n : Nat) (f : Conn → Conn) : (modConn s n f).mod = s.mod := rfl
@[simp] theorem modConn_frameNext (s : State) (n : Nat) (f : Conn → Conn) : (modConn s n f).frameNext = s.frameNext := rfl
@[simp] theorem modConn_framePool (s : State) (n : Nat) (f : Conn → Conn) : (modConn s n f).framePool = s.framePool := rfl
@[simp] theorem modConn_zeroing (s : State) (n : Nat) (f : Conn → Conn) : (modConn s n f).zeroing = s.zeroing := rfl
@[simp] theorem modConn_imageNext (s : State) (n : Nat) (f : Conn → Conn) : (modConn s n f).imageNext = s.imageNext := rfl
@[simp] theorem modConn_nextId (s : State) (n : Nat) (f : Conn → Conn) : (modConn s n f).nextId = s.nextId := rfl
@[simp] theorem modConn_troupe (s : State) (n : Nat) (f : Conn → Conn) : (modConn s n f).troupe = s.troupe := rfl
@[simp] theorem modConn_sched (s : State) (n : Nat) (f : Conn → Conn) : (modConn s n f).sched = s.sched := rfl
@[simp] theorem modConn_rotation (s : State) (n : Nat) (f : Conn → Conn) : (modConn s n f).rotation = s.rotation := rfl
@[simp] theorem modConn_freeCtr (s : State) (n : Nat) (f : Conn → Conn) : (modConn s n f).freeCtr = s.freeCtr := rfl
@[simp] theorem modConn_picks (s : State) (n : Nat) (f : Conn → Conn) : (modConn s n f).picks = s.picks := rfl
@[simp] theorem modConn_stamp (s : State) (n : Nat) (f : Conn → Conn) : (modConn s n f).stamp = s.stamp := rfl

/-! ### send -/

@[simp] theorem send_thr (s : State) (o : Out) : (send s o).thr = s.thr := rfl
@[simp] theorem send_cur (s : State) (o : Out) : (send s o).cur = s.cur := rfl
@[simp] theorem send_others (s : State) (o : Out) : (send s o).others = s.others := rfl
@[simp] theorem send_teams (s : State) (o : Out) : (send s o).teams = s.teams := rfl
@[simp] theorem send_tasks (s : State) (o : Out) : (send s o).tasks = s.tasks := rfl
@[simp] theorem send_parts (s : State) (o : Out) : (send s o).parts = s.parts := rfl
@[simp] theorem send_curPart (s : State) (o : Out) : (send s o).curPart = s.curPart := rfl
@[simp] theorem send_cores (s : State) (o : Out) : (send s o).cores = s.cores := rfl
@[simp] theorem send_mem (s : State) (o : Out) : (send s o).mem = s.mem := rfl
@[simp] theorem send_poison (s : State) (o : Out) : (send s o).poison = s.poison := rfl
@[simp] theorem send_ensembles (s : State) (o : Out) : (send s o).ensembles = s.ensembles := rfl
@[simp] theorem send_ensUses (s : State) (o : Out) : (send s o).ensUses = s.ensUses := rfl
@[simp] theorem send_ensGens (s : State) (o : Out) : (send s o).ensGens = s.ensGens := rfl
@[simp] theorem send_eng (s : State) (o : Out) : (send s o).eng = s.eng := rfl
@[simp] theorem send_engLast (s : State) (o : Out) : (send s o).engLast = s.engLast := rfl
@[simp] theorem send_frames (s : State) (o : Out) : (send s o).frames = s.frames := rfl
@[simp] theorem send_rounds (s : State) (o : Out) : (send s o).rounds = s.rounds := rfl
@[simp] theorem send_recs (s : State) (o : Out) : (send s o).recs = s.recs := rfl
@[simp] theorem send_images (s : State) (o : Out) : (send s o).images = s.images := rfl
@[simp] theorem send_conns (s : State) (o : Out) : (send s o).conns = s.conns := rfl
@[simp] theorem send_replicas (s : State) (o : Out) : (send s o).replicas = s.replicas := rfl
@[simp] theorem send_notices (s : State) (o : Out) : (send s o).notices = s.notices := rfl
@[simp] theorem send_fabric (s : State) (o : Out) : (send s o).fabric = s.fabric := rfl
@[simp] theorem send_mod (s : State) (o : Out) : (send s o).mod = s.mod := rfl
@[simp] theorem send_frameNext (s : State) (o : Out) : (send s o).frameNext = s.frameNext := rfl
@[simp] theorem send_framePool (s : State) (o : Out) : (send s o).framePool = s.framePool := rfl
@[simp] theorem send_zeroing (s : State) (o : Out) : (send s o).zeroing = s.zeroing := rfl
@[simp] theorem send_imageNext (s : State) (o : Out) : (send s o).imageNext = s.imageNext := rfl
@[simp] theorem send_nextId (s : State) (o : Out) : (send s o).nextId = s.nextId := rfl
@[simp] theorem send_troupe (s : State) (o : Out) : (send s o).troupe = s.troupe := rfl
@[simp] theorem send_sched (s : State) (o : Out) : (send s o).sched = s.sched := rfl
@[simp] theorem send_rotation (s : State) (o : Out) : (send s o).rotation = s.rotation := rfl
@[simp] theorem send_freeCtr (s : State) (o : Out) : (send s o).freeCtr = s.freeCtr := rfl
@[simp] theorem send_picks (s : State) (o : Out) : (send s o).picks = s.picks := rfl
@[simp] theorem send_stamp (s : State) (o : Out) : (send s o).stamp = s.stamp := rfl

/-! ### logError -/

@[simp] theorem logError_thr (s : State) (n : Nat) : (logError s n).thr = s.thr := rfl
@[simp] theorem logError_cur (s : State) (n : Nat) : (logError s n).cur = s.cur := rfl
@[simp] theorem logError_others (s : State) (n : Nat) : (logError s n).others = s.others := rfl
@[simp] theorem logError_teams (s : State) (n : Nat) : (logError s n).teams = s.teams := rfl
@[simp] theorem logError_tasks (s : State) (n : Nat) : (logError s n).tasks = s.tasks := rfl
@[simp] theorem logError_parts (s : State) (n : Nat) : (logError s n).parts = s.parts := rfl
@[simp] theorem logError_curPart (s : State) (n : Nat) : (logError s n).curPart = s.curPart := rfl
@[simp] theorem logError_cores (s : State) (n : Nat) : (logError s n).cores = s.cores := rfl
@[simp] theorem logError_mem (s : State) (n : Nat) : (logError s n).mem = s.mem := rfl
@[simp] theorem logError_poison (s : State) (n : Nat) : (logError s n).poison = s.poison := rfl
@[simp] theorem logError_ensembles (s : State) (n : Nat) : (logError s n).ensembles = s.ensembles := rfl
@[simp] theorem logError_ensUses (s : State) (n : Nat) : (logError s n).ensUses = s.ensUses := rfl
@[simp] theorem logError_ensGens (s : State) (n : Nat) : (logError s n).ensGens = s.ensGens := rfl
@[simp] theorem logError_eng (s : State) (n : Nat) : (logError s n).eng = s.eng := rfl
@[simp] theorem logError_engLast (s : State) (n : Nat) : (logError s n).engLast = s.engLast := rfl
@[simp] theorem logError_frames (s : State) (n : Nat) : (logError s n).frames = s.frames := rfl
@[simp] theorem logError_rounds (s : State) (n : Nat) : (logError s n).rounds = s.rounds := rfl
@[simp] theorem logError_recs (s : State) (n : Nat) : (logError s n).recs = s.recs := rfl
@[simp] theorem logError_images (s : State) (n : Nat) : (logError s n).images = s.images := rfl
@[simp] theorem logError_conns (s : State) (n : Nat) : (logError s n).conns = s.conns := rfl
@[simp] theorem logError_out (s : State) (n : Nat) : (logError s n).out = s.out := rfl
@[simp] theorem logError_replicas (s : State) (n : Nat) : (logError s n).replicas = s.replicas := rfl
@[simp] theorem logError_notices (s : State) (n : Nat) : (logError s n).notices = s.notices := rfl
@[simp] theorem logError_fabric (s : State) (n : Nat) : (logError s n).fabric = s.fabric := rfl
@[simp] theorem logError_frameNext (s : State) (n : Nat) : (logError s n).frameNext = s.frameNext := rfl
@[simp] theorem logError_framePool (s : State) (n : Nat) : (logError s n).framePool = s.framePool := rfl
@[simp] theorem logError_zeroing (s : State) (n : Nat) : (logError s n).zeroing = s.zeroing := rfl
@[simp] theorem logError_imageNext (s : State) (n : Nat) : (logError s n).imageNext = s.imageNext := rfl
@[simp] theorem logError_nextId (s : State) (n : Nat) : (logError s n).nextId = s.nextId := rfl
@[simp] theorem logError_troupe (s : State) (n : Nat) : (logError s n).troupe = s.troupe := rfl
@[simp] theorem logError_sched (s : State) (n : Nat) : (logError s n).sched = s.sched := rfl
@[simp] theorem logError_rotation (s : State) (n : Nat) : (logError s n).rotation = s.rotation := rfl
@[simp] theorem logError_freeCtr (s : State) (n : Nat) : (logError s n).freeCtr = s.freeCtr := rfl
@[simp] theorem logError_picks (s : State) (n : Nat) : (logError s n).picks = s.picks := rfl
@[simp] theorem logError_stamp (s : State) (n : Nat) : (logError s n).stamp = s.stamp := rfl

/-! ### modFw -/

@[simp] theorem modFw_thr (s : State) (n : Nat) (f : FwCore → FwCore) : (modFw s n f).thr = s.thr := rfl
@[simp] theorem modFw_cur (s : State) (n : Nat) (f : FwCore → FwCore) : (modFw s n f).cur = s.cur := rfl
@[simp] theorem modFw_others (s : State) (n : Nat) (f : FwCore → FwCore) : (modFw s n f).others = s.others := rfl
@[simp] theorem modFw_teams (s : State) (n : Nat) (f : FwCore → FwCore) : (modFw s n f).teams = s.teams := rfl
@[simp] theorem modFw_tasks (s : State) (n : Nat) (f : FwCore → FwCore) : (modFw s n f).tasks = s.tasks := rfl
@[simp] theorem modFw_parts (s : State) (n : Nat) (f : FwCore → FwCore) : (modFw s n f).parts = s.parts := rfl
@[simp] theorem modFw_curPart (s : State) (n : Nat) (f : FwCore → FwCore) : (modFw s n f).curPart = s.curPart := rfl
@[simp] theorem modFw_cores (s : State) (n : Nat) (f : FwCore → FwCore) : (modFw s n f).cores = s.cores := rfl
@[simp] theorem modFw_mem (s : State) (n : Nat) (f : FwCore → FwCore) : (modFw s n f).mem = s.mem := rfl
@[simp] theorem modFw_poison (s : State) (n : Nat) (f : FwCore → FwCore) : (modFw s n f).poison = s.poison := rfl
@[simp] theorem modFw_ensembles (s : State) (n : Nat) (f : FwCore → FwCore) : (modFw s n f).ensembles = s.ensembles := rfl
@[simp] theorem modFw_ensUses (s : State) (n : Nat) (f : FwCore → FwCore) : (modFw s n f).ensUses = s.ensUses := rfl
@[simp] theorem modFw_ensGens (s : State) (n : Nat) (f : FwCore → FwCore) : (modFw s n f).ensGens = s.ensGens := rfl
@[simp] theorem modFw_eng (s : State) (n : Nat) (f : FwCore → FwCore) : (modFw s n f).eng = s.eng := rfl
@[simp] theorem modFw_engLast (s : State) (n : Nat) (f : FwCore → FwCore) : (modFw s n f).engLast = s.engLast := rfl
@[simp] theorem modFw_frames (s : State) (n : Nat) (f : FwCore → FwCore) : (modFw s n f).frames = s.frames := rfl
@[simp] theorem modFw_rounds (s : State) (n : Nat) (f : FwCore → FwCore) : (modFw s n f).rounds = s.rounds := rfl
@[simp] theorem modFw_recs (s : State) (n : Nat) (f : FwCore → FwCore) : (modFw s n f).recs = s.recs := rfl
@[simp] theorem modFw_images (s : State) (n : Nat) (f : FwCore → FwCore) : (modFw s n f).images = s.images := rfl
@[simp] theorem modFw_conns (s : State) (n : Nat) (f : FwCore → FwCore) : (modFw s n f).conns = s.conns := rfl
@[simp] theorem modFw_out (s : State) (n : Nat) (f : FwCore → FwCore) : (modFw s n f).out = s.out := rfl
@[simp] theorem modFw_replicas (s : State) (n : Nat) (f : FwCore → FwCore) : (modFw s n f).replicas = s.replicas := rfl
@[simp] theorem modFw_notices (s : State) (n : Nat) (f : FwCore → FwCore) : (modFw s n f).notices = s.notices := rfl
@[simp] theorem modFw_fabric (s : State) (n : Nat) (f : FwCore → FwCore) : (modFw s n f).fabric = s.fabric := rfl
@[simp] theorem modFw_frameNext (s : State) (n : Nat) (f : FwCore → FwCore) : (modFw s n f).frameNext = s.frameNext := rfl
@[simp] theorem modFw_framePool (s : State) (n : Nat) (f : FwCore → FwCore) : (modFw s n f).framePool = s.framePool := rfl
@[simp] theorem modFw_zeroing (s : State) (n : Nat) (f : FwCore → FwCore) : (modFw s n f).zeroing = s.zeroing := rfl
@[simp] theorem modFw_imageNext (s : State) (n : Nat) (f : FwCore → FwCore) : (modFw s n f).imageNext = s.imageNext := rfl
@[simp] theorem modFw_nextId (s : State) (n : Nat) (f : FwCore → FwCore) : (modFw s n f).nextId = s.nextId := rfl
@[simp] theorem modFw_troupe (s : State) (n : Nat) (f : FwCore → FwCore) : (modFw s n f).troupe = s.troupe := rfl
@[simp] theorem modFw_sched (s : State) (n : Nat) (f : FwCore → FwCore) : (modFw s n f).sched = s.sched := rfl
@[simp] theorem modFw_rotation (s : State) (n : Nat) (f : FwCore → FwCore) : (modFw s n f).rotation = s.rotation := rfl
@[simp] theorem modFw_freeCtr (s : State) (n : Nat) (f : FwCore → FwCore) : (modFw s n f).freeCtr = s.freeCtr := rfl
@[simp] theorem modFw_picks (s : State) (n : Nat) (f : FwCore → FwCore) : (modFw s n f).picks = s.picks := rfl
@[simp] theorem modFw_stamp (s : State) (n : Nat) (f : FwCore → FwCore) : (modFw s n f).stamp = s.stamp := rfl

/-! ### What each update changes -/

@[simp] theorem modThr_thr (s : State) (f : Thread → Thread) : (modThr s f).thr = f s.thr := rfl
@[simp] theorem mapThreads_thr (s : State) (f : Thread → Thread) : (mapThreads s f).thr = f s.thr := rfl
@[simp] theorem mapThreads_others (s : State) (f : Thread → Thread) : (mapThreads s f).others = s.others.map f := rfl
@[simp] theorem modTid_thr (s : State) (n : Nat) (f : Thread → Thread) : (modTid s n f).thr = if s.thr.tid == n then f s.thr else s.thr := rfl
@[simp] theorem send_out (s : State) (o : Out) : (send s o).out = s.out ++ [o] := rfl

theorem nth_modNth {α : Type} {n : Nat} (v : Vector α n) (i j : Nat) (f : α → α) (d : α) :
    nth (modNth v i f) j d = if i = j ∧ i < n then f (nth v i d) else nth v j d := by
  unfold modNth nth
  by_cases h : i < n
  · simp only [Vector.getElem?_eq_getElem h]
    by_cases e : i = j
    · subst e; simp [h]
    · simp [e, Vector.getElem?_setIfInBounds]
  · have : v[i]? = none := by simp; omega
    simp [this, h]

@[simp] theorem part_modPart (s : State) (p : Nat) (f : Partition → Partition) (h : p < 8) : (modPart s p f).part p = f (s.part p) := by
  simp [State.part, modPart, nth_modNth, h]

theorem part_modPart_ne (s : State) {p q : Nat} (f : Partition → Partition) (h : p ≠ q) : (modPart s p f).part q = s.part q := by
  simp [State.part, modPart, nth_modNth, h]

@[simp] theorem core_modCore (s : State) (c : Nat) (f : Core → Core) (h : c < 192) : (modCore s c f).core c = f (s.core c) := by
  simp [State.core, modCore, nth_modNth, h]

theorem core_modCore_ne (s : State) {c d : Nat} (f : Core → Core) (h : c ≠ d) : (modCore s c f).core d = s.core d := by
  simp [State.core, modCore, nth_modNth, h]

@[simp] theorem part_modThr (s : State) (f : Thread → Thread) (p : Nat) : (modThr s f).part p = s.part p := rfl
@[simp] theorem core_modThr (s : State) (f : Thread → Thread) (c : Nat) : (modThr s f).core c = s.core c := rfl
@[simp] theorem findTeam_modThr (s : State) (f : Thread → Thread) (n : Nat) : findTeam (modThr s f) n = findTeam s n := rfl
@[simp] theorem findTask_modThr (s : State) (f : Thread → Thread) (n : Nat) : findTask (modThr s f) n = findTask s n := rfl
@[simp] theorem modThr_id (s : State) : modThr s (fun t => t) = s := rfl
@[simp] theorem modThr_modThr (s : State) (f g : Thread → Thread) : modThr (modThr s f) g = modThr s fun t => g (f t) := rfl

end Sys2Proof.Machine
end

