-- ==== Sys2Proof/Laws/Cue.lean ====
section
/-!
SUPPORT. The decision of a partition under its updates, and what a cue operation within its budget does.
-/

namespace Sys2Proof.Machine

theorem modNth_ge {α : Type} {n : Nat} (v : Vector α n) (i : Nat) (f : α → α) (h : n ≤ i) : modNth v i f = v := by simp [modNth, h]

/-- Two updates of one partition are one. -/
theorem modPart_modPart (s : State) (p : Nat) (f g : Partition → Partition) : modPart (modPart s p f) p g = modPart s p fun q => g (f q) := by
  by_cases h : p < 8
  · simp [modPart, modNth, h]
  · simp only [modPart, modNth_ge _ _ _ (Nat.le_of_not_lt h)]

@[simp] theorem run_modRun (s : State) (f : CueRun → CueRun) (h : s.curPart < 8) : (modRun s f).run = f s.run := by
  show ((modPart s s.curPart _).part s.curPart).run = _
  rw [part_modPart s _ _ h]
  rfl

theorem modRun_modRun (s : State) (f g : CueRun → CueRun) : modRun (modRun s f) g = modRun s fun r => g (f r) := modPart_modPart s _ _ _

/-- An operation of an active decision within its budget runs after its cost is counted (R249). -/
theorem cueOp_runs {s : State} (cost spent steps : Nat) (k : State → State) (ha : s.run.active = true) (hs : s.run.steps < 256)
    (hc : s.run.cycles + cost ≤ 512) :
    cueOp s cost spent steps k = .next (k (modRun s fun r => { r with steps := r.steps + steps, cycles := r.cycles + spent })) := by
  unfold cueOp
  rw [if_neg (by simp [ha]), if_neg (by simp; omega)]

end Sys2Proof.Machine
end

