-- ==== Sys2Proof/Laws/Issue.lean ====
section
/-!
SUPPORT. What completing, jumping, stalling and writing a register do, once for all the meanings that share them.
-/

namespace Sys2Proof.Machine

/-! ### The streams of a thread -/

@[simp] theorem Thread.st_setSt (t : Thread) (st : Stream) (x : StreamState) : (t.setSt st x).st st = x := by
  cases st <;> rfl

@[simp] theorem Thread.st_setSt_other (t : Thread) (st : Stream) (x : StreamState) :
    (t.setSt st x).st (otherStream st) = t.st (otherStream st) := by
  cases st <;> rfl

@[simp] theorem Thread.st_modSt (t : Thread) (st : Stream) (f : StreamState → StreamState) : (t.modSt st f).st st = f (t.st st) := by
  cases st <;> rfl

@[simp] theorem Thread.st_modSt_other (t : Thread) (st : Stream) (f : StreamState → StreamState) :
    (t.modSt st f).st (otherStream st) = t.st (otherStream st) := by
  cases st <;> rfl

@[simp] theorem bump_st (t : Thread) (c n : Nat) (st : Stream) : (bump t c n).st st = t.st st := by cases st <;> rfl

@[simp] theorem issued_st (t : Thread) (st : Stream) : (t.issued st).st st = { t.st st with stall := .no } := by cases st <;> rfl

@[simp] theorem issued_st_other (t : Thread) (st : Stream) : (t.issued st).st (otherStream st) = { t.st (otherStream st) with stall := .no } := by
  cases st <;> rfl

theorem complete_outside (x : State) (n : Nat) : complete x n = { x with thr := x.thr.advance x.cur n } := rfl

/-! ### Completing -/

/-- What the loop check may change: the stream's pc, levels and order, and the rotation with its predicates. -/
structure LoopMoves (st : Stream) (a b : Thread) : Prop where
  thread : b = { a with ex := b.ex, ax := b.ax, vbase := b.vbase, pbase := b.pbase, p := b.p, loopP := b.loopP }
  other : b.st (otherStream st) = a.st (otherStream st)
  issuing : b.st st = { a.st st with pc := (b.st st).pc, loops := (b.st st).loops, order := (b.st st).order }

theorem loopMoves_trans {st : Stream} {a b c : Thread} (h : LoopMoves st a b) (k : LoopMoves st b c) : LoopMoves st a c := by
  refine ⟨?_, k.other.trans h.other, ?_⟩
  · rw [k.thread, h.thread]
  · rw [k.issuing, h.issuing]

theorem loopMoves_modSt (st : Stream) (t : Thread) (f : StreamState → StreamState)
    (h : f (t.st st) = { t.st st with pc := (f (t.st st)).pc, loops := (f (t.st st)).loops, order := (f (t.st st)).order }) :
    LoopMoves st t (t.modSt st f) := by
  refine ⟨by cases st <;> rfl, by simp, by simpa using h⟩

theorem loopMoves_rotate (t : Thread) : LoopMoves .execute t (rotate t) := ⟨rfl, rfl, rfl⟩

theorem loopMoves_writeP (t : Thread) (p : Nat) (b : Bool) : LoopMoves .execute t (loopWriteP t p b) := by
  unfold loopWriteP writeP
  split
  · split <;> exact ⟨rfl, rfl, rfl⟩
  · exact ⟨rfl, rfl, rfl⟩

theorem loopCheck_moves (st : Stream) (last next : Word) (ls : List Nat) (t : Thread) : LoopMoves st t (loopCheck t st last next ls) := by
  induction ls generalizing t with
  | nil => exact loopMoves_modSt st t _ rfl
  | cons l rest ih =>
    unfold loopCheck
    simp only []
    split
    · split
      · cases st with
        | access => exact loopMoves_modSt .access t _ rfl
        | execute =>
          have h1 := loopMoves_modSt .execute t (fun x => { setLoop x l { getLoop (t.st .execute) l with lc := (getLoop (t.st .execute) l).lc - 1 } with
            pc := (getLoop (t.st .execute) l).start }) rfl
          simp only []
          split
          · exact loopMoves_trans h1 (loopMoves_rotate _)
          · exact loopMoves_trans h1 (loopMoves_trans (loopMoves_rotate _) (loopMoves_writeP _ _ _))
      · exact loopMoves_trans (loopMoves_modSt st t _ rfl) (ih _)
    · exact ih t

theorem loopCheck_straight (st : Stream) (last next : Word) (ls : List Nat) (t : Thread)
    (h : ∀ l ∈ ls, (getLoop (t.st st) l).active = true → (getLoop (t.st st) l).endA ≠ last) :
    loopCheck t st last next ls = t.modSt st fun x => { x with pc := next } := by
  induction ls with
  | nil => rfl
  | cons l rest ih =>
    unfold loopCheck
    have hl := h l (by simp)
    have hn : ((getLoop (t.st st) l).active && (getLoop (t.st st) l).endA == last) = false := by
      cases ha : (getLoop (t.st st) l).active
      · rfl
      · simpa using hl ha
    simp only [hn]
    exact ih fun k hk => h k (by simp [hk])

theorem advance_eq (t : Thread) (st : Stream) (n : Nat) : t.advance st n =
    loopCheck (t.issued st) st ((t.st st).pc + BitVec.ofNat 64 (4 * (n - 1))) ((t.st st).pc + BitVec.ofNat 64 (4 * n)) (t.st st).order := by
  cases st <;> rfl

theorem issued_fields (t : Thread) (st : Stream) : t.issued st =
    { t with ex := (t.issued st).ex, ax := (t.issued st).ax, stallCount := 0, stepping := none
             sys := { t.sys with pcnt := (t.issued st).sys.pcnt } } := by
  cases st <;> rfl

theorem advance_moves (t : Thread) (st : Stream) (n : Nat) : LoopMoves st (t.issued st) (t.advance st n) := by
  rw [advance_eq]; exact loopCheck_moves ..

theorem advance_fields (t : Thread) (st : Stream) (n : Nat) : t.advance st n =
    { t with ex := (t.advance st n).ex, ax := (t.advance st n).ax, stallCount := 0, stepping := none, vbase := (t.advance st n).vbase
             pbase := (t.advance st n).pbase, p := (t.advance st n).p, loopP := (t.advance st n).loopP
             sys := { t.sys with pcnt := (t.advance st n).sys.pcnt } } := by
  have h := (advance_moves t st n).thread
  have hs : (t.advance st n).sys = (t.issued st).sys := by rw [h]
  rw [issued_fields] at h
  rw [hs]
  conv => lhs; rw [h]

theorem advance_straight (t : Thread) (st : Stream) (n : Nat)
    (h : ∀ l ∈ (t.st st).order, (getLoop (t.st st) l).active = true → (getLoop (t.st st) l).endA ≠ (t.st st).pc + BitVec.ofNat 64 (4 * (n - 1))) :
    t.advance st n = (t.issued st).modSt st fun x => { x with pc := (t.st st).pc + BitVec.ofNat 64 (4 * n) } := by
  rw [advance_eq]
  exact loopCheck_straight _ _ _ _ _ (by simpa [getLoop] using h)

/-- Completing does what Completed says. -/
theorem complete_completed (x : State) (n : Nat) : Completed x (complete x n) n := by
  have hm := advance_moves x.thr x.cur n
  refine ⟨rfl, rfl, fun _ => rfl, advance_fields .., ?_, ?_, ?_⟩
  · exact hm.other.trans (issued_st_other ..)
  · have h := hm.issuing
    simp only [issued_st] at h
    exact h
  · intro h
    have hs := advance_straight x.thr x.cur n h
    refine ⟨?_, ?_, ?_, ?_, ?_⟩
    · show (x.thr.advance x.cur n).st x.cur = _
      rw [hs]; simp [State.stream, State.pc]
    · show (x.thr.advance x.cur n).vbase = _
      rw [hs]; cases x.cur <;> rfl
    · show (x.thr.advance x.cur n).pbase = _
      rw [hs]; cases x.cur <;> rfl
    · show (x.thr.advance x.cur n).p = _
      rw [hs]; cases x.cur <;> rfl
    · show (x.thr.advance x.cur n).loopP = _
      rw [hs]; cases x.cur <;> rfl

/-- An instruction that completes with effect x. -/
theorem completes_of {i : Instr} {s x : State} {n : Nat} (h : exec i s = .next (complete x n)) : Completes i s x n :=
  ⟨_, h, complete_completed x n⟩

/-! ### Transferring control, stalling -/

theorem transfer_fields (t : Thread) (st : Stream) (f : StreamState → StreamState) : (t.issued st).modSt st f =
    { t with ex := ((t.issued st).modSt st f).ex, ax := ((t.issued st).modSt st f).ax, stallCount := 0, stepping := none
             sys := { t.sys with pcnt := ((t.issued st).modSt st f).sys.pcnt } } := by
  cases st <;> rfl

theorem bump_fields (t : Thread) (st : Stream) (f : StreamState → StreamState) (c n m : Nat) :
    { bump (t.modSt st f) c n with stallCount := m } =
    { t with ex := (t.modSt st f).ex, ax := (t.modSt st f).ax, stallCount := m
             sys := { t.sys with pcnt := (bump (t.modSt st f) c n).sys.pcnt } } := by
  cases st <;> rfl

theorem transfer_jumped (x : State) (a : Word) : Jumped x (transfer x a) a := by
  refine ⟨rfl, rfl, fun _ => rfl, ?_, ?_, ?_⟩
  · exact transfer_fields x.thr x.cur (fun y => { y with pc := a })
  · simp [transfer]
  · simp [transfer, State.stream]

theorem jumps_of {i : Instr} {s x : State} {a : Word} (h : exec i s = .next (transfer x a)) : Jumps i s x a :=
  ⟨_, h, transfer_jumped x a⟩

@[simp] theorem stall_cur (s : State) (k : Stall) : (stall s k).cur = s.cur := rfl

theorem stall_stalled (s : State) (k : Stall) : Stalled s (stall s k) k := by
  refine ⟨rfl, rfl, fun _ => rfl, ?_, ?_, ?_⟩
  · cases h : s.cur <;> simp only [stall, h, Thread.modSt, Thread.setSt, Thread.st]
  · simp [stall]
  · simp [stall, State.stream]

theorem stalls_of {i : Instr} {s : State} {k : Stall} (h : exec i s = .next (stall s k)) : Stalls i s k :=
  ⟨_, h, stall_stalled s k⟩

/-! ### Interlocks and registers -/

theorem withRegs_ready {s : State} {rs : List Reg} (h : Ready s rs) (k : State → State) : withRegs s rs k = k s := by
  unfold withRegs
  rw [if_neg]
  simpa [Ready] using h

theorem withRegs_waiting {s : State} {rs : List Reg} (h : Waiting s rs) (k : State → State) : withRegs s rs k = stall s .other := by
  unfold withRegs
  rw [if_pos]
  simpa [Waiting] using h

theorem Completed.g {x t : State} {n : Nat} (h : Completed x t n) : t.thr.g = x.thr.g := by rw [h.thread]
theorem Completed.gi {x t : State} {n : Nat} (h : Completed x t n) : t.thr.gi = x.thr.gi := by rw [h.thread]
theorem Completed.h {x t : State} {n : Nat} (h : Completed x t n) : t.thr.h = x.thr.h := by rw [h.thread]
theorem Completed.tstat {x t : State} {n : Nat} (h : Completed x t n) : t.thr.sys.tstat = x.thr.sys.tstat := by rw [h.thread]
theorem Completed.cur {x t : State} {n : Nat} (h : Completed x t n) : t.cur = x.cur := by rw [h.outside]

theorem Completed.readG {x t : State} {n : Nat} (h : Completed x t n) (r : Nat) : readG t.thr r = readG x.thr r := by
  unfold Machine.readG Thread.irqBank; rw [h.g, h.gi, h.tstat]

theorem Completed.readH {x t : State} {n : Nat} (h : Completed x t n) (r : Nat) : readH t.thr r = readH x.thr r := by
  simp only [Machine.readH, h.h]

theorem Completed.readReg {x t : State} {n : Nat} (h : Completed x t n) (r : Reg) : readReg t r = readReg x r := by
  simp only [Machine.readReg, h.cur]
  cases x.cur
  · exact h.readG _
  · exact h.readH _

@[simp] theorem writeReg_cur (s : State) (d : Reg) (v : Word) : (writeReg s d v).cur = s.cur := by
  unfold writeReg; cases s.cur <;> rfl

@[simp] theorem nth_upd_self {α : Type} {n : Nat} (v : Vector α n) (i : Nat) (x d : α) (h : i < n) : nth (upd v i x) i d = x := by
  simp [nth, upd, h]

theorem nth_upd_ne {α : Type} {n : Nat} (v : Vector α n) (i j : Nat) (x d : α) (h : i ≠ j) : nth (upd v i x) j d = nth v j d := by
  simp [nth, upd, h]

@[simp] theorem writeG_irqBank (t : Thread) (r : Nat) (v : Word) : (writeG t r v).irqBank = t.irqBank := by
  unfold writeG; split
  · rfl
  · split <;> rfl

theorem writeG_gi (t : Thread) (r : Nat) (v : Word) : (writeG t r v).gi = if r ≠ 0 ∧ 24 ≤ r ∧ t.irqBank = true then upd t.gi (r - 24) v else t.gi := by
  unfold writeG; split
  · simp_all
  · split <;> simp_all

theorem writeG_g (t : Thread) (r : Nat) (v : Word) : (writeG t r v).g = if r ≠ 0 ∧ ¬ (24 ≤ r ∧ t.irqBank = true) then upd t.g r v else t.g := by
  unfold writeG; split
  · simp_all
  · split <;> simp_all

theorem readG_writeG (t : Thread) (r k : Nat) (v : Word) (hr : r < 32) :
    readG (writeG t r v) k = if k = 0 then 0 else if k = r then v else readG t k := by
  unfold readG
  rw [writeG_irqBank, writeG_gi, writeG_g]
  by_cases hk : k = 0
  · simp [hk]
  by_cases hkr : k = r
  · subst hkr
    cases hb : t.irqBank
    · simp [hk, nth_upd_self, hr]
    · by_cases h24 : 24 ≤ k
      · simp [hk, h24, nth_upd_self, show k - 24 < 8 by omega]
      · simp [hk, h24, nth_upd_self, hr]
  · simp only [hk, hkr, beq_iff_eq, if_false]
    split
    · split
      · rw [nth_upd_ne]; simp_all; omega
      · rfl
    · split
      · rw [nth_upd_ne]; omega
      · rfl

theorem readH_writeH (t : Thread) (r k : Nat) (v : Word) :
    readH (writeH t r v) k = if k = 0 then 0 else if k = r ∧ r < 16 then v else readH t k := by
  unfold readH writeH
  by_cases hk : k = 0
  · simp [hk]
  by_cases h0 : r = 0
  · subst h0; simp [hk]
  by_cases hkr : k = r
  · subst hkr
    by_cases h16 : k < 16
    · simp [hk, h16]
    · simp [hk, h16, nth, upd]
  · simp [hk, h0, hkr, nth_upd_ne _ _ _ _ _ (Ne.symm hkr)]

theorem readReg_writeReg (s : State) (d r : Reg) (v : Word) (h : s.cur = .access → d.toNat < 16) :
    readReg (writeReg s d v) r = if r = 0 then 0 else if r = d then v else readReg s r := by
  have e0 : (r.toNat = 0) ↔ r = 0 := by
    constructor
    · intro h; exact BitVec.eq_of_toNat_eq (by simpa using h)
    · intro h; simp [h]
  have ed : (r.toNat = d.toNat) ↔ r = d := BitVec.toNat_eq.symm
  unfold readReg
  rw [writeReg_cur]
  cases hc : s.cur
  · simp only [writeReg, hc]
    rw [readG_writeG _ _ _ _ d.isLt]
    simp only [e0, ed]
  · simp only [writeReg, hc]
    rw [readH_writeH]
    simp only [e0, ed, h hc, and_true]

theorem readReg_writeReg_ne (s : State) (d r : Reg) (v : Word) (h : r ≠ d) : readReg (writeReg s d v) r = readReg s r := by
  have hn : r.toNat ≠ d.toNat := fun e => h (BitVec.eq_of_toNat_eq e)
  unfold readReg
  rw [writeReg_cur]
  cases hc : s.cur
  · simp only [writeReg, hc]
    rw [readG_writeG _ _ _ _ d.isLt]
    simp only [hn, if_false]
    split
    · rename_i h0; simp [readG, h0]
    · rfl
  · simp only [writeReg, hc]
    rw [readH_writeH]
    simp only [hn, false_and, if_false]
    split
    · rename_i h0; simp [readH, h0]
    · rfl

theorem readReg_zero (s : State) : readReg s 0 = 0 := by
  unfold readReg; cases s.cur <;> rfl

/-- Writing a register and completing does what Wrote says. -/
theorem writeReg_wrote (s : State) (d : Reg) (v : Word) : Wrote s (complete (writeReg s d v)) d v := by
  have h := complete_completed (writeReg s d v) 1
  have hm : (writeReg s d v).mem = s.mem := by unfold writeReg; cases s.cur <;> rfl
  refine ⟨h, ?_, readReg_zero _, ?_, ?_, ?_, ?_⟩
  · intro hd hr
    rw [h.readReg, readReg_writeReg _ _ _ _ (by intro hc; simpa [hc] using hr)]
    rw [if_neg hd, if_pos rfl]
  · intro r hr
    rw [h.readReg, readReg_writeReg_ne _ _ _ _ hr]
  · intro hc
    rw [h.g, h.gi]
    simp only [writeReg, hc, writeH]
    split <;> exact ⟨rfl, rfl⟩
  · intro hc
    rw [h.h]
    simp only [writeReg, hc, writeG]
    split
    · rfl
    · split <;> rfl
  · intro a; rw [h.memory, hm]

theorem writes_of {i : Instr} {s : State} {d : Reg} {v : Word} (h : exec i s = .next (complete (writeReg s d v))) : Writes i s d v :=
  ⟨_, h, writeReg_wrote s d v⟩

end Sys2Proof.Machine
end

