-- ==== Sys2Proof/Laws/Engines.lean ====
section
/-!
SUPPORT. What issuing an engine instruction of two words does, once for the vector and the matrix families.
-/

namespace Sys2Proof.Machine

/-- With its tests passed, its registers ready and room in the queue, the command joins the queue and the instruction completes. -/
theorem issueEngine_queues {s : State} {mk : Wide → Instr} {k : Kinds} {f : Wide} {qx : Bool} {push : Cmd → Thread → Thread}
    (hl : atLoopEnd s = false) (ha : allAllocated s.thr k (rename s.thr k f) = true) (hq : (qx && !Config.nClass (s.thr.core / 16)) = false)
    (hr : Ready s (gRegs k f)) :
    issueEngine s mk k f qx true none true push
      = complete (modThr { s with stamp := s.stamp + 1 } fun t => push (newCmd s mk k f) { t with cmdix := t.cmdix + 1 }) 2 := by
  simp [issueEngine, hl, ha, hq, withRegs_ready hr]

/-- With its queue full it stalls. -/
theorem issueEngine_full {s : State} {mk : Wide → Instr} {k : Kinds} {f : Wide} {qx : Bool} {push : Cmd → Thread → Thread}
    (hl : atLoopEnd s = false) (ha : allAllocated s.thr k (rename s.thr k f) = true) (hq : (qx && !Config.nClass (s.thr.core / 16)) = false)
    (hr : Ready s (gRegs k f)) : issueEngine s mk k f qx true none false push = stall s .listed := by
  simp [issueEngine, hl, ha, hq, withRegs_ready hr]

/-- An operation that faults at issue raises its cause once its formats are accepted. -/
theorem issueEngine_faults {s : State} {mk : Wide → Instr} {k : Kinds} {f : Wide} {qx room : Bool} {push : Cmd → Thread → Thread} {c : Byte}
    {ta : Word} (hl : atLoopEnd s = false) (ha : allAllocated s.thr k (rename s.thr k f) = true)
    (hq : (qx && !Config.nClass (s.thr.core / 16)) = false) (hr : Ready s (gRegs k f)) :
    issueEngine s mk k f qx true (some (c, ta)) room push = raiseHere s c ta := by
  simp [issueEngine, hl, ha, hq, withRegs_ready hr]

end Sys2Proof.Machine
end

