-- ==== Sys2Proof/Laws/Memory.lean ====
section
/-!
SUPPORT. Sparse byte arrays: what is written is read back, everything else stays, and the canonical form is kept, by every
operation that writes memory.
-/

namespace Sys2Proof.Machine

/-! ### One byte -/

theorem cellsFrom_mono {lo lo' : Nat} {m : Cells} (h : lo ≤ lo') (w : cellsFrom lo' m = true) : cellsFrom lo m = true := by
  cases m with
  | nil => rfl
  | cons c r =>
    simp only [cellsFrom, Bool.and_eq_true, decide_eq_true_eq] at w ⊢
    exact ⟨⟨by omega, w.1.2⟩, w.2⟩

theorem cellsFrom_setCell {lo a : Nat} (m : Cells) (x : Byte) (w : cellsFrom lo m = true) (h : lo ≤ a) : cellsFrom lo (setCell m a x) = true := by
  induction m generalizing lo with
  | nil =>
    unfold setCell
    split
    · rfl
    · rename_i hx; simp [cellsFrom, h]; simpa using hx
  | cons c r ih =>
    obtain ⟨k, v⟩ := c
    simp only [cellsFrom, Bool.and_eq_true, decide_eq_true_eq] at w
    obtain ⟨⟨hk, hv⟩, hr⟩ := w
    unfold setCell
    split
    · rename_i e
      have e : k = a := by simpa using e
      subst e
      split
      · exact cellsFrom_mono (by omega) hr
      · rename_i hx; simp only [cellsFrom, Bool.and_eq_true, decide_eq_true_eq]
        exact ⟨⟨h, by simpa using hx⟩, hr⟩
    · rename_i e
      have e : k ≠ a := by simpa using e
      split
      · split
        · simp only [cellsFrom, Bool.and_eq_true, decide_eq_true_eq]; exact ⟨⟨hk, hv⟩, hr⟩
        · rename_i lt hx; simp only [cellsFrom, Bool.and_eq_true, decide_eq_true_eq]
          exact ⟨⟨h, by simpa using hx⟩, ⟨⟨lt, hv⟩, hr⟩⟩
      · rename_i nlt
        simp only [cellsFrom, Bool.and_eq_true, decide_eq_true_eq]
        exact ⟨⟨hk, hv⟩, ih hr (by omega)⟩

theorem getCell_below {lo a : Nat} {m : Cells} (w : cellsFrom lo m = true) (h : a < lo) : getCell m a = 0 := by
  cases m with
  | nil => rfl
  | cons c r =>
    simp only [cellsFrom, Bool.and_eq_true, decide_eq_true_eq] at w
    unfold getCell
    rw [if_neg (by simp; omega), if_pos (by omega)]

theorem getCell_setCell_from {lo : Nat} (m : Cells) (a : Nat) (x : Byte) (w : cellsFrom lo m = true) (b : Nat) :
    getCell (setCell m a x) b = if b = a then x else getCell m b := by
  induction m generalizing lo with
  | nil =>
    unfold setCell
    by_cases hx : x = 0
    · simp [hx, getCell]
    · simp only [beq_iff_eq, hx, ↓reduceIte, getCell]
      by_cases hb : b = a
      · simp [hb]
      · simp [hb, Ne.symm hb]
  | cons c r ih =>
    obtain ⟨k, v⟩ := c
    simp only [cellsFrom, Bool.and_eq_true, decide_eq_true_eq] at w
    obtain ⟨⟨_, _⟩, hr⟩ := w
    have below : ∀ q, q ≤ k → getCell r q = 0 := fun q hq => getCell_below hr (by omega)
    have ih := ih hr
    unfold setCell
    by_cases e : k = a
    · subst e
      by_cases hx : x = 0
      · simp only [beq_self_eq_true, ↓reduceIte, hx, getCell]
        by_cases hb : b = k
        · simp [hb, below k (Nat.le_refl _)]
        · simp only [beq_iff_eq, Ne.symm hb, hb, ↓reduceIte]
          split
          · exact below b (by omega)
          · rfl
      · simp only [beq_self_eq_true, ↓reduceIte, beq_iff_eq, hx, getCell]
        by_cases hb : b = k
        · simp [hb]
        · simp [hb, Ne.symm hb]
    · simp only [beq_iff_eq, e, ↓reduceIte]
      by_cases lt : a < k
      · simp only [lt, ↓reduceIte]
        by_cases hx : x = 0
        · simp only [hx, ↓reduceIte]
          by_cases hb : b = a
          · simp [hb, getCell, e, lt]
          · simp [hb]
        · simp only [hx, ↓reduceIte]
          by_cases hb : b = a
          · simp [hb, getCell]
          · simp only [hb, ↓reduceIte]
            rw [getCell]
            simp only [beq_iff_eq, Ne.symm hb, ↓reduceIte]
            split
            · rw [getCell]; simp only [beq_iff_eq]
              rw [if_neg (by omega), if_pos (by omega)]
            · rfl
      · simp only [lt, ↓reduceIte]
        rw [getCell, getCell]
        by_cases hk : k = b
        · subst hk; simp [e]
        · simp only [beq_iff_eq, hk, ↓reduceIte]
          by_cases hb : b < k
          · simp only [hb, ↓reduceIte]; rw [if_neg (by omega)]
          · simp only [hb, ↓reduceIte]; exact ih

theorem wf_setCell {m : Cells} (w : Memory.wf m = true) (a : Nat) (x : Byte) : Memory.wf (setCell m a x) = true :=
  cellsFrom_setCell m x w (Nat.zero_le a)

theorem getCell_setCell {m : Cells} (w : Memory.wf m = true) (a : Nat) (x : Byte) (b : Nat) :
    getCell (setCell m a x) b = if b = a then x else getCell m b := getCell_setCell_from m a x w b

/-! ### Ranges -/

theorem wf_setCells {m : Cells} (w : Memory.wf m = true) (a : Nat) (bs : List Byte) : Memory.wf (setCells m a bs) = true := by
  induction bs generalizing m a with
  | nil => exact w
  | cons b r ih => exact ih (wf_setCell w a b) (a + 1)

theorem getCell_setCells {m : Cells} (w : Memory.wf m = true) (a : Nat) (bs : List Byte) (q : Nat) :
    getCell (setCells m a bs) q = if a ≤ q ∧ q < a + bs.length then bs.getD (q - a) 0 else getCell m q := by
  induction bs generalizing m a with
  | nil => rw [setCells, List.length_nil, if_neg (by omega)]
  | cons b r ih =>
    rw [setCells, ih (wf_setCell w a b), getCell_setCell w]
    simp only [List.length_cons]
    by_cases h1 : q = a
    · subst h1
      rw [if_neg (by omega), if_pos rfl, if_pos (by omega)]; simp
    · by_cases h2 : a + 1 ≤ q ∧ q < a + 1 + r.length
      · rw [if_pos h2, if_pos (by omega)]
        obtain ⟨k, hk⟩ : ∃ k, q - a = k + 1 := ⟨q - a - 1, by omega⟩
        rw [hk, show q - (a + 1) = k by omega]; simp
      · rw [if_neg h2, if_neg h1, if_neg (by omega)]

theorem getCell_setCells_ne {m : Cells} (w : Memory.wf m = true) {a : Nat} {bs : List Byte} {q : Nat} (h : q < a ∨ a + bs.length ≤ q) :
    getCell (setCells m a bs) q = getCell m q := by
  rw [getCell_setCells w, if_neg (by omega)]

theorem getCells_length (m : Cells) (a n : Nat) : (getCells m a n).length = n := by simp [getCells]

theorem getCells_setCells {m : Cells} (w : Memory.wf m = true) (a : Nat) (bs : List Byte) : getCells (setCells m a bs) a bs.length = bs := by
  apply List.ext_getElem
  · simp [getCells]
  · intro i h1 h2
    simp only [getCells, List.getElem_map, List.getElem_range]
    rw [getCell_setCells w, if_pos (by omega)]
    simp [show a + i - a = i by omega, h2]

theorem wf_filter {m : Cells} (w : Memory.wf m = true) (p : Nat × Byte → Bool) : Memory.wf (m.filter p) = true := by
  have aux : ∀ (lo : Nat) (m : Cells), cellsFrom lo m = true → cellsFrom lo (m.filter p) = true := by
    intro lo m
    induction m generalizing lo with
    | nil => exact id
    | cons c r ih =>
      intro w
      simp only [cellsFrom, Bool.and_eq_true, decide_eq_true_eq] at w
      rw [List.filter_cons]
      split
      · simp only [cellsFrom, Bool.and_eq_true, decide_eq_true_eq]; exact ⟨w.1, ih _ w.2⟩
      · exact cellsFrom_mono (by omega) (ih _ w.2)
  exact aux 0 m w

theorem wf_foldl_setCell {α : Type} (f : α → Nat) (g : α → Byte) (l : List α) {m : Cells} (w : Memory.wf m = true) :
    Memory.wf (l.foldl (fun m c => setCell m (f c) (g c)) m) = true := by
  induction l generalizing m with
  | nil => exact w
  | cons c r ih => exact ih (wf_setCell w _ _)

theorem wf_foldl_setCells {α : Type} (f : α → Nat) (g : α → List Byte) (l : List α) {m : Cells} (w : Memory.wf m = true) :
    Memory.wf (l.foldl (fun m c => setCells m (f c) (g c)) m) = true := by
  induction l generalizing m with
  | nil => exact w
  | cons c r ih => exact ih (wf_setCells w _ _)

/-! ### Numbers -/

theorem leBytes_length (n v : Nat) : (leBytes n v).length = n := by
  induction n generalizing v with
  | zero => rfl
  | succ n ih => simp [leBytes, ih]

theorem leNat_leBytes (n v : Nat) : leNat (leBytes n v) = v % 2 ^ (8 * n) := by
  induction n generalizing v with
  | zero => simp [leBytes, leNat, Nat.mod_one]
  | succ n ih =>
    simp only [leBytes, leNat, ih, BitVec.toNat_ofNat]
    have h := Nat.mod_mul (x := v) (a := 256) (b := 2 ^ (8 * n))
    rw [show 2 ^ (8 * (n + 1)) = 256 * 2 ^ (8 * n) by rw [show 8 * (n + 1) = 8 + 8 * n by omega, Nat.pow_add]]
    rw [h]

theorem leNat_lt (bs : List Byte) : leNat bs < 2 ^ (8 * bs.length) := by
  induction bs with
  | nil => simp [leNat]
  | cons b r ih =>
    have hb := b.isLt
    rw [leNat, List.length_cons, show 8 * (r.length + 1) = 8 * r.length + 8 by omega, Nat.pow_add]
    omega

theorem getLe_setCells {m : Cells} (w : Memory.wf m = true) (a n v : Nat) : getLe (setCells m a (leBytes n v)) a n = v % 2 ^ (8 * n) := by
  have h := getCells_setCells w a (leBytes n v)
  rw [leBytes_length] at h
  rw [getLe, h, leNat_leBytes]

theorem getLe_lt (m : Cells) (a n : Nat) : getLe m a n < 2 ^ (8 * n) := by
  have h := leNat_lt (getCells m a n)
  rwa [getCells_length] at h

end Sys2Proof.Machine
end

