-- ==== Sys2Proof/Laws/Writes.lean ====
section
/-!
SUPPORT. The operations that write memory: each keeps the canonical form; reset's memory has it; what writePhys and setDirty
change.
-/

namespace Sys2Proof.Machine

theorem reset_wf : Memory.wf State.reset.mem = true := rfl

@[simp] theorem fresh_mem (s : State) : (fresh s).2.mem = s.mem := rfl

theorem writePhys_mem (s : State) (p : Option Nat) (pa : Nat) (bs : List Byte) (owner : Option Nat) :
    (writePhys s p pa bs owner).mem = setCells s.mem pa bs := by
  cases p <;> rfl

theorem writePhys_wf {s : State} (w : Memory.wf s.mem = true) (p : Option Nat) (pa : Nat) (bs : List Byte) (owner : Option Nat) :
    Memory.wf (writePhys s p pa bs owner).mem = true := by
  rw [writePhys_mem]; exact wf_setCells w pa bs

/-- What writePhys leaves alone. -/
theorem writePhys_frame (s : State) (p : Option Nat) (pa : Nat) (bs : List Byte) (owner : Option Nat) :
    writePhys s p pa bs owner = { s with parts := (writePhys s p pa bs owner).parts, mem := setCells s.mem pa bs
                                         poison := (writePhys s p pa bs owner).poison, notices := (writePhys s p pa bs owner).notices } := by
  cases p <;> rfl

theorem addDword_mem (s : State) (p pa : Nat) (v : Word) :
    (addDword s p pa v).mem = setCells s.mem pa (leBytes 8 (BitVec.ofNat 64 (getLe s.mem pa 8) + v).toNat) := writePhys_mem ..

theorem addDword_wf {s : State} (w : Memory.wf s.mem = true) (p pa : Nat) (v : Word) : Memory.wf (addDword s p pa v).mem = true :=
  writePhys_wf w ..

theorem setDirty_mem (s : State) (pte : Option Nat) : (setDirty s pte).mem = s.mem ∨ ∃ a, pte = some a ∧ (setDirty s pte).mem = setCells s.mem a (leBytes 8 (getLe s.mem a 8 + 64)) := by
  cases pte with
  | none => exact .inl rfl
  | some a =>
    simp only [setDirty]
    split
    · exact .inl rfl
    · exact .inr ⟨a, rfl, rfl⟩

theorem setDirty_frame (s : State) (pte : Option Nat) : setDirty s pte = { s with mem := (setDirty s pte).mem } := by
  cases pte with
  | none => rfl
  | some a => simp only [setDirty]; split <;> rfl

theorem setDirty_wf {s : State} (w : Memory.wf s.mem = true) (pte : Option Nat) : Memory.wf (setDirty s pte).mem = true := by
  rcases setDirty_mem s pte with h | ⟨a, _, h⟩
  · rw [h]; exact w
  · rw [h]; exact wf_setCells w _ _

theorem setDirty_outside {s : State} (w : Memory.wf s.mem = true) (pte : Option Nat) (q : Nat) (h : ∀ e, pte = some e → q < e ∨ e + 8 ≤ q) :
    getCell (setDirty s pte).mem q = getCell s.mem q := by
  rcases setDirty_mem s pte with k | ⟨a, e, k⟩
  · rw [k]
  · rw [k, getCell_setCells_ne w (by simpa [leBytes_length] using h a e)]

theorem setLeaf_wf {s : State} (w : Memory.wf s.mem = true) (p va : Nat) (f : Nat → Nat) : Memory.wf (setLeaf s p va f).mem = true := by
  unfold setLeaf
  split
  · exact wf_setCells w _ _
  · exact w

@[simp] theorem frameNext_mem (s : State) (f : Nat) : ({ s with frameNext := f } : State).mem = s.mem := rfl

@[simp] theorem framePool_mem (s : State) (l : List (Nat × Nat)) : ({ s with framePool := l } : State).mem = s.mem := rfl

@[simp] theorem takeFrame_mem (s : State) : (takeFrame s).2.mem = s.mem := by
  have pick : ∀ (o : Option Nat) (a : Nat → State) (n : Nat) (b : State), (∀ f, (a f).mem = s.mem) → b.mem = s.mem →
      (match o with | some f => (f, a f) | none => (n, b)).2.mem = s.mem := by
    intro o a n b ha hb
    cases o
    · exact hb
    · exact ha _
  delta takeFrame
  apply pick
  · exact fun f => framePool_mem s (rangesMinus s.framePool f 4096)
  · exact frameNext_mem s _

@[simp] theorem takeFor_mem (s : State) (p : Nat) : (takeFor s p).2.mem = s.mem := takeFrame_mem s

@[simp] theorem takeTable_mem (s : State) (p : Nat) : (takeTable s p).2.mem = s.mem := takeFrame_mem s

theorem nextTable_wf {s : State} (w : Memory.wf s.mem = true) (p table ix : Nat) : Memory.wf (nextTable s p table ix).2.mem = true := by
  unfold nextTable
  simp only
  split
  · exact w
  · have h : Memory.wf (takeTable s p).2.mem = true := by rw [takeTable_mem]; exact w
    exact wf_setCells h _ _

theorem mapPage_wf {s : State} (w : Memory.wf s.mem = true) (p va leaf : Nat) : Memory.wf (mapPage s p va leaf).mem = true := by
  unfold mapPage
  simp only
  split
  · have h : Memory.wf (modPart (takeTable s p).2 p fun q => { q with ptRoot := (takeTable s p).1 }).mem = true := by
      rw [modPart_mem, takeTable_mem]; exact w
    exact wf_setCells (nextTable_wf (nextTable_wf (nextTable_wf (nextTable_wf h p _ _) p _ _) p _ _) p _ _) _ _
  · exact wf_setCells (nextTable_wf (nextTable_wf (nextTable_wf (nextTable_wf w p _ _) p _ _) p _ _) p _ _) _ _

theorem demandMap_wf {s t : State} (w : Memory.wf s.mem = true) {p va : Nat} (h : demandMap s p va = some t) : Memory.wf t.mem = true := by
  unfold demandMap at h
  split at h
  · cases h
    have h : Memory.wf (takeFor s p).2.mem = true := by rw [takeFor_mem]; exact w
    exact mapPage_wf h _ _ _
  · cases h

theorem writeSection_wf {s : State} (w : Memory.wf s.mem = true) (p : Nat) (d : Domain) (a b c e : Nat) :
    Memory.wf (writeSection s p d a b c e).mem = true := by
  simp only [writeSection, cover, modPart_mem]
  exact wf_setCells w _ _

theorem putGranule_wf {s : State} (w : Memory.wf s.mem = true) (b : Nat) (c : Cells) : Memory.wf (putGranule s b c).mem = true :=
  wf_foldl_setCell (fun x : Nat × Byte => b + x.1) (fun x => x.2) c (wf_filter w _)

@[simp] theorem poolRange_mem (s : State) (a n : Nat) : (poolRange s a n).mem = s.mem := by
  simp only [poolRange]
  split <;> rfl

theorem zeroFirst_wf {s : State} (w : Memory.wf s.mem = true) : Memory.wf (zeroFirst s).mem = true := by
  unfold zeroFirst
  split
  · exact w
  · rw [poolRange_mem]; exact wf_filter w _

theorem scramble_wf {s : State} (w : Memory.wf s.mem = true) (f : Nat → Bool) : Memory.wf (scramble s f).mem = true :=
  wf_foldl_setCell (fun c : Nat × Byte => c.1) (fun c => Config.staleByte s.freeCtr c.1) _ w

theorem settleDomain_wf {s : State} (w : Memory.wf s.mem = true) (p : Nat) : Memory.wf (settleDomain s p).mem = true := by
  unfold settleDomain
  split
  · exact w
  · have h : ∀ (l : List LooseWrite) (m : Cells), Memory.wf m = true →
        Memory.wf (l.foldl (fun m x => x.old.foldl (fun m c => setCell m c.1 c.2) m) m) = true := by
      intro l
      induction l with
      | nil => exact fun m w => w
      | cons x l ih => exact fun m w => ih _ (wf_foldl_setCell (fun c : Nat × Byte => c.1) (fun c => c.2) x.old w)
    simp only [modPart_mem]
    exact h _ _ w

theorem copyOnTouch_wf {s t : State} (w : Memory.wf s.mem = true) {p va : Nat} {k : Kind} (h : copyOnTouch s p k va = some t) :
    Memory.wf t.mem = true := by
  unfold copyOnTouch at h
  split at h
  · split at h
    · cases h; exact w
    · cases h
  · cases h

theorem resolveFault_wf {s t : State} (w : Memory.wf s.mem = true) {p va : Nat} {k : Kind} (h : resolveFault s p k va = some t) :
    Memory.wf t.mem = true := by
  unfold resolveFault at h
  split at h
  · cases h; exact w
  · split at h
    · rename_i hd; cases h; exact demandMap_wf w hd
    · exact copyOnTouch_wf w h

@[simp] theorem logMalformed_mem (s : State) (p va : Nat) : (logMalformed s p va).mem = s.mem := by
  unfold logMalformed; split <;> rfl

theorem reachNow_wf {s t : State} (w : Memory.wf s.mem = true) {p : Nat} {k : Kind} {va n pa : Nat} (h : reachNow s p k va n = some (pa, t)) :
    Memory.wf t.mem = true := by
  unfold reachNow at h
  split at h
  · cases h; cases k
    · exact w
    · exact setDirty_wf w _
  · cases h

theorem reach_wf {s t : State} (w : Memory.wf s.mem = true) {p : Nat} {k : Kind} {va n pa : Nat} (h : reach s p k va n = some (pa, t)) :
    Memory.wf t.mem = true := by
  unfold reach at h
  split at h
  · rename_i hr; cases h; exact reachNow_wf w hr
  · split at h
    · cases h
    · rename_i hm
      exact reachNow_wf (resolveFault_wf (by rwa [logMalformed_mem]) hm) h

theorem writeVirt_wf (p fuel va : Nat) (bs : List Byte) (done : Nat) {s : State} (w : Memory.wf s.mem = true) :
    Memory.wf (writeVirt s p fuel va bs done).2.mem = true := by
  induction fuel generalizing s va bs done with
  | zero => exact w
  | succ n ih =>
    unfold writeVirt
    split
    · exact w
    · simp only
      split
      · simpa using w
      · rename_i h
        exact ih _ _ _ (writePhys_wf (reach_wf w h) ..)

theorem writeRange_wf {s : State} (w : Memory.wf s.mem = true) (p va : Nat) (bs : List Byte) : Memory.wf (writeRange s p va bs).2.mem = true :=
  writeVirt_wf _ _ _ _ _ w

end Sys2Proof.Machine
end

