-- ==== Sys2Proof/Laws/Host.lean ====
section
/-!
SUPPORT. Command records: starting one, completing one, and when a record may start.
-/

namespace Sys2Proof.Machine

/-- A record that has no completion action leaves the front end and changes nothing else (R336). -/
theorem finishRec_plain {s : State} {id : Nat} {r : HRec} (st : Status) (h : s.recs.find? (fun r => r.id == id) = some r) (f : fieldOf r.raw 3 1 = 0) :
    finishRec s id st = { s with recs := s.recs.filter fun r => r.id != id } := by
  have hf : ∀ k, rFlag r.raw k = false := by intro k; simp [rFlag, f]
  simp only [finishRec, h, completionActions, hf]
  rfl

/-- A record of its kind that may start, in a partition it may act on, runs k from the state in which it has started. -/
theorem startRec_ready {s : State} {id kind : Nat} {op : Option Nat} {r : HRec} (k : HRec → State → State)
    (h : s.recs.find? (fun r => r.id == id) = some r) (hk : r.kind = kind) (ho : ∀ o, op = some o → debugOp r.raw = o) (hm : mayStart s r = true)
    (hp : partOk s r.conn r.raw = true) :
    startRec s id kind op k = .next (k r (modRec s id fun r => { r with status := .started, started := s.mod.time })) := by
  simp only [startRec, h]
  rw [if_neg, if_neg]
  · simp [hp]
  · cases op with
    | none => simp [hk, hm]
    | some o => simp [hk, hm, ho o rfl]

theorem find_modRec {s : State} {id : Nat} {r : HRec} {f : HRec → HRec} (hf : ∀ r, (f r).id = r.id) (h : s.recs.find? (fun r => r.id == id) = some r) :
    (modRec s id f).recs.find? (fun r => r.id == id) = some (f r) := by
  have aux : ∀ l : List HRec, l.find? (fun r => r.id == id) = some r → (l.map fun r => if r.id == id then f r else r).find? (fun r => r.id == id) = some (f r) := by
    intro l
    induction l with
    | nil => intro h; cases h
    | cons a l ih =>
      intro h
      rw [List.find?_cons] at h
      rw [List.map_cons, List.find?_cons]
      cases e : a.id == id with
      | true => simp only [e] at h; cases h; simp [hf, e]
      | false => simp only [e] at h; simp only [Bool.false_eq_true, if_false, e]; exact ih h
  exact aux s.recs h

end Sys2Proof.Machine
end

