-- ==== Sys2Proof/Laws/PerInstr.lean ====
section
/-!
SUPPORT. One lemma for each instruction about its encoding: an instruction of one word has a major below 0x30, one of two
words a major of 0x30 or more (R45), and a cue operation an opcode from 0x01 to 0x1E (R239).
-/

namespace Sys2Proof

theorem twoWords_fMaj (w : Word32) : twoWords w = decide (0x30 ≤ (fMaj w).toNat) := by
  have := w.isLt
  simp only [twoWords, fMaj, BitVec.extractLsb'_toNat, Nat.shiftRight_eq_div_pow, ge_iff_le, decide_eq_decide]
  omega

@[simp] theorem fMaj_rr (m : BitVec 6) (d a b : BitVec 5) (fn : BitVec 11) : fMaj (rr m d a b fn) = m := by
  apply BitVec.eq_of_getLsbD_eq
  intro i hi
  simp only [fMaj, rr, BitVec.getLsbD_extractLsb', BitVec.getLsbD_append, hi, decide_true, Bool.true_and]
  repeat rw [if_neg (by omega)]
  exact congrArg _ (by omega)
@[simp] theorem fMaj_ri (m : BitVec 6) (d a : BitVec 5) (j : BitVec 16) : fMaj (ri m d a j) = m := by
  apply BitVec.eq_of_getLsbD_eq
  intro i hi
  simp only [fMaj, ri, BitVec.getLsbD_extractLsb', BitVec.getLsbD_append, hi, decide_true, Bool.true_and]
  repeat rw [if_neg (by omega)]
  exact congrArg _ (by omega)
@[simp] theorem fMaj_jl (m : BitVec 6) (d : BitVec 5) (o : BitVec 21) : fMaj (jl m d o) = m := by
  apply BitVec.eq_of_getLsbD_eq
  intro i hi
  simp only [fMaj, jl, BitVec.getLsbD_extractLsb', BitVec.getLsbD_append, hi, decide_true, Bool.true_and]
  repeat rw [if_neg (by omega)]
  exact congrArg _ (by omega)
@[simp] theorem fMaj_lp (m : BitVec 6) (l : BitVec 2) (s : Bool) (r : BitVec 5) (n : BitVec 10) : fMaj (lp m l s r n) = m := by
  apply BitVec.eq_of_getLsbD_eq
  intro i hi
  simp only [fMaj, lp, BitVec.getLsbD_extractLsb', BitVec.getLsbD_append, hi, decide_true, Bool.true_and]
  repeat rw [if_neg (by omega)]
  exact congrArg _ (by omega)
@[simp] theorem fMaj_am (m : BitVec 6) (d b : BitVec 5) (k : BitVec 4) (o : BitVec 12) : fMaj (am m d b k o) = m := by
  apply BitVec.eq_of_getLsbD_eq
  intro i hi
  simp only [fMaj, am, BitVec.getLsbD_extractLsb', BitVec.getLsbD_append, hi, decide_true, Bool.true_and]
  repeat rw [if_neg (by omega)]
  exact congrArg _ (by omega)
@[simp] theorem fMaj_wide0 (m : BitVec 6) (fn : BitVec 5) (f : Wide) : fMaj (wide0 m fn f) = m := by
  apply BitVec.eq_of_getLsbD_eq
  intro i hi
  simp only [fMaj, wide0, BitVec.getLsbD_extractLsb', BitVec.getLsbD_append, hi, decide_true, Bool.true_and]
  repeat rw [if_neg (by omega)]
  exact congrArg _ (by omega)
@[simp] theorem fMaj_sy (d a : BitVec 5) (op : BitVec 4) (n : BitVec 12) : fMaj (sy d a op n) = 0x2F#6 := by
  apply BitVec.eq_of_getLsbD_eq
  intro i hi
  simp only [fMaj, sy, BitVec.getLsbD_extractLsb', BitVec.getLsbD_append, hi, decide_true, Bool.true_and]
  repeat rw [if_neg (by omega)]
  exact congrArg _ (by omega)

/-- The opcode of a cue halfword. -/
def cueOpcode (h : BitVec 16) : BitVec 5 := h.extractLsb' 11 5

theorem cueOpcode_11 (m : BitVec 5) (x0 : BitVec 11) : cueOpcode (m ++ x0) = m := by
  apply BitVec.eq_of_getLsbD_eq
  intro i hi
  simp only [cueOpcode, BitVec.getLsbD_extractLsb', BitVec.getLsbD_append, hi, decide_true, Bool.true_and]
  repeat rw [if_neg (by omega)]
  exact congrArg _ (by omega)
theorem cueOpcode_6_5 (m : BitVec 5) (x0 : BitVec 6) (x1 : BitVec 5) : cueOpcode (m ++ x0 ++ x1) = m := by
  apply BitVec.eq_of_getLsbD_eq
  intro i hi
  simp only [cueOpcode, BitVec.getLsbD_extractLsb', BitVec.getLsbD_append, hi, decide_true, Bool.true_and]
  repeat rw [if_neg (by omega)]
  exact congrArg _ (by omega)
theorem cueOpcode_3_8 (m : BitVec 5) (x0 : BitVec 3) (x1 : BitVec 8) : cueOpcode (m ++ x0 ++ x1) = m := by
  apply BitVec.eq_of_getLsbD_eq
  intro i hi
  simp only [cueOpcode, BitVec.getLsbD_extractLsb', BitVec.getLsbD_append, hi, decide_true, Bool.true_and]
  repeat rw [if_neg (by omega)]
  exact congrArg _ (by omega)
theorem cueOpcode_3_3_5 (m : BitVec 5) (x0 : BitVec 3) (x1 : BitVec 3) (x2 : BitVec 5) : cueOpcode (m ++ x0 ++ x1 ++ x2) = m := by
  apply BitVec.eq_of_getLsbD_eq
  intro i hi
  simp only [cueOpcode, BitVec.getLsbD_extractLsb', BitVec.getLsbD_append, hi, decide_true, Bool.true_and]
  repeat rw [if_neg (by omega)]
  exact congrArg _ (by omega)
theorem cueOpcode_3_2_1_5 (m : BitVec 5) (x0 : BitVec 3) (x1 : BitVec 2) (x2 : BitVec 1) (x3 : BitVec 5) : cueOpcode (m ++ x0 ++ x1 ++ x2 ++ x3) = m := by
  apply BitVec.eq_of_getLsbD_eq
  intro i hi
  simp only [cueOpcode, BitVec.getLsbD_extractLsb', BitVec.getLsbD_append, hi, decide_true, Bool.true_and]
  repeat rw [if_neg (by omega)]
  exact congrArg _ (by omega)
theorem cueOpcode_3_3_2_3 (m : BitVec 5) (x0 : BitVec 3) (x1 : BitVec 3) (x2 : BitVec 2) (x3 : BitVec 3) : cueOpcode (m ++ x0 ++ x1 ++ x2 ++ x3) = m := by
  apply BitVec.eq_of_getLsbD_eq
  intro i hi
  simp only [cueOpcode, BitVec.getLsbD_extractLsb', BitVec.getLsbD_append, hi, decide_true, Bool.true_and]
  repeat rw [if_neg (by omega)]
  exact congrArg _ (by omega)

namespace Laws.Encoding

/-- The words of an instruction are of the length its major or opcode gives. -/
def Statement (i : Instr) : Prop :=
  match encode i with
  | .one w => twoWords w = false
  | .two w _ => twoWords w = true
  | .half h => 0x01 ≤ (cueOpcode h).toNat ∧ (cueOpcode h).toNat ≤ 0x1E
  | .none => True

theorem of_one {i : Instr} {w : Word32} (e : encode i = .one w) (h : (fMaj w).toNat < 0x30) : Statement i := by
  simp only [Statement, e, twoWords_fMaj, decide_eq_false_iff_not]; omega
theorem of_two {i : Instr} {m : BitVec 6} {fn : BitVec 5} {f : Wide} (e : encode i = wideWords m fn f) (h : 0x30 ≤ m.toNat) : Statement i := by
  simp only [Statement, e, wideWords, twoWords_fMaj, fMaj_wide0, decide_eq_true_eq]; exact h
theorem of_half {i : Instr} {h : BitVec 16} (e : encode i = .half h) (m : BitVec 5) (hm : cueOpcode h = m) (l : 0x01 ≤ m.toNat ∧ m.toNat ≤ 0x1E) : Statement i := by
  simp only [Statement, e, hm]; exact l

theorem add : ∀ y0 y1 y2, Statement (.add y0 y1 y2) := fun d a b => of_one rfl (by rw [fMaj_rr]; decide)
theorem sub : ∀ y0 y1 y2, Statement (.sub y0 y1 y2) := fun d a b => of_one rfl (by rw [fMaj_rr]; decide)
theorem and : ∀ y0 y1 y2, Statement (.and y0 y1 y2) := fun d a b => of_one rfl (by rw [fMaj_rr]; decide)
theorem or : ∀ y0 y1 y2, Statement (.or y0 y1 y2) := fun d a b => of_one rfl (by rw [fMaj_rr]; decide)
theorem xor : ∀ y0 y1 y2, Statement (.xor y0 y1 y2) := fun d a b => of_one rfl (by rw [fMaj_rr]; decide)
theorem andn : ∀ y0 y1 y2, Statement (.andn y0 y1 y2) := fun d a b => of_one rfl (by rw [fMaj_rr]; decide)
theorem shl : ∀ y0 y1 y2, Statement (.shl y0 y1 y2) := fun d a b => of_one rfl (by rw [fMaj_rr]; decide)
theorem shr : ∀ y0 y1 y2, Statement (.shr y0 y1 y2) := fun d a b => of_one rfl (by rw [fMaj_rr]; decide)
theorem sra : ∀ y0 y1 y2, Statement (.sra y0 y1 y2) := fun d a b => of_one rfl (by rw [fMaj_rr]; decide)
theorem min : ∀ y0 y1 y2, Statement (.min y0 y1 y2) := fun d a b => of_one rfl (by rw [fMaj_rr]; decide)
theorem max : ∀ y0 y1 y2, Statement (.max y0 y1 y2) := fun d a b => of_one rfl (by rw [fMaj_rr]; decide)
theorem minu : ∀ y0 y1 y2, Statement (.minu y0 y1 y2) := fun d a b => of_one rfl (by rw [fMaj_rr]; decide)
theorem maxu : ∀ y0 y1 y2, Statement (.maxu y0 y1 y2) := fun d a b => of_one rfl (by rw [fMaj_rr]; decide)
theorem clz : ∀ y0 y1, Statement (.clz y0 y1) := fun d a => of_one rfl (by rw [fMaj_rr]; decide)
theorem ctz : ∀ y0 y1, Statement (.ctz y0 y1) := fun d a => of_one rfl (by rw [fMaj_rr]; decide)
theorem popc : ∀ y0 y1, Statement (.popc y0 y1) := fun d a => of_one rfl (by rw [fMaj_rr]; decide)
theorem mov : ∀ y0 y1, Statement (.mov y0 y1) := fun d a => of_one rfl (by rw [fMaj_rr]; decide)
theorem mul : ∀ y0 y1 y2, Statement (.mul y0 y1 y2) := fun d a b => of_one rfl (by rw [fMaj_rr]; decide)
theorem mulh : ∀ y0 y1 y2, Statement (.mulh y0 y1 y2) := fun d a b => of_one rfl (by rw [fMaj_rr]; decide)
theorem mulhu : ∀ y0 y1 y2, Statement (.mulhu y0 y1 y2) := fun d a b => of_one rfl (by rw [fMaj_rr]; decide)
theorem mulhsu : ∀ y0 y1 y2, Statement (.mulhsu y0 y1 y2) := fun d a b => of_one rfl (by rw [fMaj_rr]; decide)
theorem div : ∀ y0 y1 y2, Statement (.div y0 y1 y2) := fun d a b => of_one rfl (by rw [fMaj_rr]; decide)
theorem divu : ∀ y0 y1 y2, Statement (.divu y0 y1 y2) := fun d a b => of_one rfl (by rw [fMaj_rr]; decide)
theorem rem : ∀ y0 y1 y2, Statement (.rem y0 y1 y2) := fun d a b => of_one rfl (by rw [fMaj_rr]; decide)
theorem remu : ∀ y0 y1 y2, Statement (.remu y0 y1 y2) := fun d a b => of_one rfl (by rw [fMaj_rr]; decide)
theorem seq : ∀ y0 y1 y2, Statement (.seq y0 y1 y2) := fun d a b => of_one rfl (by rw [fMaj_rr]; decide)
theorem sne : ∀ y0 y1 y2, Statement (.sne y0 y1 y2) := fun d a b => of_one rfl (by rw [fMaj_rr]; decide)
theorem slt : ∀ y0 y1 y2, Statement (.slt y0 y1 y2) := fun d a b => of_one rfl (by rw [fMaj_rr]; decide)
theorem sltu : ∀ y0 y1 y2, Statement (.sltu y0 y1 y2) := fun d a b => of_one rfl (by rw [fMaj_rr]; decide)
theorem sle : ∀ y0 y1 y2, Statement (.sle y0 y1 y2) := fun d a b => of_one rfl (by rw [fMaj_rr]; decide)
theorem sleu : ∀ y0 y1 y2, Statement (.sleu y0 y1 y2) := fun d a b => of_one rfl (by rw [fMaj_rr]; decide)
theorem addi : ∀ y0 y1 y2, Statement (.addi y0 y1 y2) := fun d a i => of_one rfl (by rw [fMaj_ri]; decide)
theorem andi : ∀ y0 y1 y2, Statement (.andi y0 y1 y2) := fun d a i => of_one rfl (by rw [fMaj_ri]; decide)
theorem ori : ∀ y0 y1 y2, Statement (.ori y0 y1 y2) := fun d a i => of_one rfl (by rw [fMaj_ri]; decide)
theorem xori : ∀ y0 y1 y2, Statement (.xori y0 y1 y2) := fun d a i => of_one rfl (by rw [fMaj_ri]; decide)
theorem shli : ∀ y0 y1 y2, Statement (.shli y0 y1 y2) := fun d a i => of_one rfl (by rw [fMaj_ri]; decide)
theorem shri : ∀ y0 y1 y2, Statement (.shri y0 y1 y2) := fun d a i => of_one rfl (by rw [fMaj_ri]; decide)
theorem srai : ∀ y0 y1 y2, Statement (.srai y0 y1 y2) := fun d a i => of_one rfl (by rw [fMaj_ri]; decide)
theorem slti : ∀ y0 y1 y2, Statement (.slti y0 y1 y2) := fun d a i => of_one rfl (by rw [fMaj_ri]; decide)
theorem sltiu : ∀ y0 y1 y2, Statement (.sltiu y0 y1 y2) := fun d a i => of_one rfl (by rw [fMaj_ri]; decide)
theorem seqi : ∀ y0 y1 y2, Statement (.seqi y0 y1 y2) := fun d a i => of_one rfl (by rw [fMaj_ri]; decide)
theorem movi : ∀ y0 y1, Statement (.movi y0 y1) := fun d i => of_one rfl (by rw [fMaj_ri]; decide)
theorem movk : ∀ y0 y1 y2, Statement (.movk y0 y1 y2) := fun d h i => of_one rfl (by rw [fMaj_ri]; decide)
theorem beq : ∀ y0 y1 y2, Statement (.beq y0 y1 y2) := fun a b o => of_one rfl (by rw [fMaj_ri]; decide)
theorem bne : ∀ y0 y1 y2, Statement (.bne y0 y1 y2) := fun a b o => of_one rfl (by rw [fMaj_ri]; decide)
theorem blt : ∀ y0 y1 y2, Statement (.blt y0 y1 y2) := fun a b o => of_one rfl (by rw [fMaj_ri]; decide)
theorem bge : ∀ y0 y1 y2, Statement (.bge y0 y1 y2) := fun a b o => of_one rfl (by rw [fMaj_ri]; decide)
theorem bqt : ∀ y0, Statement (.bqt y0) := fun o => of_one rfl (by rw [fMaj_ri]; decide)
theorem bqf : ∀ y0, Statement (.bqf y0) := fun o => of_one rfl (by rw [fMaj_ri]; decide)
theorem jalr : ∀ y0 y1, Statement (.jalr y0 y1) := fun d a => of_one rfl (by rw [fMaj_rr]; decide)
theorem mbrd : ∀ y0 y1, Statement (.mbrd y0 y1) := fun d k => of_one rfl (by rw [fMaj_rr]; decide)
theorem mbput : ∀ y0 y1 y2, Statement (.mbput y0 y1 y2) := fun k a b => of_one rfl (by rw [fMaj_rr]; decide)
theorem rotrd : ∀ y0, Statement (.rotrd y0) := fun d => of_one rfl (by rw [fMaj_rr]; decide)
theorem rotwr : ∀ y0, Statement (.rotwr y0) := fun a => of_one rfl (by rw [fMaj_rr]; decide)
theorem jal : ∀ y0 y1, Statement (.jal y0 y1) := fun d o => of_one rfl (by rw [fMaj_jl]; decide)
theorem loop : ∀ y0 y1 y2 y3, Statement (.loop y0 y1 y2 y3) := fun l s r n => of_one rfl (by rw [fMaj_lp]; decide)
theorem ldb : ∀ y0 y1 y2, Statement (.ldb y0 y1 y2) := fun d b o => of_one rfl (by rw [fMaj_am]; decide)
theorem ldbu : ∀ y0 y1 y2, Statement (.ldbu y0 y1 y2) := fun d b o => of_one rfl (by rw [fMaj_am]; decide)
theorem ldh : ∀ y0 y1 y2, Statement (.ldh y0 y1 y2) := fun d b o => of_one rfl (by rw [fMaj_am]; decide)
theorem ldhu : ∀ y0 y1 y2, Statement (.ldhu y0 y1 y2) := fun d b o => of_one rfl (by rw [fMaj_am]; decide)
theorem ldw : ∀ y0 y1 y2, Statement (.ldw y0 y1 y2) := fun d b o => of_one rfl (by rw [fMaj_am]; decide)
theorem ldwu : ∀ y0 y1 y2, Statement (.ldwu y0 y1 y2) := fun d b o => of_one rfl (by rw [fMaj_am]; decide)
theorem ldd : ∀ y0 y1 y2, Statement (.ldd y0 y1 y2) := fun d b o => of_one rfl (by rw [fMaj_am]; decide)
theorem lqb : ∀ y0 y1 y2, Statement (.lqb y0 y1 y2) := fun q b o => of_one rfl (by rw [fMaj_am]; decide)
theorem lqbu : ∀ y0 y1 y2, Statement (.lqbu y0 y1 y2) := fun q b o => of_one rfl (by rw [fMaj_am]; decide)
theorem lqh : ∀ y0 y1 y2, Statement (.lqh y0 y1 y2) := fun q b o => of_one rfl (by rw [fMaj_am]; decide)
theorem lqhu : ∀ y0 y1 y2, Statement (.lqhu y0 y1 y2) := fun q b o => of_one rfl (by rw [fMaj_am]; decide)
theorem lqw : ∀ y0 y1 y2, Statement (.lqw y0 y1 y2) := fun q b o => of_one rfl (by rw [fMaj_am]; decide)
theorem lqwu : ∀ y0 y1 y2, Statement (.lqwu y0 y1 y2) := fun q b o => of_one rfl (by rw [fMaj_am]; decide)
theorem lqd : ∀ y0 y1 y2, Statement (.lqd y0 y1 y2) := fun q b o => of_one rfl (by rw [fMaj_am]; decide)
theorem sab : ∀ y0 y1, Statement (.sab y0 y1) := fun b o => of_one rfl (by rw [fMaj_am]; decide)
theorem sah : ∀ y0 y1, Statement (.sah y0 y1) := fun b o => of_one rfl (by rw [fMaj_am]; decide)
theorem saw : ∀ y0 y1, Statement (.saw y0 y1) := fun b o => of_one rfl (by rw [fMaj_am]; decide)
theorem sad : ∀ y0 y1, Statement (.sad y0 y1) := fun b o => of_one rfl (by rw [fMaj_am]; decide)
theorem mark : Statement .mark := of_one rfl (by rw [fMaj_rr]; decide)
theorem qpop : ∀ y0 y1, Statement (.qpop y0 y1) := fun d q => of_one rfl (by rw [fMaj_rr]; decide)
theorem sdq : ∀ y0, Statement (.sdq y0) := fun a => of_one rfl (by rw [fMaj_rr]; decide)
theorem xqput : ∀ y0, Statement (.xqput y0) := fun a => of_one rfl (by rw [fMaj_rr]; decide)
theorem xqget : ∀ y0, Statement (.xqget y0) := fun d => of_one rfl (by rw [fMaj_rr]; decide)
theorem bqput : ∀ y0, Statement (.bqput y0) := fun a => of_one rfl (by rw [fMaj_rr]; decide)
theorem tld : ∀ y0 y1 y2, Statement (.tld y0 y1 y2) := fun d a b => of_one rfl (by rw [fMaj_rr]; decide)
theorem tst : ∀ y0 y1 y2, Statement (.tst y0 y1 y2) := fun d a b => of_one rfl (by rw [fMaj_rr]; decide)
theorem gth : ∀ y0 y1 y2, Statement (.gth y0 y1 y2) := fun d a b => of_one rfl (by rw [fMaj_rr]; decide)
theorem sct : ∀ y0 y1 y2, Statement (.sct y0 y1 y2) := fun d a b => of_one rfl (by rw [fMaj_rr]; decide)
theorem spld : ∀ y0 y1, Statement (.spld y0 y1) := fun d o => of_one rfl (by rw [fMaj_am]; decide)
theorem spst : ∀ y0 y1, Statement (.spst y0 y1) := fun d o => of_one rfl (by rw [fMaj_am]; decide)
theorem amadd : ∀ y0 y1 y2 y3 y4, Statement (.amadd y0 y1 y2 y3 y4) := fun d a b c z => of_one rfl (by rw [fMaj_rr]; decide)
theorem ammin : ∀ y0 y1 y2 y3 y4, Statement (.ammin y0 y1 y2 y3 y4) := fun d a b c z => of_one rfl (by rw [fMaj_rr]; decide)
theorem ammax : ∀ y0 y1 y2 y3 y4, Statement (.ammax y0 y1 y2 y3 y4) := fun d a b c z => of_one rfl (by rw [fMaj_rr]; decide)
theorem amand : ∀ y0 y1 y2 y3 y4, Statement (.amand y0 y1 y2 y3 y4) := fun d a b c z => of_one rfl (by rw [fMaj_rr]; decide)
theorem amor : ∀ y0 y1 y2 y3 y4, Statement (.amor y0 y1 y2 y3 y4) := fun d a b c z => of_one rfl (by rw [fMaj_rr]; decide)
theorem amxor : ∀ y0 y1 y2 y3 y4, Statement (.amxor y0 y1 y2 y3 y4) := fun d a b c z => of_one rfl (by rw [fMaj_rr]; decide)
theorem amswp : ∀ y0 y1 y2 y3 y4, Statement (.amswp y0 y1 y2 y3 y4) := fun d a b c z => of_one rfl (by rw [fMaj_rr]; decide)
theorem amcas : ∀ y0 y1 y2 y3 y4, Statement (.amcas y0 y1 y2 y3 y4) := fun d a b c z => of_one rfl (by rw [fMaj_rr]; decide)
theorem rel : ∀ y0, Statement (.rel y0) := fun c => of_one rfl (by rw [fMaj_rr]; decide)
theorem acq : ∀ y0, Statement (.acq y0) := fun c => of_one rfl (by rw [fMaj_rr]; decide)
theorem fence : ∀ y0, Statement (.fence y0) := fun c => of_one rfl (by rw [fMaj_rr]; decide)
theorem push : ∀ y0 y1 y2, Statement (.push y0 y1 y2) := fun d a e => of_one rfl (by rw [fMaj_rr]; decide)
theorem swait : ∀ y0 y1 y2, Statement (.swait y0 y1 y2) := fun d a b => of_one rfl (by rw [fMaj_rr]; decide)
theorem ssig : ∀ y0 y1 y2, Statement (.ssig y0 y1 y2) := fun d a b => of_one rfl (by rw [fMaj_rr]; decide)
theorem srd : ∀ y0 y1, Statement (.srd y0 y1) := fun d a => of_one rfl (by rw [fMaj_rr]; decide)
theorem ecreate : ∀ y0, Statement (.ecreate y0) := fun d => of_one rfl (by rw [fMaj_rr]; decide)
theorem ejoin : ∀ y0 y1, Statement (.ejoin y0 y1) := fun d a => of_one rfl (by rw [fMaj_rr]; decide)
theorem eleave : ∀ y0 y1, Statement (.eleave y0 y1) := fun d a => of_one rfl (by rw [fMaj_rr]; decide)
theorem equery : ∀ y0 y1 y2, Statement (.equery y0 y1 y2) := fun d a b => of_one rfl (by rw [fMaj_rr]; decide)
theorem ebar : ∀ y0 y1, Statement (.ebar y0 y1) := fun d a => of_one rfl (by rw [fMaj_rr]; decide)
theorem uret : Statement .uret := of_one rfl (by rw [fMaj_rr]; decide)
theorem uimask : ∀ y0 y1, Statement (.uimask y0 y1) := fun d a => of_one rfl (by rw [fMaj_rr]; decide)
theorem sysrd : ∀ y0 y1, Statement (.sysrd y0 y1) := fun d n => of_one rfl (by rw [fMaj_sy]; decide)
theorem sysrdSigv : ∀ y0, Statement (.sysrdSigv y0) := fun d => of_one rfl (by rw [fMaj_sy]; decide)
theorem sysrdSigs : ∀ y0, Statement (.sysrdSigs y0) := fun d => of_one rfl (by rw [fMaj_sy]; decide)
theorem sysrdTrapInfo : ∀ y0 y1, Statement (.sysrdTrapInfo y0 y1) := fun d n => of_one rfl (by rw [fMaj_sy]; decide)
theorem syswr : ∀ y0 y1, Statement (.syswr y0 y1) := fun a n => of_one rfl (by rw [fMaj_sy]; decide)
theorem syswrHeapWindow : ∀ y0 y1, Statement (.syswrHeapWindow y0 y1) := fun a n => of_one rfl (by rw [fMaj_sy]; decide)
theorem trap : ∀ y0, Statement (.trap y0) := fun n => of_one rfl (by rw [fMaj_sy]; decide)
theorem eret : Statement .eret := of_one rfl (by rw [fMaj_sy]; decide)
theorem cro : ∀ y0, Statement (.cro y0) := fun o => of_one rfl (by rw [fMaj_sy]; decide)
theorem crc : Statement .crc := of_one rfl (by rw [fMaj_sy]; decide)
theorem sigchk : Statement .sigchk := of_one rfl (by rw [fMaj_sy]; decide)
theorem locq : ∀ y0 y1 y2, Statement (.locq y0 y1 y2) := fun d a n => of_one rfl (by rw [fMaj_sy]; decide)
theorem brk : ∀ y0, Statement (.brk y0) := fun n => of_one rfl (by rw [fMaj_sy]; decide)
theorem halt : Statement .halt := of_one rfl (by rw [fMaj_sy]; decide)
theorem yield : Statement .yield := of_one rfl (by rw [fMaj_sy]; decide)
theorem wfi : Statement .wfi := of_one rfl (by rw [fMaj_sy]; decide)
theorem rpopen : ∀ y0, Statement (.rpopen y0) := fun d => of_one rfl (by rw [fMaj_sy]; decide)
theorem rpcommit : ∀ y0 y1, Statement (.rpcommit y0 y1) := fun d a => of_one rfl (by rw [fMaj_sy]; decide)
theorem rpwait : ∀ y0 y1 y2, Statement (.rpwait y0 y1 y2) := fun d a w => of_one rfl (by rw [fMaj_sy]; decide)
theorem vadd : ∀ y0, Statement (.vadd y0) := fun f => of_two rfl (by decide)
theorem vsub : ∀ y0, Statement (.vsub y0) := fun f => of_two rfl (by decide)
theorem vmul : ∀ y0, Statement (.vmul y0) := fun f => of_two rfl (by decide)
theorem vfma : ∀ y0, Statement (.vfma y0) := fun f => of_two rfl (by decide)
theorem vfms : ∀ y0, Statement (.vfms y0) := fun f => of_two rfl (by decide)
theorem vmin : ∀ y0, Statement (.vmin y0) := fun f => of_two rfl (by decide)
theorem vmax : ∀ y0, Statement (.vmax y0) := fun f => of_two rfl (by decide)
theorem vabs : ∀ y0, Statement (.vabs y0) := fun f => of_two rfl (by decide)
theorem vneg : ∀ y0, Statement (.vneg y0) := fun f => of_two rfl (by decide)
theorem vaddsat : ∀ y0, Statement (.vaddsat y0) := fun f => of_two rfl (by decide)
theorem vsubsat : ∀ y0, Statement (.vsubsat y0) := fun f => of_two rfl (by decide)
theorem vceq : ∀ y0, Statement (.vceq y0) := fun f => of_two rfl (by decide)
theorem vcne : ∀ y0, Statement (.vcne y0) := fun f => of_two rfl (by decide)
theorem vclt : ∀ y0, Statement (.vclt y0) := fun f => of_two rfl (by decide)
theorem vcle : ∀ y0, Statement (.vcle y0) := fun f => of_two rfl (by decide)
theorem vcgt : ∀ y0, Statement (.vcgt y0) := fun f => of_two rfl (by decide)
theorem vcge : ∀ y0, Statement (.vcge y0) := fun f => of_two rfl (by decide)
theorem pand : ∀ y0, Statement (.pand y0) := fun f => of_two rfl (by decide)
theorem por : ∀ y0, Statement (.por y0) := fun f => of_two rfl (by decide)
theorem pxor : ∀ y0, Statement (.pxor y0) := fun f => of_two rfl (by decide)
theorem pnot : ∀ y0, Statement (.pnot y0) := fun f => of_two rfl (by decide)
theorem pset : ∀ y0, Statement (.pset y0) := fun f => of_two rfl (by decide)
theorem vand : ∀ y0, Statement (.vand y0) := fun f => of_two rfl (by decide)
theorem vor : ∀ y0, Statement (.vor y0) := fun f => of_two rfl (by decide)
theorem vxor : ∀ y0, Statement (.vxor y0) := fun f => of_two rfl (by decide)
theorem vandn : ∀ y0, Statement (.vandn y0) := fun f => of_two rfl (by decide)
theorem vnot : ∀ y0, Statement (.vnot y0) := fun f => of_two rfl (by decide)
theorem vshl : ∀ y0, Statement (.vshl y0) := fun f => of_two rfl (by decide)
theorem vshr : ∀ y0, Statement (.vshr y0) := fun f => of_two rfl (by decide)
theorem vsra : ∀ y0, Statement (.vsra y0) := fun f => of_two rfl (by decide)
theorem vshli : ∀ y0, Statement (.vshli y0) := fun f => of_two rfl (by decide)
theorem vshri : ∀ y0, Statement (.vshri y0) := fun f => of_two rfl (by decide)
theorem vsrai : ∀ y0, Statement (.vsrai y0) := fun f => of_two rfl (by decide)
theorem vrsumr : ∀ y0, Statement (.vrsumr y0) := fun f => of_two rfl (by decide)
theorem vrsumc : ∀ y0, Statement (.vrsumc y0) := fun f => of_two rfl (by decide)
theorem vrmaxr : ∀ y0, Statement (.vrmaxr y0) := fun f => of_two rfl (by decide)
theorem vrmaxc : ∀ y0, Statement (.vrmaxc y0) := fun f => of_two rfl (by decide)
theorem vrminr : ∀ y0, Statement (.vrminr y0) := fun f => of_two rfl (by decide)
theorem vrminc : ∀ y0, Statement (.vrminc y0) := fun f => of_two rfl (by decide)
theorem vbcast : ∀ y0, Statement (.vbcast y0) := fun f => of_two rfl (by decide)
theorem vtrans : ∀ y0, Statement (.vtrans y0) := fun f => of_two rfl (by decide)
theorem vperm : ∀ y0, Statement (.vperm y0) := fun f => of_two rfl (by decide)
theorem vshuf : ∀ y0, Statement (.vshuf y0) := fun f => of_two rfl (by decide)
theorem vcomp : ∀ y0, Statement (.vcomp y0) := fun f => of_two rfl (by decide)
theorem vexpd : ∀ y0, Statement (.vexpd y0) := fun f => of_two rfl (by decide)
theorem vsel : ∀ y0, Statement (.vsel y0) := fun f => of_two rfl (by decide)
theorem vmov : ∀ y0, Statement (.vmov y0) := fun f => of_two rfl (by decide)
theorem vmovi : ∀ y0, Statement (.vmovi y0) := fun f => of_two rfl (by decide)
theorem vld : ∀ y0, Statement (.vld y0) := fun f => of_two rfl (by decide)
theorem vst : ∀ y0, Statement (.vst y0) := fun f => of_two rfl (by decide)
theorem vldac : ∀ y0, Statement (.vldac y0) := fun f => of_two rfl (by decide)
theorem pst : ∀ y0, Statement (.pst y0) := fun f => of_two rfl (by decide)
theorem pld : ∀ y0, Statement (.pld y0) := fun f => of_two rfl (by decide)
theorem shp : ∀ y0, Statement (.shp y0) := fun f => of_two rfl (by decide)
theorem shpr : ∀ y0, Statement (.shpr y0) := fun f => of_two rfl (by decide)
theorem mwld : ∀ y0, Statement (.mwld y0) := fun f => of_two rfl (by decide)
theorem mwldq : ∀ y0, Statement (.mwldq y0) := fun f => of_two rfl (by decide)
theorem mclr : ∀ y0, Statement (.mclr y0) := fun f => of_two rfl (by decide)
theorem mswap : ∀ y0, Statement (.mswap y0) := fun f => of_two rfl (by decide)
theorem mcks : ∀ y0, Statement (.mcks y0) := fun f => of_two rfl (by decide)
theorem mmac : ∀ y0, Statement (.mmac y0) := fun f => of_two rfl (by decide)
theorem cvt : ∀ y0, Statement (.cvt y0) := fun f => of_two rfl (by decide)
theorem cvtsr : ∀ y0, Statement (.cvtsr y0) := fun f => of_two rfl (by decide)
theorem rng : ∀ y0, Statement (.rng y0) := fun f => of_two rfl (by decide)
theorem tint : ∀ y0, Statement (.tint y0) := fun f => of_two rfl (by decide)
theorem tload : ∀ y0, Statement (.tload y0) := fun f => of_two rfl (by decide)
theorem cuePfx : ∀ y0, Statement (.cuePfx y0) := fun i => of_half rfl 0x01#5 (cueOpcode_11 _ _) (by decide)
theorem cueMov : ∀ y0 y1, Statement (.cueMov y0 y1) := fun d a => of_half rfl 0x02#5 (cueOpcode_3_3_5 _ _ _ _) (by decide)
theorem cueLi : ∀ y0 y1, Statement (.cueLi y0 y1) := fun d i => of_half rfl 0x03#5 (cueOpcode_3_3_5 _ _ _ _) (by decide)
theorem cueAdd : ∀ y0 y1 y2, Statement (.cueAdd y0 y1 y2) := fun d a b => of_half rfl 0x04#5 (cueOpcode_3_3_2_3 _ _ _ _ _) (by decide)
theorem cueAddi : ∀ y0 y1 y2, Statement (.cueAddi y0 y1 y2) := fun d a i => of_half rfl 0x05#5 (cueOpcode_3_3_5 _ _ _ _) (by decide)
theorem cueSub : ∀ y0 y1 y2, Statement (.cueSub y0 y1 y2) := fun d a b => of_half rfl 0x06#5 (cueOpcode_3_3_2_3 _ _ _ _ _) (by decide)
theorem cueAnd : ∀ y0 y1 y2, Statement (.cueAnd y0 y1 y2) := fun d a b => of_half rfl 0x07#5 (cueOpcode_3_3_2_3 _ _ _ _ _) (by decide)
theorem cueOr : ∀ y0 y1 y2, Statement (.cueOr y0 y1 y2) := fun d a b => of_half rfl 0x08#5 (cueOpcode_3_3_2_3 _ _ _ _ _) (by decide)
theorem cueXor : ∀ y0 y1 y2, Statement (.cueXor y0 y1 y2) := fun d a b => of_half rfl 0x09#5 (cueOpcode_3_3_2_3 _ _ _ _ _) (by decide)
theorem cueShl : ∀ y0 y1 y2, Statement (.cueShl y0 y1 y2) := fun d a n => of_half rfl 0x0A#5 (cueOpcode_3_3_5 _ _ _ _) (by decide)
theorem cueShr : ∀ y0 y1 y2, Statement (.cueShr y0 y1 y2) := fun d a n => of_half rfl 0x0B#5 (cueOpcode_3_3_5 _ _ _ _) (by decide)
theorem cueMin : ∀ y0 y1 y2, Statement (.cueMin y0 y1 y2) := fun d a b => of_half rfl 0x0C#5 (cueOpcode_3_3_2_3 _ _ _ _ _) (by decide)
theorem cueMax : ∀ y0 y1 y2, Statement (.cueMax y0 y1 y2) := fun d a b => of_half rfl 0x0D#5 (cueOpcode_3_3_2_3 _ _ _ _ _) (by decide)
theorem cueSlt : ∀ y0 y1 y2, Statement (.cueSlt y0 y1 y2) := fun d a b => of_half rfl 0x0E#5 (cueOpcode_3_3_2_3 _ _ _ _ _) (by decide)
theorem cueSeq : ∀ y0 y1 y2, Statement (.cueSeq y0 y1 y2) := fun d a b => of_half rfl 0x0F#5 (cueOpcode_3_3_2_3 _ _ _ _ _) (by decide)
theorem cueMul : ∀ y0 y1 y2, Statement (.cueMul y0 y1 y2) := fun d a b => of_half rfl 0x10#5 (cueOpcode_3_3_2_3 _ _ _ _ _) (by decide)
theorem cueBeq : ∀ y0 y1 y2, Statement (.cueBeq y0 y1 y2) := fun d a i => of_half rfl 0x11#5 (cueOpcode_3_3_5 _ _ _ _) (by decide)
theorem cueBne : ∀ y0 y1 y2, Statement (.cueBne y0 y1 y2) := fun d a i => of_half rfl 0x12#5 (cueOpcode_3_3_5 _ _ _ _) (by decide)
theorem cueBlt : ∀ y0 y1 y2, Statement (.cueBlt y0 y1 y2) := fun d a i => of_half rfl 0x13#5 (cueOpcode_3_3_5 _ _ _ _) (by decide)
theorem cueBge : ∀ y0 y1 y2, Statement (.cueBge y0 y1 y2) := fun d a i => of_half rfl 0x14#5 (cueOpcode_3_3_5 _ _ _ _) (by decide)
theorem cueJmp : ∀ y0, Statement (.cueJmp y0) := fun i => of_half rfl 0x15#5 (cueOpcode_6_5 _ _ _) (by decide)
theorem cueEach : ∀ y0 y1 y2, Statement (.cueEach y0 y1 y2) := fun d s i => of_half rfl 0x16#5 (cueOpcode_3_2_1_5 _ _ _ _ _) (by decide)
theorem cueNext : ∀ y0, Statement (.cueNext y0) := fun d => of_half rfl 0x17#5 (cueOpcode_3_8 _ _ _) (by decide)
theorem cueVget : ∀ y0 y1 y2, Statement (.cueVget y0 y1 y2) := fun d a f => of_half rfl 0x18#5 (cueOpcode_3_3_5 _ _ _ _) (by decide)
theorem cueCget : ∀ y0 y1 y2, Statement (.cueCget y0 y1 y2) := fun d a f => of_half rfl 0x19#5 (cueOpcode_3_3_5 _ _ _ _) (by decide)
theorem cueVglob : ∀ y0 y1, Statement (.cueVglob y0 y1) := fun d f => of_half rfl 0x1A#5 (cueOpcode_3_3_5 _ _ _ _) (by decide)
theorem cuePick : ∀ y0, Statement (.cuePick y0) := fun a => of_half rfl 0x1B#5 (cueOpcode_3_3_5 _ _ _ _) (by decide)
theorem cuePlace : ∀ y0, Statement (.cuePlace y0) := fun a => of_half rfl 0x1C#5 (cueOpcode_3_3_5 _ _ _ _) (by decide)
theorem cueDeny : ∀ y0, Statement (.cueDeny y0) := fun n => of_half rfl 0x1D#5 (cueOpcode_6_5 _ _ _) (by decide)
theorem cueStop : Statement .cueStop := of_half rfl 0x1E#5 (cueOpcode_11 _ _) (by decide)
theorem vectorCommand : ∀ y0 y1, Statement (.vectorCommand y0 y1) := fun _ _ => trivial
theorem matrixCommand : ∀ y0 y1, Statement (.matrixCommand y0 y1) := fun _ _ => trivial
theorem loadReturn : ∀ y0, Statement (.loadReturn y0) := fun _ => trivial
theorem storePairing : ∀ y0, Statement (.storePairing y0) := fun _ => trivial
theorem wingsDrain : ∀ y0, Statement (.wingsDrain y0) := fun _ => trivial
theorem queueProtocolError : ∀ y0, Statement (.queueProtocolError y0) := fun _ => trivial
theorem uliDelivery : ∀ y0, Statement (.uliDelivery y0) := fun _ => trivial
theorem trapEntry : ∀ y0, Statement (.trapEntry y0) := fun _ => trivial
theorem semaphoreNotice : ∀ y0, Statement (.semaphoreNotice y0) := fun _ => trivial
theorem semaphorePoll : ∀ y0, Statement (.semaphorePoll y0) := fun _ => trivial
theorem pageWalk : ∀ y0, Statement (.pageWalk y0) := fun _ => trivial
theorem pageFaultResolve : ∀ y0, Statement (.pageFaultResolve y0) := fun _ => trivial
theorem threadEnd : ∀ y0, Statement (.threadEnd y0) := fun _ => trivial
theorem teamEnd : ∀ y0, Statement (.teamEnd y0) := fun _ => trivial
theorem taskEnd : ∀ y0, Statement (.taskEnd y0) := fun _ => trivial
theorem agreementPoint : ∀ y0, Statement (.agreementPoint y0) := fun _ => trivial
theorem agreementTimeout : ∀ y0, Statement (.agreementTimeout y0) := fun _ => trivial
theorem vote : ∀ y0, Statement (.vote y0) := fun _ => trivial
theorem dispatch : ∀ y0, Statement (.dispatch y0) := fun _ => trivial
theorem preempt : ∀ y0, Statement (.preempt y0) := fun _ => trivial
theorem fault : ∀ y0, Statement (.fault y0) := fun _ => trivial
theorem rebalance : ∀ y0, Statement (.rebalance y0) := fun _ => trivial
theorem rebalPeriod : ∀ y0, Statement (.rebalPeriod y0) := fun _ => trivial
theorem starveTimeout : ∀ y0, Statement (.starveTimeout y0) := fun _ => trivial
theorem stop : ∀ y0, Statement (.stop y0) := fun _ => trivial
theorem stopComplete : ∀ y0, Statement (.stopComplete y0) := fun _ => trivial
theorem teamResume : ∀ y0, Statement (.teamResume y0) := fun _ => trivial
theorem moveMessage : ∀ y0, Statement (.moveMessage y0) := fun _ => trivial
theorem stagehandSegment : ∀ y0, Statement (.stagehandSegment y0) := fun _ => trivial
theorem recordCompletion : ∀ y0, Statement (.recordCompletion y0) := fun _ => trivial
theorem collectiveRecordStart : ∀ y0, Statement (.collectiveRecordStart y0) := fun _ => trivial
theorem collectiveFrame : ∀ y0, Statement (.collectiveFrame y0) := fun _ => trivial
theorem holdFrame : ∀ y0 y1, Statement (.holdFrame y0 y1) := fun _ _ => trivial
theorem holdTimer : ∀ y0, Statement (.holdTimer y0) := fun _ => trivial
theorem collectiveTimeout : ∀ y0, Statement (.collectiveTimeout y0) := fun _ => trivial
theorem collectiveAbort : ∀ y0, Statement (.collectiveAbort y0) := fun _ => trivial
theorem scrub : ∀ y0, Statement (.scrub y0) := fun _ => trivial
theorem eccError : ∀ y0, Statement (.eccError y0) := fun _ => trivial
theorem clovoData : ∀ y0, Statement (.clovoData y0) := fun _ => trivial
theorem clovoAck : ∀ y0, Statement (.clovoAck y0) := fun _ => trivial
theorem clovoNakOrder : ∀ y0, Statement (.clovoNakOrder y0) := fun _ => trivial
theorem clovoNakFull : ∀ y0, Statement (.clovoNakFull y0) := fun _ => trivial
theorem retryExpiry : ∀ y0, Statement (.retryExpiry y0) := fun _ => trivial
theorem clovoOpen : ∀ y0, Statement (.clovoOpen y0) := fun _ => trivial
theorem clovoOpenack : ∀ y0, Statement (.clovoOpenack y0) := fun _ => trivial
theorem clovoClose : ∀ y0, Statement (.clovoClose y0) := fun _ => trivial
theorem ackTimer : ∀ y0, Statement (.ackTimer y0) := fun _ => trivial
theorem retransmitTimeout : ∀ y0, Statement (.retransmitTimeout y0) := fun _ => trivial
theorem connectionLost : ∀ y0, Statement (.connectionLost y0) := fun _ => trivial
theorem arpRequest : ∀ y0 y1, Statement (.arpRequest y0 y1) := fun _ _ => trivial
theorem neighbourSolicitation : ∀ y0 y1, Statement (.neighbourSolicitation y0 y1) := fun _ _ => trivial
theorem unsupportedFrame : ∀ y0, Statement (.unsupportedFrame y0) := fun _ => trivial
theorem launch : ∀ y0, Statement (.launch y0) := fun _ => trivial
theorem troupe : ∀ y0, Statement (.troupe y0) := fun _ => trivial
theorem troupeTwaitExpiry : ∀ y0, Statement (.troupeTwaitExpiry y0) := fun _ => trivial
theorem wait : ∀ y0, Statement (.wait y0) := fun _ => trivial
theorem signal : ∀ y0, Statement (.signal y0) := fun _ => trivial
theorem hostCopy : ∀ y0, Statement (.hostCopy y0) := fun _ => trivial
theorem cueLoad : ∀ y0, Statement (.cueLoad y0) := fun _ => trivial
theorem cueSwap : ∀ y0, Statement (.cueSwap y0) := fun _ => trivial
theorem partCreate : ∀ y0, Statement (.partCreate y0) := fun _ => trivial
theorem partDestroy : ∀ y0, Statement (.partDestroy y0) := fun _ => trivial
theorem rangeAcquire : ∀ y0, Statement (.rangeAcquire y0) := fun _ => trivial
theorem rangeRelease : ∀ y0, Statement (.rangeRelease y0) := fun _ => trivial
theorem ckptOpen : ∀ y0, Statement (.ckptOpen y0) := fun _ => trivial
theorem domain : ∀ y0, Statement (.domain y0) := fun _ => trivial
theorem restore : ∀ y0, Statement (.restore y0) := fun _ => trivial
theorem partner : ∀ y0, Statement (.partner y0) := fun _ => trivial
theorem jread : ∀ y0, Statement (.jread y0) := fun _ => trivial
theorem ckptCommit : ∀ y0, Statement (.ckptCommit y0) := fun _ => trivial
theorem commitEnd : ∀ y0 y1, Statement (.commitEnd y0 y1) := fun _ _ => trivial
theorem stallEnd : ∀ y0, Statement (.stallEnd y0) := fun _ => trivial
theorem replicaSegments : ∀ y0, Statement (.replicaSegments y0) := fun _ => trivial
theorem partnerAck : ∀ y0 y1, Statement (.partnerAck y0 y1) := fun _ _ => trivial
theorem partFreeze : ∀ y0, Statement (.partFreeze y0) := fun _ => trivial
theorem partResume : ∀ y0, Statement (.partResume y0) := fun _ => trivial
theorem imageOut : ∀ y0, Statement (.imageOut y0) := fun _ => trivial
theorem imageIn : ∀ y0, Statement (.imageIn y0) := fun _ => trivial
theorem connSet : ∀ y0, Statement (.connSet y0) := fun _ => trivial
theorem circuitLit : ∀ y0 y1, Statement (.circuitLit y0 y1) := fun _ _ => trivial
theorem readCuestat : ∀ y0, Statement (.readCuestat y0) := fun _ => trivial
theorem readSchedstat : ∀ y0, Statement (.readSchedstat y0) := fun _ => trivial
theorem dswap : ∀ y0, Statement (.dswap y0) := fun _ => trivial
theorem readAttestation : ∀ y0, Statement (.readAttestation y0) := fun _ => trivial
theorem qset : ∀ y0, Statement (.qset y0) := fun _ => trivial
theorem pstate : ∀ y0, Statement (.pstate y0) := fun _ => trivial
theorem cfgwrite : ∀ y0, Statement (.cfgwrite y0) := fun _ => trivial
theorem restartModule : ∀ y0, Statement (.restartModule y0) := fun _ => trivial
theorem handler : ∀ y0, Statement (.handler y0) := fun _ => trivial
theorem attach : ∀ y0, Statement (.attach y0) := fun _ => trivial
theorem detach : ∀ y0, Statement (.detach y0) := fun _ => trivial
theorem debugHalt : ∀ y0, Statement (.debugHalt y0) := fun _ => trivial
theorem debugResume : ∀ y0, Statement (.debugResume y0) := fun _ => trivial
theorem debugStep : ∀ y0, Statement (.debugStep y0) := fun _ => trivial
theorem stepTimeout : ∀ y0, Statement (.stepTimeout y0) := fun _ => trivial
theorem debugRead : ∀ y0, Statement (.debugRead y0) := fun _ => trivial
theorem debugWrite : ∀ y0, Statement (.debugWrite y0) := fun _ => trivial
theorem trapimg : ∀ y0, Statement (.trapimg y0) := fun _ => trivial
theorem wakeWrite : ∀ y0, Statement (.wakeWrite y0) := fun _ => trivial
theorem firmwareMailboxMessage : ∀ y0 y1 y2, Statement (.firmwareMailboxMessage y0 y1 y2) := fun _ _ _ => trivial
theorem greenRoom : ∀ y0, Statement (.greenRoom y0) := fun _ => trivial
theorem ps1Entry : Statement .ps1Entry := trivial
theorem powerOn : Statement .powerOn := trivial
theorem powerRemoved : Statement .powerRemoved := trivial
theorem coldStart : ∀ y0 y1, Statement (.coldStart y0 y1) := fun _ _ => trivial
theorem warmStart : ∀ y0 y1, Statement (.warmStart y0 y1) := fun _ _ => trivial
theorem dieReset : ∀ y0, Statement (.dieReset y0) := fun _ => trivial
theorem thermalHot : ∀ y0, Statement (.thermalHot y0) := fun _ => trivial
theorem thermalClear : Statement .thermalClear := trivial
theorem thermalTrip : ∀ y0, Statement (.thermalTrip y0) := fun _ => trivial
theorem thermalCooled : Statement .thermalCooled := trivial
theorem inFieldTest : Statement .inFieldTest := trivial
theorem inFieldTestDone : ∀ y0 y1, Statement (.inFieldTestDone y0 y1) := fun _ _ => trivial
theorem scoreHalving : Statement .scoreHalving := trivial
theorem illegalInstruction : ∀ y0 y1, Statement (.illegalInstruction y0 y1) := fun _ _ => trivial
theorem tileTransferCompletion : ∀ y0, Statement (.tileTransferCompletion y0) := fun _ => trivial
theorem partnerFetch : ∀ y0 y1 y2, Statement (.partnerFetch y0 y1 y2) := fun _ _ _ => trivial

end Laws.Encoding

end Sys2Proof
end

