-- ==== Sys2Proof/Laws/Traps.lean ====
section
/-!
SUPPORT. Taking a trap and returning from one: what enterTrap, raise and trapReturn do when the handler may be entered.
-/

namespace Sys2Proof.Machine

@[simp] theorem record_thr (s : State) (st : Stream) (c : Byte) (p a : Word) (cmd : Option Cmd) (d : Byte) (e : Word) :
    (record s st c p a cmd d e).thr = s.thr := by
  simp only [record]; rfl

@[simp] theorem record_mem (s : State) (st : Stream) (c : Byte) (p a : Word) (cmd : Option Cmd) (d : Byte) (e : Word) :
    (record s st c p a cmd d e).mem = s.mem := by
  simp only [record]; rfl

/-- What entering the handler does to the thread (R219). -/
theorem entered_pc (t : Thread) (st : Stream) (cause : Byte) (tpc taddr : Word) :
    ((t.entered st cause tpc taddr).st st).pc = t.sys.tvec + BitVec.ofNat 64 (handlerOffset st) := by
  cases st <;> simp only [Thread.entered, Thread.modSt, Thread.setSt, Thread.st, otherStream, handlerOffset] <;> rfl

theorem entered_other (t : Thread) (st : Stream) (cause : Byte) (tpc taddr : Word) :
    ((t.entered st cause tpc taddr).st (otherStream st)).stopped = true ∧ ((t.entered st cause tpc taddr).st (otherStream st)).pc = (t.st (otherStream st)).pc := by
  cases st <;> simp only [Thread.entered, Thread.modSt, Thread.setSt, Thread.st, otherStream, and_self]

theorem entered_tcause (t : Thread) (st : Stream) (cause : Byte) (tpc taddr : Word) :
    (t.entered st cause tpc taddr).sys.tcause = BitVec.ofNat 64 (cause.toNat + handlerOffset st) := by
  cases st <;> simp only [Thread.entered, handlerOffset]

theorem entered_tstat (t : Thread) (st : Stream) (cause : Byte) (tpc taddr : Word) :
    (t.entered st cause tpc taddr).sys.tstat = { t.sys.tstat with plvl := t.sys.tstat.lvl, lvl := true, rdy := false } := by
  cases st <;> simp only [Thread.entered, Thread.modSt, Thread.setSt, Thread.st, otherStream]

/-- With a handler and a cause that has been read, trap entry does what Entered says (R219). -/
theorem enterTrap_entered {s : State} (h : CanEnter s) (st : Stream) (cause : Byte) (tpc taddr : Word) (cmd : Option Cmd) :
    Entered s (enterTrap s st cause tpc taddr cmd) st cause tpc taddr := by
  obtain ⟨h1, h2⟩ := h
  have c1 : (s.thr.sys.tstat.lvl && !s.thr.sys.tstat.rdy) = false := by
    rcases h2 with h2 | h2 <;> simp [h2]
  have c2 : (s.thr.sys.tvec == 0) = false := by simpa using h1
  simp only [enterTrap, c1, c2, Bool.false_eq_true, ↓reduceIte]
  generalize hx : record s st cause tpc taddr cmd 0 0 = x
  have e1 : x.thr = s.thr := by rw [← hx, record_thr]
  have e2 : x.mem = s.mem := by rw [← hx, record_mem]
  clear hx c1 c2
  refine ⟨?_, ?_, ?_, ?_, ?_, ?_, ?_, ?_, ?_, fun a => by rw [modThr_mem, e2]⟩ <;> rw [modThr_thr, e1]
  · exact entered_pc ..
  · exact entered_other ..
  · exact entered_tcause ..
  · rfl
  · rfl
  · rfl
  · exact entered_tstat ..
  · cases st <;> simp only [Thread.entered, Thread.modSt, Thread.setSt, otherStream, and_self]
  · cases st <;> simp only [Thread.entered, Thread.modSt, Thread.setSt, otherStream, and_self]

/-- Causes that raise does not hand to the handler at once (R221, R361, R379). -/
def special (c : Byte) : Bool := c == 0x02 || c == 0x0A || c == 0x0B || c == 0x0C

theorem raise_trapTo (s : State) (st : Stream) (cause : Byte) (tpc taddr : Word) (cmd : Option Cmd) (h : special cause = false) :
    raise s st cause tpc taddr cmd = trapTo s st cause tpc taddr cmd := by
  simp only [special, Bool.or_eq_false_iff] at h
  obtain ⟨⟨⟨h1, h2⟩, h3⟩, h4⟩ := h
  simp only [raise, unwinds, h1, h2, h3, h4, Bool.or_self, Bool.false_eq_true, ↓reduceIte]

/-- A cause of the execute stream enters the handler when no cause of the access stream waits (R119, R219). -/
theorem raise_entered {s : State} (h : CanEnter s) (ht : s.thr.trap = none) (cause : Byte) (tpc taddr : Word) (cmd : Option Cmd)
    (hc : special cause = false) : Entered s (raise s .execute cause tpc taddr cmd) .execute cause tpc taddr := by
  rw [raise_trapTo _ _ _ _ _ _ hc]
  unfold trapTo
  simp only [ht]
  exact enterTrap_entered h ..

/-- A cause of the access stream is kept until the execute stream stops, and with it the count of R26 stands still (R119, R219). -/
theorem raise_access (s : State) (cause : Byte) (tpc taddr : Word) (cmd : Option Cmd) (hc : special cause = false) :
    raise s .access cause tpc taddr cmd = modThr s fun t =>
      { t with trap := some (t.trap.getD { stream := .access, cause := cause, tpc := tpc, taddr := taddr }), countOff := true } :=
  raise_trapTo _ _ _ _ _ _ hc

end Sys2Proof.Machine
end

