-- ==== Sys2Proof/Tests/Slice0.lean ====
section
/-!
SUPPORT. The model's own tests: ill-formed terms that the checks refuse, words of the spec that decode to their
instructions, small states that meet the hypotheses of each statement of Obligations.lean, and single steps whose
results the spec gives.
-/

set_option Elab.async false

namespace Sys2Proof.Tests

open Sys2Proof Sys2Proof.Machine

/-! ### Small states -/

/-- An image of one thread. -/
def img : KImage :=
  { threads := 1, vregs := 96, rotN := 4, accs := 6, spadUnits := 8, pclass := 0, qx := false, abase := 0x2000, acode := []
    ebase := 0x1000, ecode := [], dbase := 0, dlen := 0 }

def task : Task :=
  { id := 2, part := 0, queue := 0, seq := 0, troupe := false, state := .running, img := img, pclass := 0, caps := 0, nteams := 3
    pin := false, deps := [], depsMet := 0, mbs := [], next := 1, endedTeams := [], record := 0, conn := 0
    launch := List.replicate 128 0, restarts := 0, restart := [], avoid := [], enqueued := 0, watch := none }

def team : Team :=
  { id := 3, part := 0, task := 2, ix := 0, rep := 0, chip := 0, home := 0, status := .resident, stopFor := .none
    mb := #v[0x500000002, 0, 7, 0, 0, 0, 0, 0], mbLaunch := Vector.replicate 8 0, mig := false, since := 0, shadow := [], heldPages := []
    log := [], mbLog := [], trapRec := none, votePos := endPos, suspect := none, starts := 0, agreedEnd := false, dbgHalt := false
    awaits := none, moving := none, classN := false }

/-- A thread of that team: G1 = 12, G2 = -3, G3 = 0, G4 = 64, H1 = 0x1000, H2 = 5. -/
def thread : Thread :=
  { Thread.blank with
    tid := 1, live := true, resident := true, task := 2, team := 3, vregs := 96, rotN := 4, accs := 6, spadSize := 65536
    ex := { StreamState.blank with pc := 0x1000, ended := false }, ax := { StreamState.blank with pc := 0x2000, ended := false }
    g := Vector.ofFn fun i : Fin 32 => if i = 1 then 12 else if i = 2 then -3 else if i = 4 then 64 else 0
    h := Vector.ofFn fun i : Fin 16 => if i = 1 then 0x1000 else if i = 2 then 5 else 0 }

/-- A module in which that thread runs in partition 0; its execute stream issues. -/
def base : State :=
  { State.reset with
    thr := thread, teams := [team], tasks := [task]
    parts := Vector.ofFn fun i : Fin 8 => if i = 0 then { Partition.absent with present := true } else Partition.absent
    cores := Vector.ofFn fun i : Fin 192 => if i = 0 then { Core.fresh with owner := some 0 } else Core.fresh }

/-- The same with the access stream. -/
def acc : State := { base with cur := .access }

/-- The base state with another thread context. -/
def on (f : Thread → Thread) : State := { base with thr := f thread }
def onAcc (f : Thread → Thread) : State := { acc with thr := f thread }
def withSys (f : SysRegs → SysRegs) (t : Thread) : Thread := { t with sys := f t.sys }
def withQs (f : Queues → Queues) (t : Thread) : Thread := { t with qs := f t.qs }

theorem ready {s : State} {rs : List Reg} (h : (rs.all fun r => !pendingReg s.thr s.cur r) = true) : Ready s rs := by
  intro r hr
  simpa using List.all_eq_true.mp h r hr

theorem test_Ready : Ready base [1, 2, 3] := ready (by decide)
theorem test_ReadyA : Ready acc [1, 2, 3] := ready (by decide)

/-! ### Statements about scalar and control instructions -/

theorem waiting {s : State} {rs : List Reg} (h : (rs.any fun r => pendingReg s.thr s.cur r) = true) : Waiting s rs := by
  obtain ⟨r, hr, hp⟩ := List.any_eq_true.mp h
  exact ⟨r, hr, hp⟩

/-- ScalarResults, MultiplyAndDivideResults, ImmediateResults: in either stream; G3 = 0 is the zero divisor. -/
theorem witness_scalar : Ready base [5, 1, 2] ∧ Ready acc [5, 1, 2] ∧ Ready base [5, 1, 3] ∧ readReg base 3 = 0 ∧ readReg base 1 ≠ 0 :=
  ⟨ready (by decide), ready (by decide), ready (by decide), by decide, by decide⟩

/-- A load to H1 in flight. -/
def loadReq : LoadReq := { dst := .hreg 1, ea := 0x1000, pa := 0x10000001000, size := 4, signed := true, marks := 0 }

def h1Due : State := onAcc (withQs fun q => { q with loads := [loadReq] })
theorem witness_ScalarInterlock : Waiting h1Due (scalarReads (.add 5 1 2)) ∧ Waiting h1Due (scalarReads (.divu 5 2 1)) ∧ Waiting h1Due (scalarReads (.jalr 5 1)) ∧ Waiting h1Due (scalarReads (.beq 1 2 0)) ∧ Waiting h1Due (scalarWrites (.mov 1 5))
    ∧ scalarReads (.syswr 1 0x30) = [] :=
  ⟨waiting (by decide), waiting (by decide), waiting (by decide), waiting (by decide), waiting (by decide), rfl⟩

theorem witness_ConditionalBranches : Ready base [1, 2] ∧ readReg base 1 ≠ readReg base 2 ∧ readReg base 3 = readReg base 5 ∧ (readReg base 2).toInt < (readReg base 1).toInt :=
  ⟨ready (by decide), by decide, by decide, by decide⟩

theorem witness_QueueBranches : base.thr.qs.bq = [] ∧ (on (withQs fun q => { q with bq := [true, false] })).thr.qs.bq = true :: [false] := ⟨rfl, rfl⟩

theorem witness_JumpsAndLinks : Ready base [5] ∧ Ready base [5, 1] ∧ (readReg base 1).toNat % 4 = 0 ∧ Ready base [5, 2] ∧ (readReg base 2).toNat % 4 ≠ 0 :=
  ⟨ready (by decide), ready (by decide), by decide, ready (by decide), by decide⟩

/-- LoopStarts: no trips, trips without and with an epilogue (mailbox 0 holds 2 trips and 5 of epilogue), in both streams. -/
theorem witness_LoopStarts : Ready base [1] ∧ Ready base [3] ∧ (readReg base 3).toNat % 2 ^ 32 = 0 ∧ (readReg base 1).toNat % 2 ^ 32 ≠ 0 ∧ (readReg base 1).toNat / 2 ^ 32 % 16 = 0
    ∧ (mailbox base 0).toNat % 2 ^ 32 = 2 ∧ (mailbox base 0).toNat / 2 ^ 32 % 16 = 5 ∧ base.cur = .execute ∧ base.thr.vq = [] ∧ acc.cur = .access :=
  ⟨ready (by decide), ready (by decide), by decide, by decide, by decide, by decide, by decide, rfl, rfl, rfl⟩

/-- A stream at the last word of the body of level 1, with n trips and e of epilogue left. -/
def inLoop (n : Word32) (e : BitVec 4) (x : StreamState) : StreamState :=
  { x with loops := upd x.loops 1 { lc := n, start := x.pc - 8, endA := x.pc, epi := e, active := true }, order := [1] }

def loopE (n : Word32) (e : BitVec 4) : State := on fun t => { t with ex := inLoop n e t.ex }
def loopA (n : Word32) : State := onAcc fun t => { t with ax := inLoop n 0 t.ax }

theorem witness_LoopBack : (∀ s ∈ [loopE 2 0, loopE 2 1, loopE 1 0, loopA 2, loopA 1], s.stream.order = [1] ∧ (getLoop s.stream 1).active = true ∧ (getLoop s.stream 1).endA = s.pc) ∧ Ready (loopE 2 0) [5, 1]
    ∧ Ready (loopA 2) [5, 1] ∧ 1 < (getLoop (loopE 2 0).stream 1).lc.toNat ∧ (getLoop (loopE 1 0).stream 1).lc.toNat ≤ 1 ∧ (getLoop (loopE 2 1).stream 1).epi ≠ 0 :=
  ⟨by decide, ready (by decide), ready (by decide), by decide, by decide, by decide⟩

theorem test_loop_back : (match exec (.mov 5 1) (loopE 2 0) with | .next t => t.pc == 0xFF8 && t.thr.pbase == 7 && t.thr.vbase == 3 | _ => false) = true := by decide

theorem witness_RotationAndMailboxReads : Ready base [5] ∧ Ready base [1] ∧ findTeam base base.thr.team = some team ∧ base.thr.sys.tstat.pclass ≠ 2 :=
  ⟨ready (by decide), ready (by decide), by decide, by decide⟩

def g1is (v : Word) (t : Thread) : Thread := { t with g := upd t.g 1 v }
def cropen (t : Thread) : Thread := withSys (fun y => { y with tstat := { y.tstat with cropen := true } }) t

theorem witness_MailboxPut : Ready base [1, 2] ∧ base.thr.sys.tstat.pclass ≠ 2 ∧ base.thr.qs.sdq = [] ∧ base.thr.vq = [] ∧ base.thr.mq = [] ∧ base.thr.inRegion = false ∧ (∀ m ∈ base.thr.ex.marks, m.kind ≠ .cro) ∧ base.thr.late = []
    ∧ findTask base base.thr.task = some task ∧ task.nteams ≤ (readReg base 1).toNat ∧ (readReg base 3).toNat < task.nteams ∧ (∃ u ∈ base.teams, u.task = base.thr.task ∧ u.ix = (readReg base 3).toNat)
    ∧ (readReg (on (g1is 2)) 1).toNat < task.nteams ∧ (∀ u ∈ (on (g1is 2)).teams, ¬ (u.task = (on (g1is 2)).thr.task ∧ u.ix = 2)) ∧ 2 ∉ task.endedTeams ∧ (on cropen).thr.inRegion = true
    ∧ (on (withQs fun q => { q with sdq := [1] })).thr.qs.sdq ≠ [] :=
  ⟨ready (by decide), by decide, rfl, rfl, rfl, by decide, by decide, rfl, by decide, by decide, by decide, by decide, by decide, by decide, by decide, by decide, by decide⟩

/-- The team of index 2 has ended. -/
def endedTwo : State := { on (g1is 2) with tasks := [{ task with endedTeams := [2] }] }
theorem witness_MailboxPut_ended : findTask endedTwo endedTwo.thr.task = some { task with endedTeams := [2] } ∧ (∀ u ∈ endedTwo.teams, ¬ (u.task = endedTwo.thr.task ∧ u.ix = 2)) ∧ (readReg endedTwo 1).toNat < 3 := by decide

/-! ### Statements about memory and the access stream -/

/-- A heap window over the addresses below 1 MiB. -/
def win : Thread → Thread := withSys fun y => { y with hbase := 0, hlimit := 0x100000, hoff := 0x10000000000 }

/-- The access stream with that window, with eight bytes of memory at H1. -/
def wacc : State := { onAcc win with mem := setCells [] 0x10000001000 [0xF1, 0xFF, 3, 4, 5, 6, 7, 0x88] }

/-- A page of the TLB that covers H1, which may be read and written; and a base with it. -/
def page : TlbEntry := { va := 0x1000, size := 4096, pte := 0x1000000508F, pteAddr := 0x10000100000 }
def tacc : State :=
  { acc with cores := acc.cores.set 0 { Core.fresh with owner := some 0, tlb := [page] }
             mem := setCells (setCells [] 0x10000100000 (leBytes 8 0x1000000508F)) 0x10000005000 [9, 0, 0, 0, 7] }

theorem witness_MemoryReadsBack : Memory.wf wacc.mem = true ∧ (0x10000000FFF < 0x10000001000 ∧ 0x10000001000 + 8 ≤ 0x10000001008) := by decide +kernel

/-- AddressCheckOrder: each clause, at the ends of its range. -/
theorem witness_AddressCheckOrder : (0x1004 : Word).toNat % 2 ^ 3 ≠ 0 ∧ (0x1000 : Word).toNat % 2 ^ 6 = 0 ∧ 2 ^ 57 ≤ (0x200000000000000 : Word).toNat
    ∧ wacc.thr.sys.hbase.toNat < wacc.thr.sys.hlimit.toNat ∧ wacc.thr.sys.hbase.toNat ≤ (0xFFFF8 : Word).toNat ∧ (0xFFFF8 : Word).toNat + 8 - 1 < wacc.thr.sys.hlimit.toNat
    ∧ wacc.thr.sys.hlimit.toNat ≤ (0x100000 : Word).toNat + 8 - 1 ∧ Config.backed (0x10000000000 + 0xFFFF8) = true ∧ Config.backed (0x10000000000 + 0xFFFF8 + 7) = true
    ∧ acc.thr.sys.hlimit.toNat ≤ acc.thr.sys.hbase.toNat ∧ tlbFind acc acc.thr.core 0x1000 = none ∧ tlbFind tacc tacc.thr.core 0x1FF8 = some page
    ∧ leafAllows page.pte.toNat .load = true ∧ leafAllows 0x10000005083 .load = false ∧ Config.backed (leafPA page.pte.toNat page.size 0x1FF8) = true := by decide +kernel

theorem witness_LoadsGoInFlight : Ready wacc [2, 1] ∧ held wacc = false ∧ (∀ n ∈ [1, 2, 4, 8], translate wacc wacc.thr .load 0x1000 n n true = .ok 0x10000001000 none ∧ poisonFor wacc wacc.thr 0x10000001000 n = false)
    ∧ BitVec.ofNat 64 ((readReg wacc 1).toNat + (0 : BitVec 12).toNat * 8) = 0x1000 := ⟨ready (by decide +kernel), by decide +kernel⟩

theorem witness_QueueLoadsGoInFlight : Ready wacc [1] ∧ held wacc = false ∧ (nth wacc.thr.qs.ldq 3 []).length < 64
    ∧ 64 ≤ (nth (onAcc (withQs fun q => { q with ldq := upd q.ldq 3 (List.replicate 64 none) })).thr.qs.ldq 3 []).length := ⟨ready (by decide +kernel), by decide +kernel⟩

/-- AccessFaults: misaligned, heap window limit, page fault and miss. -/
theorem witness_AccessFaults : Ready wacc [3, 1] ∧ Ready wacc [2] ∧ wacc.thr.qs.saq.length < 64 ∧ translate wacc wacc.thr .load 0x1004 8 8 true = .fault 0x04
    ∧ translate wacc wacc.thr .load 0x100000 8 8 true = .fault 0x07 ∧ translate tacc tacc.thr .store 0x200000000000000 8 8 true = .fault 0x06 ∧ translate tacc tacc.thr .load 0x200000000000000 8 8 true = .fault 0x05
    ∧ translate acc acc.thr .load 0x1000 8 8 true = .miss ∧ outstanding acc acc.thr.core < 768
    ∧ 768 ≤ outstanding (onAcc (withQs fun q => { q with loads := List.replicate 768 loadReq })) 0 := ⟨ready (by decide +kernel), ready (by decide +kernel), by decide +kernel⟩

/-- A signed load of four bytes, and one to LDQ 2, in flight. -/
def loading (d : LoadDst) : State := { wacc with thr := withQs (fun q => { q with loads := [{ loadReq with dst := d, size := 8 }], ldq := upd q.ldq 2 [none, none] }) wacc.thr }

/-- The thread selected is the one that issues. -/
theorem focus_self {s : State} {n : Nat} (h : s.thr.tid = n) : focus s n = some s := by simp [focus, h]

theorem witness_LoadReturns : (∀ d ∈ [LoadDst.hreg 5, .ldq 2], (loading d).thr.tid = 1 ∧ (loading d).thr.qs.loads = [{ loadReq with dst := d, size := 8 }] ∧ (loading d).thr.live = true ∧ (loading d).thr.resident = true ∧ poisonedIn (loading d) 0x10000001000 8 = false)
    ∧ PlainThread (loading (.ldq 2)).thr := ⟨by decide +kernel, by unfold PlainThread; decide⟩

theorem test_load_sign_extends : (match exec (.loadReturn 1) { loading (.hreg 5) with thr := withQs (fun q => { q with loads := [{ loadReq with dst := .hreg 5, size := 1 }] }) wacc.thr } with
    | .next t => readH t.thr 5 == 0xFFFFFFFFFFFFFFF1 | _ => false) = true := by decide +kernel

theorem witness_StoreAddresses : Ready tacc [1] ∧ tacc.thr.qs.saq.length < 64 ∧ (∀ n ∈ [1, 2, 4, 8], translate tacc tacc.thr .store 0x1000 n n true = .ok 0x10000005000 (some 0x10000100000))
    ∧ translate wacc wacc.thr .store 0x1000 8 8 true = .ok 0x10000001000 none ∧ Memory.wf tacc.mem = true
    ∧ 64 ≤ (onAcc (withQs fun q => { q with saq := List.replicate 64 { ea := 0, pa := 0, size := 8, marks := 0 } })).thr.qs.saq.length := ⟨ready (by decide +kernel), by decide +kernel⟩

theorem test_store_address_sets_dirty : (match exec (.saw 1 0) tacc with | .next t => getLe t.mem 0x10000100000 8 == 0x100000050CF | _ => false) = true := by decide +kernel

theorem witness_QueueTransfers : Ready acc [2] ∧ acc.thr.qs.sdq.length < 64 ∧ acc.thr.qs.xq = [] ∧ nth acc.thr.qs.ldq 2 [] = []
    ∧ (let q := (onAcc (withQs fun q => { q with sdq := List.replicate 64 0, xq := List.replicate 16 7, bq := List.replicate 64 true, ldq := upd (upd q.ldq 0 [none]) 1 [some 9] })).thr.qs
       64 ≤ q.sdq.length ∧ 16 ≤ q.xq.length ∧ 64 ≤ q.bq.length ∧ nth q.ldq 0 [] = none :: [] ∧ nth q.ldq 1 [] = some 9 :: [] ∧ q.xq = 7 :: List.replicate 15 7) := ⟨ready (by decide +kernel), by decide +kernel⟩

/-- A store pair: address 0x1000 and the data of SDQ; in a region it goes to the Wings. -/
def paired (f : Thread → Thread) : State :=
  { wacc with thr := f (withQs (fun q => { q with saq := [{ ea := 0x1000, pa := 0x10000001000, size := 4, marks := 0 }], sdq := [0x1122334455667788] }) wacc.thr) }

theorem witness_StorePairs : (∀ s ∈ [paired id, paired cropen], s.thr.tid = 1 ∧ s.thr.live = true ∧ s.thr.resident = true ∧ s.thr.sys.tstat.pclass ≠ 2 ∧ Memory.wf s.mem = true ∧ 0 ≤ s.thr.qs.pairsFormed
      ∧ earlierPending s.thr 0 = false ∧ commitHolds s 0x10000001000 4 = false ∧ s.thr.forced = false)
    ∧ behindCrc (paired id).thr 0 = false ∧ (paired id).thr.inRegion = false ∧ (paired cropen).thr.inRegion = true ∧ regionStore (paired cropen).thr 0 false = true ∧ behindCrc (paired cropen).thr 0 = false ∧ (intoWings (paired cropen) (paired cropen).thr 0x10000001000 [0x88, 0x77, 0x66, 0x55] false 0 false (some 0) 0 (viaTable (paired cropen).thr 0x1000)).isSome = true := by decide +kernel

theorem test_store_writes_little_endian : (match exec (.storePairing 1) (paired id) with
    | .next t => getCells t.mem 0x10000001000 5 == [0x88, 0x77, 0x66, 0x55, 5] && t.thr.qs.saq.isEmpty && t.thr.qs.paired == 1 | _ => false) = true := by decide +kernel

def mark (k : MarkKind) (n : Nat) : Mark :=
  { kind := k, total := n, cmdix := 0, pc := 0x2000, handler := 0, regs := List.replicate 16 5, traffic := { ldq := Vector.replicate 4 0, bq := 0, xq := 0 } }

theorem witness_Marks : acc.thr.ex.marks = [] ∧ acc.thr.ax.marks.length < 8 ∧ 8 ≤ (onAcc fun t => { t with ax := { t.ax with marks := List.replicate 8 (mark .mark 0) } }).thr.ax.marks.length
    ∧ (on fun t => { t with ax := { t.ax with marks := [mark .mark 0] } }).thr.ax.marks = mark .mark 0 :: [] ∧ (mark .mark 0).kind = .mark ∧ (mark .mark 0).total = base.thr.qs.sdqTot ∧ (mark .mark 1).total ≠ base.thr.qs.sdqTot ∧ base.thr.trap = none ∧ base.thr.dueEx = none := by decide +kernel

/-- Registers of a transfer: scratchpad address in H3, memory address in H1, descriptor in H4. -/
def moves (d : Word) : State := { wacc with thr := { wacc.thr with h := upd (upd wacc.thr.h 3 0) 4 d } }
def xfer (k : XferKind) (d : Word) : Xfer := { kind := k, spa := 0, mem := 0x1000, desc := d, pc := 0x2000, faulted := false, marks := 0 }

/-- The one unit of a tile of 64 bytes. -/
def unit64 (n : Nat) : XferUnit := { ea := 0x1000, off := 0, size := n, pa := 0x10000001000, pte := none }

/-- A tile load, and a gather of one element of 4 bytes: descriptors without reserved bits whose sizes are not 0, at the largest reserved field and just above. -/
theorem witness_TransfersStart : Ready (moves 0) [3, 1, 4] ∧ held (moves 0) = false ∧ (readReg (moves 0x10000000000) 4).toNat / 2 ^ 40 ≠ 0 ∧ (readReg (moves 0xFFFFFFFFFF) 4).toNat / 2 ^ 40 = 0 ∧ (readReg (moves 0) 4).toNat % 256 = 0
    ∧ (readReg (moves 0x2001) 4).toNat / 2 ^ 13 % 8 ≠ 0 ∧ 4096 < (readReg (moves 0x1001) 4).toNat % 2 ^ 13 ∧ (readReg (moves 0x2000000000) 4).toNat / 2 ^ 37 ≠ 0
    ∧ checkXfer (moves 0x101) (xfer .tld 0x101) = .go ∧ (∀ e ∈ xferExtents (moves 0x101) (moves 0x101).thr (xfer .tld 0x101), xferBusy (moves 0x101) (moves 0x101).thr e = false)
    ∧ [unit64 64].map (fun u => (u.ea, u.off, u.size)) = xferUnits (moves 0x101) (moves 0x101).thr (xfer .tld 0x101)
    ∧ (∀ k ∈ [Kind.load, .store], translate (moves 0x101) (moves 0x101).thr k 0x1000 64 64 true = .ok 0x10000001000 none)
    ∧ checkXfer (moves 0x40010001) (xfer .gth 0x40010001) = .go ∧ poisonFor (moves 0x40010001) (moves 0x40010001).thr 0x10000001000 4 = false ∧ behindCrc (moves 0x101).thr 0 = false ∧ reissued (moves 0x101).thr 0x2000 = false := ⟨ready (by decide +kernel), by decide +kernel⟩

theorem test_tile_load_starts : (match exec (.tld 3 1 4) (moves 0x101) with | .next t => t.thr.qs.xfers == [{ xfer .tld 0x101 with units := [unit64 64] }] && t.pc == 0x2004 | _ => false) = true := by decide +kernel

/-- Another transfer of the thread holds the banks of the one that would start. -/
def busy : State := { moves 0x101 with thr := withQs (fun q => { q with xfers := [{ xfer .tld 0x101 with units := [unit64 64] }] }) (moves 0x101).thr }
theorem witness_TransfersStart_locked : checkXfer busy (xfer .tld 0x101) = .go ∧ (∃ e ∈ xferExtents busy busy.thr (xfer .tld 0x101), xferBusy busy busy.thr e = true) := by decide +kernel

/-- The oldest transfer in flight, a load, and the same as a store. -/
def stores64 : State := { moves 0x101 with thr := withQs (fun q => { q with xfers := [{ xfer .tst 0x101 with units := [unit64 64] }] }) (moves 0x101).thr }
theorem witness_TransfersComplete : (∀ s ∈ [busy, stores64], s.thr.tid = 1 ∧ s.thr.live = true ∧ s.thr.resident = true ∧ s.thr.sys.tstat.pclass ≠ 2 ∧ s.thr.forced = false ∧ s.picks = [] ∧ s.thr.qs.xfers.findIdx? (fun y => !y.faulted) = some 0
      ∧ (spaTarget s s.thr 0).map (·.tid) = some 1 ∧ poisonedIn s 0x10000001000 64 = false ∧ commitHolds s 0x10000001000 64 = false ∧ regionStore s.thr 0 false = false ∧ Memory.wf s.mem = true)
    ∧ (∀ y ∈ busy.thr.qs.xfers, y.kind = .tld ∨ (y.kind = .gth ∧ ∀ u ∈ y.units, poisonFor busy busy.thr u.pa u.size = false)) := by decide +kernel

theorem test_tile_load_moves_a_unit : (match exec (.tileTransferCompletion 1) busy with | .next t => getCells t.thr.spad 0 8 == [0xF1, 0xFF, 3, 4, 5, 6, 7, 0x88] && t.thr.qs.xfers.isEmpty | _ => false) = true := by decide +kernel

theorem witness_Spill : Ready acc [2] ∧ held acc = false ∧ Ready base [1] ∧ base.thr.ex.marks = [] ∧ Memory.wf base.thr.spill = true := ⟨ready (by decide +kernel), by decide +kernel, ready (by decide +kernel), rfl, rfl⟩

theorem witness_Atomics : Ready wacc [3, 1, 2] ∧ wacc.cur = .access ∧ held wacc = false ∧ wacc.thr.sys.tstat.pclass ≠ 2 ∧ wacc.thr.inRegion = false ∧ readReg wacc 1 = 0x1000
    ∧ (∀ n ∈ [4, 8], translate wacc wacc.thr .store 0x1000 n n true = .ok 0x10000001000 none ∧ poisonedIn wacc 0x10000001000 n = false) ∧ outstanding wacc wacc.thr.core < 768 := ⟨ready (by decide +kernel), by decide +kernel⟩

/-- A 32-bit amadd of 5 in flight to H3. -/
def atomReq (op : AtomOp) (cmp : Nat) : LoadReq :=
  { dst := .hreg 3, ea := 0x1000, pa := 0x10000001000, size := 4, signed := false, marks := 0, atom := some { op := op, n := 32, b := 5, cmp := cmp, scope := .dev, pte := none, res := none } }
def adding (op : AtomOp) (cmp : Nat) : State := { wacc with thr := withQs (fun q => { q with loads := [atomReq op cmp] }) wacc.thr }

theorem witness_Atomics_return : (adding .madd 0).thr.tid = 1 ∧ (adding .madd 0).thr.qs.loads = [atomReq .madd 0] ∧ poisonedIn (adding .madd 0) 0x10000001000 4 = false ∧ commitHolds (adding .madd 0) 0x10000001000 4 = false ∧ Memory.wf (adding .madd 0).mem = true
    ∧ getLe (adding .madd 0).mem 0x10000001000 4 = 0x403FFF1 ∧ AtomicValue .madd 32 0x403FFF1 5 0 = some 0x403FFF6 ∧ AtomicValue .mcas 32 0x403FFF1 5 0 = none := by decide +kernel

theorem test_atomic_issues : (match exec (.amadd 3 1 2 .dev false) wacc with | .next t => t.thr.qs.loads == [{ atomReq .madd 0 with pc := 0x2000 }] && t.pc == 0x2004 | _ => false) = true := by decide +kernel
theorem test_atomic_add_32 : (match exec (.loadReturn 1) (adding .madd 0) with | .next t => readH t.thr 3 == 0x403FFF1 && getLe t.mem 0x10000001000 8 == 0x880706050403FFF6 | _ => false) = true := by decide +kernel

theorem witness_ReleaseAcquireFence : acc.thr.inRegion = false ∧ acc.cur = .access ∧ acc.thr.qs.saq = [] ∧ acc.thr.qs.loads = [] ∧ acc.thr.qs.xfers = [] ∧ (paired id).thr.qs.saq ≠ [] ∧ (loading (.ldq 2)).thr.qs.loads ≠ []
    ∧ base.cur = .execute ∧ base.thr.qs.sdq = [] ∧ base.thr.vq = [] ∧ base.thr.mq = [] ∧ { paired id with cur := .execute }.thr.qs.sdq ≠ [] ∧ (base.part 0).domain = none := by decide +kernel

/-! ### Statements about commands, semaphores, interrupts and ensembles -/

/-- The execute stream with the window of `win`, G1 = 0x1000 and a COPY record in G8 to G15. -/
def wexec (f : Thread → Thread) : State :=
  { wacc with cur := .execute, thr := f (win { g1is 0x1000 thread with g := Vector.ofFn fun i : Fin 32 => if i = 1 then 0x1000 else if i = 2 then 7 else if i = 8 then 1 else if i = 9 then 0x4000 else if i = 10 then 0x8000 else if i = 11 then 64 else 0 }) }

def record8 : List Word := (List.range 8).map fun k => readG (wexec id).thr (8 + k)

theorem witness_PushEnqueues : Ready (wexec id) (5 :: (List.range 8).map fun k => (8 : Reg) + BitVec.ofNat 5 k) ∧ record8.getD 0 0 = 1 ∧ (record8.getD 3 0).toNat < 2 ^ 48 ∧ record8.getD 4 0 = 0 ∧ record8.getD 5 0 = 0
    ∧ record8.getD 6 0 = 0 ∧ record8.getD 7 0 = 0 ∧ (39 : BitVec 6).toNat < 40 ∧ (wexec id).thr.inRegion = false ∧ (wexec id).thr.sys.tstat.pclass ≠ 2 ∧ (wexec id).thr.qs.sdq = [] ∧ (wexec id).thr.vq = [] ∧ (wexec id).thr.mq = []
    ∧ (wexec id).thr.ex.marks = [] ∧ (∃ m ∈ [mark .cro 0], m.kind = .cro) ∧ earlierPending (wexec id).thr (wexec id).thr.qs.pairsFormed = false ∧ (wexec (withQs fun q => { q with sdq := [1] })).thr.qs.sdq ≠ [] := ⟨ready (by decide), by decide +kernel⟩

def engRec (st : EngStatus) (n : Nat) : EngRec :=
  { id := 100 + n, part := 0, eng := 39, tid := 1, owner := (2, 0, 0), words := record8, seq := n, bytes := 0, status := st, faulted := false, faddr := 0, code := 0, detail := 0, coll := none }

/-- A full queue of an engine other than engine 0 has 16 records. -/
theorem witness_PushEnqueues_full : 16 ≤ ((List.range 16).map (engRec .queued)).length ∧ ∀ r ∈ (List.range 16).map (engRec .queued), r.part = 0 ∧ r.eng = 39 := by decide +kernel

theorem test_push_enqueues : (match exec (.push 5 8 39) (wexec id) with | .next t => readReg t 5 == 0 && t.eng.length == 1 && t.pc == 0x1004 | _ => false) = true := by decide +kernel
theorem test_push_full : (match exec (.push 5 8 39) { wexec id with eng := (List.range 16).map (engRec .queued) } with | .next t => readReg t 5 == 1 && t.eng.length == 16 | _ => false) = true := by decide +kernel

def tvec (t : Thread) : Thread := withSys (fun y => { y with tvec := 0x8000 }) t

theorem canEnter {s : State} (h : (s.thr.sys.tvec != 0 && (!s.thr.sys.tstat.lvl || s.thr.sys.tstat.rdy)) = true) : CanEnter s := by
  simp only [Bool.and_eq_true, Bool.or_eq_true, bne_iff_ne, Bool.not_eq_true'] at h
  exact h

theorem witness_PushRejects : recFirstBad ((List.range 8).map fun k => readG (wexec tvec).thr (16 + k)) 0 = some 0 ∧ CanEnter (wexec tvec) ∧ (wexec tvec).thr.trap = none
    ∧ Ready (wexec tvec) (5 :: (List.range 8).map fun k => (16 : Reg) + BitVec.ofNat 5 k) := ⟨by decide +kernel, canEnter (by decide), rfl, ready (by decide)⟩

def sem (v : Nat) (f : Thread → Thread) : State := { wexec f with mem := setCells [] 0x10000001000 (leBytes 8 v) }

theorem witness_Semaphores : Ready (sem 7 id) [5, 1, 2] ∧ (sem 7 id).thr.rep ≠ 2 ∧ poisonedIn (sem 7 id) 0x10000001000 8 = false ∧ translate (sem 7 id) (sem 7 id).thr .load 0x1000 8 8 true = .ok 0x10000001000 none
    ∧ translate (sem 7 id) (sem 7 id).thr .store 0x1000 8 8 true = .ok 0x10000001000 none ∧ (sem 7 id).thr.wait = .none ∧ (readReg (sem 7 id) 2).toNat ≤ 7 ∧ 6 < (readReg (sem 6 id) 2).toNat ∧ (sem 6 id).thr.core < 192
    ∧ Memory.wf (sem 7 id).mem = true ∧ commitHolds (sem 7 id) 0x10000001000 8 = false ∧ (((sem 6 id).core 0).watches.filter fun w => w.tid ≠ (sem 6 id).thr.tid).length < 16 := ⟨ready (by decide), by decide +kernel⟩

theorem test_swait_waits : (match exec (.swait 5 1 2) (sem 6 id) with | .next t => t.thr.wait == .swait 0x10000001000 0x1000 7 none && t.pc == 0x1000 | _ => false) = true := by decide +kernel
theorem test_ssig_wraps : (match exec (.ssig 5 1 2) (sem 0xFFFFFFFFFFFFFFFF id) with | .next t => readReg t 5 == 0xFFFFFFFFFFFFFFFF && getLe t.mem 0x10000001000 8 == 6 | _ => false) = true := by decide +kernel

def waits (f : Thread → Thread) (t : Thread) : Thread := f { t with wait := .swait 0x10000001000 0x1000 7 none }

theorem witness_SemaphoreWaitEnds : (sem 7 (waits id)).thr.wait = .swait 0x10000001000 0x1000 7 none ∧ Ready (sem 7 (waits id)) [5, 1, 2] ∧ (sem 7 (waits id)).thr.pairRes = none ∧ (sem 7 (waits id)).thr.unwindDue = [] ∧ readReg (sem 7 (waits id)) 1 = 0x1000 ∧ readReg (sem 7 (waits id)) 2 = 7 ∧ (∀ c ∈ (sem 7 (waits id)).cores, ∀ w ∈ c.watches, w.tid ≠ 1)
    ∧ BitVec.ofNat 64 (getLe (sem 7 (waits id)).mem 0x10000001000 8) = 7 := ⟨rfl, ready (by decide), rfl, by decide +kernel⟩

/-- A watch is armed, and the far unit has a notice for it. -/
def noticed : State := { sem 7 (waits id) with cores := (sem 7 id).cores.set 0 { Core.fresh with owner := some 0, watches := [{ pa := 0x10000001000, tid := 1, value := 6 }] }, notices := [{ pa := 0x10000001000, value := 7, dest := .thread 1 }] }

theorem witness_SemaphoreNotices : noticed.notices = [{ pa := 0x10000001000, value := 7, dest := .thread noticed.thr.tid }] ∧ noticed.thr.core < 192 ∧ (∀ w ∈ noticed.others, w.tid ≠ noticed.thr.tid) ∧ noticed.thr.wait = .swait 0x10000001000 0x1000 7 none
    ∧ (∃ w ∈ (noticed.core noticed.thr.core).watches, w.pa = 0x10000001000 ∧ w.tid = noticed.thr.tid) := by decide +kernel

theorem test_notice_wakes : (match exec (.semaphoreNotice 0x10000001000) noticed with | .next t => t.thr.wait == .swait 0x10000001000 0x1000 7 (some 7) && t.notices.isEmpty | _ => false) = true := by decide +kernel

def uli (t : Thread) : Thread := { withSys (fun y => { y with ulivec := 0x9000 }) t with uli := [{ status := 1, bytes := 64, engine := 3 }, { status := 2, bytes := 0, engine := 4 }], ovf := true }

theorem witness_UserInterruptDelivery : uliReady (on uli).thr = true ∧ debugHeld (on uli) (on uli).thr = false ∧ (on uli).thr.sys.tstat.pclass ≠ 2 ∧ (on uli).thr.uli = { status := 1, bytes := 64, engine := 3 } :: [{ status := 2, bytes := 0, engine := 4 }] := by decide
theorem test_uli_delivery : (match exec (.uliDelivery 1) (on uli) with | .next t => t.thr.ex.pc == 0x9000 && readG t.thr 25 == 0x8000000000000003 && readG t.thr 26 == 64 && t.thr.sys.uliret == 0x1000 | _ => false) = true := by decide +kernel

def inHandler (t : Thread) : Thread := withSys (fun y => { y with uliret := 0x1010, tstat := { y.tstat with ulih := true, uim := true } }) t
theorem witness_UserInterruptReturn : (on inHandler).thr.sys.tstat.ulih = true ∧ base.thr.sys.tstat.ulih = false ∧ Ready base [5, 1] := ⟨rfl, rfl, ready (by decide)⟩

/-- An ensemble of this thread's member and another; its handle in G1. -/
def me : Nat × Nat × Nat := (2, 0, 0)
def ens (mem : List ((Nat × Nat × Nat) × Bool)) : Ensemble := { slot := 4, gen := 1, part := 0, members := mem, done := 8 }
def inEns (w : Wait) (mem : List ((Nat × Nat × Nat) × Bool)) : State := { on (fun t => g1is 0x10004 { t with wait := w }) with ensembles := [ens mem] }

theorem witness_EnsembleRequests : Ready base [5, 1, 2] ∧ base.thr.inRegion = false ∧ findEnsemble base base.thr 12 = none ∧ readReg (inEns .none []) 1 = 0x10004 ∧ readReg (inEns .none []) 3 = 0 :=
  ⟨ready (by decide), by decide +kernel⟩
theorem witness_EnsembleRequests_found : ∀ m ∈ [[], [(me, false), ((2, 1, 0), true)]], findEnsemble (inEns .none m) (inEns .none m).thr 0x10004 = some (ens m) := by decide +kernel
theorem witness_EnsembleRequests_selects : ([1, 2, 3].all fun k : Word => readReg (on (g1is k)) 1 == k) = true := by decide +kernel
theorem witness_EnsembleRequests_member : (∃ x ∈ (ens [(me, false)]).members, x.1 = me) ∧ (∀ x ∈ (ens [((2, 1, 0), true)]).members, x.1 ≠ me) ∧ (ens []).members.length < 65535 := by decide +kernel
theorem witness_EnsembleRequests_full : ((inEns .none []).ensembles.filter fun f => f.has me).length < 8 ∧ 8 ≤ ((List.replicate 8 (ens [(me, false)])).filter fun f => f.has me).length ∧ base.ensembles.length < 4096 := by decide +kernel

theorem test_ecreate : (match exec (.ecreate 5) base with | .next t => t.ensembles.map (·.members) == [[(me, false)]] && t.pc == 0x1004 | _ => false) = true := by decide +kernel

theorem witness_EnsembleBarrier : Ready base [5, 1] ∧ base.thr.rep ≠ 2 ∧ base.thr.ex.marks = [] ∧ earlierPending base.thr base.thr.qs.pairsFormed = false ∧ base.thr.wait = .none ∧ findEnsemble base base.thr 12 = none
    ∧ (∀ m ∈ [[((2, 1, 0), true)], [(me, false), ((2, 1, 0), true)], [((2, 2, 0), true), (me, false), ((2, 1, 0), true)], [(me, false), ((2, 1, 0), false), ((2, 2, 0), true)]], findEnsemble (inEns .none m) (inEns .none m).thr 0x10004 = some (ens m)) ∧ (ens []).done < 2 ^ 61
    ∧ (∃ x ∈ [((2, 2, 0), true), (me, false), ((2, 1, 0), true)], x.1 = me) ∧ (∀ x ∈ [((2, 2, 0), true), (me, false), ((2, 1, 0), true)], x.1 ≠ me → x.2 = true) ∧ (∃ x ∈ [(me, false), ((2, 1, 0), false), ((2, 2, 0), true)], x.1 ≠ me ∧ x.2 = false)
    ∧ (∀ n ∈ [8, 7], (inEns (.ebar 0x10004 n) []).thr.wait = .ebar 0x10004 n) ∧ (ens []).done = 8 ∧ (ens []).done ≠ 7 := ⟨ready (by decide), by decide +kernel⟩

theorem test_barrier_completes : (match exec (.ebar 5 1) (inEns .none [(me, false), ((2, 1, 0), true)]) with
    | .next t => readReg t 5 == 0 && t.pc == 0x1004 && t.ensembles.map (·.done) == [9] && t.ensembles.map (·.members) == [[(me, false), ((2, 1, 0), false)]] | _ => false) = true := by decide +kernel

/-! ### Statements about system registers, traps, regions and waits -/

/-- Supervisor level. -/
def sup (t : Thread) : Thread := withSys (fun y => { y with tstat := { y.tstat with lvl := true } }) t
/-- A command that writes no register waits in the vector queue. -/
def vecCmd (i : Instr) : Cmd := { i := i, cmdix := 0, shp := 0x4007F, g1 := 0, g2 := 0, marks := 0, pc := 0x1000, vd := 0 }
def wideOf0 : Wide := { vd := 0, va := 0, vb := 0, vc := 0, pred := 0, ty := 0, rnd := 0, zm := false, imm := 0 }

theorem witness_SystemRegisterReads : Ready base [5] ∧ (on sup).thr.sys.tstat.lvl = true ∧ base.thr.sys.tstat.pclass ≠ 2 ∧ base.thr.vq = [] ∧ base.thr.qs.sdq = [] ∧ (on fun t => { t with vq := [vecCmd (.vmov wideOf0)] }).thr.vq ≠ []
    ∧ (on (withQs fun q => { q with sdq := [1] })).thr.qs.sdq ≠ [] := ⟨ready (by decide), by decide +kernel⟩

theorem witness_TrapInfoReads : Ready (on sup) [5] ∧ Ready { acc with thr := sup thread } [5] ∧ (on sup).thr.sys.tstat.lvl = true := ⟨ready (by decide), ready (by decide), rfl⟩

theorem test_cause_read_sets_rdy : (match exec (.sysrdTrapInfo 5 0) (on fun t => withSys (fun y => { y with tcause := 0x105, sawAddr := true }) (sup t)) with
    | .next t => readReg t 5 == 0x105 && t.thr.sys.tstat.rdy | _ => false) = true := by decide +kernel

theorem witness_SystemRegisterWrites : Ready base [1] ∧ base.thr.vq = [] ∧ base.thr.qs.sdq = [] ∧ base.thr.sys.tstat.lvl = false ∧ (on sup).thr.sys.tstat.lvl = true := ⟨ready (by decide), rfl, rfl, rfl, rfl⟩

theorem test_tvec_aligned : (match exec (.syswr 1 5) (on fun t => g1is 0x1FFF (sup t)) with | .next t => t.thr.sys.tvec == 0x1E00 | _ => false) = true := by decide +kernel
theorem test_read_only_register : (match exec (.syswr 1 0x30) (on fun t => sup t) with | .next t => t.pc == 0x1004 && (t.part 0).rp == (base.part 0).rp | _ => false) = true := by decide +kernel

/-- A grant at the start of HBM4, and a thread whose window lies in it. -/
def granted (lim : Word) : State :=
  { on fun t => g1is lim (withSys (fun y => { y with hbase := 0x4000000000, hlimit := 0x4000001000, hoff := 0xC000000000 }) (sup t)) with
    parts := base.parts.set 0 { Partition.absent with present := true, heapPA := 0x10000000000, heapLen := 0x200000 } }

/-- A window of 2 MiB at VA 0x4000000000 fills the grant exactly; one page more does not fit; a limit of 0 closes it. -/
theorem witness_HeapWindowWrites : Ready (granted 0x4000200000) [1] ∧ (granted 0).thr.sys.tstat.lvl = true
    ∧ (let y (v : Word) := setSysReg (granted v).thr.sys 0x21 v
       let q := (granted 0).part (granted 0).thr.part
       let lo (v : Word) := ((y v).hbase.toNat + (y v).hoff.toNat) % 2 ^ 57
       let len (v : Word) := (y v).hlimit.toNat - (y v).hbase.toNat
       (q.heapPA ≤ lo 0x4000200000 ∧ lo 0x4000200000 + len 0x4000200000 ≤ q.heapPA + q.heapLen ∧ (y 0x4000200000).hlimit.toNat ≤ 2 ^ 56) ∧ (∀ w ∈ (granted 0).parts, w.domain = none)
        ∧ (¬ (y 0x4000201000).hlimit.toNat ≤ (y 0x4000201000).hbase.toNat ∧ ¬ lo 0x4000201000 + len 0x4000201000 ≤ q.heapPA + q.heapLen) ∧ (y 0).hlimit.toNat ≤ (y 0).hbase.toNat) := ⟨ready (by decide), by decide +kernel⟩

theorem test_heap_limit : (match exec (.syswrHeapWindow 1 1) (granted 0x4000201000) with | .next t => t.thr.sys.hlimit == 0x4000001000 && t.pc == 0x1000 | _ => false) = true := by decide +kernel

theorem witness_PrivilegedAtUserLevel : base.thr.sys.tstat.lvl = false ∧ (3 : BitVec 12).toNat ≤ 3 ∧ (5 ≤ (9 : BitVec 12).toNat ∧ (9 : BitVec 12).toNat ≤ 9) ∧ (0x110 ≤ (0x11F : BitVec 12).toNat ∧ (0x11F : BitVec 12).toNat ≤ 0x11F) := by decide

theorem test_eret_is_privileged : (match exec .eret (on tvec) with
    | .next t => t.pc == 0x8000 && t.thr.sys.tcause == 3 && t.thr.sys.taddr == 0xBC003000 && t.thr.sys.tpc == 0x1000 && t.thr.sys.tstat.lvl | _ => false) = true := by decide +kernel

theorem witness_TrapEntry : base.cur = .execute ∧ acc.cur = .access ∧ acc.thr.trap = none ∧ base.thr.trap = none ∧ CanEnter (on tvec) ∧ base.thr.sys.tvec = 0 ∧ findTask base base.thr.task = some task ∧ task.state = .running ∧ base.thr.sys.tstat.lvl = false
    ∧ (on fun t => sup (tvec t)).thr.sys.tstat.lvl = true ∧ (on fun t => sup (tvec t)).thr.sys.tstat.rdy = false := ⟨rfl, rfl, rfl, rfl, canEnter (by decide), by decide +kernel⟩

theorem test_trap_entry : (match exec (.trap 5) (on tvec) with
    | .next t => t.pc == 0x8000 && t.thr.sys.tcause == 0x12 && t.thr.sys.tpc == 0x1004 && t.thr.sys.txpc == 0x2000 && t.thr.sys.taddr == 5 && t.thr.ax.stopped | _ => false) = true := by decide +kernel
theorem test_double_fault_halts : (match exec (.trap 5) (on fun t => sup (tvec t)) with | .next t => t.thr.halted && t.thr.sys.tstat.df | _ => false) = true := by decide +kernel

def late : TrapInfo := { stream := .access, cause := 0x04, tpc := 0x2000, taddr := 0x1001 }
def trapped (k : Stall) : State := on fun t => tvec { t with trap := some late, ex := { t.ex with stall := k } }
def accTrap : State := trapped .queue

theorem witness_AccessTrapEntry : (∀ k ∈ [Stall.queue, .listed, .other, .no], (trapped k).thr.live = true ∧ (trapped k).thr.resident = true ∧ (trapped k).thr.halted = false ∧ (trapped k).thr.trap = some late ∧ late.stream = .access ∧ late.cause ≠ 0x0B ∧ late.cause ≠ 0x0C
      ∧ deferred (trapped k).thr late = false ∧ (trapped k).thr.ax.stopped = false ∧ (trapped k).thr.dueEx = none ∧ (trapped k).thr.ex.stall = k ∧ (trapped k).thr.ex.ended = false ∧ (trapped k).thr.ex.stopped = false ∧ teamStops (trapped k) (trapped k).thr = false) ∧ CanEnter accTrap := ⟨by decide +kernel, canEnter (by decide)⟩
theorem test_access_trap_waits : (match exec (.trapEntry 1) (trapped .other) with | .next t => t.thr.trap == some late && t.pc == 0x1000 | _ => false) = true := by decide +kernel
theorem test_access_trap : (match exec (.trapEntry 1) accTrap with | .next t => t.thr.ax.pc == 0x8100 && t.thr.sys.tcause == 0x104 && t.thr.ex.stopped | _ => false) = true := by decide +kernel

def atTpc (a b : Word) : State := on fun t => withSys (fun y => { y with tpc := a, txpc := b }) (sup t)
theorem witness_TrapReturn : (atTpc 0x1008 0x2004).thr.sys.tstat.lvl = true ∧ (atTpc 0x1008 0x2004).thr.sys.tpc.toNat % 4 = 0 ∧ (atTpc 0x1008 0x2004).thr.sys.txpc.toNat % 4 = 0 ∧ (atTpc 0x100A 0).thr.sys.tpc.toNat % 4 ≠ 0
    ∧ (atTpc 0x1008 2).thr.sys.txpc.toNat % 4 ≠ 0 := by decide +kernel
theorem test_eret : (match exec .eret (atTpc 0x1008 0x2004) with | .next t => t.pc == 0x1008 && t.thr.ax.pc == 0x2004 && !t.thr.sys.tstat.lvl | _ => false) = true := by decide +kernel

/-- The access stream's mark of a region, with the snapshot of H. -/
def withMark (m : Mark) : State := on fun t => { t with ax := { t.ax with marks := [m] } }
theorem witness_RegionOpens : base.cur = .execute ∧ base.thr.sys.tstat.ulih = false ∧ base.thr.sys.tstat.lvl = false ∧ (on cropen).thr.sys.tstat.cropen = true ∧ base.thr.sys.tstat.cropen = false ∧ base.thr.ex.marks = [] ∧ base.thr.ax.marks = []
    ∧ (let s := withMark (mark .mark 0)
       s.thr.ax.marks = mark .mark 0 :: [] ∧ (mark .mark 0).total = s.thr.qs.sdqTot ∧ s.thr.trap = none ∧ s.thr.dueEx = none ∧ (∀ i < 4, nth (mark .mark 0).traffic.ldq i 0 ≤ nth s.thr.qs.popped.ldq i 0) ∧ (mark .mark 0).traffic.bq ≤ s.thr.qs.popped.bq
        ∧ s.thr.qs.pushed.xq ≤ (mark .mark 0).traffic.xq) ∧ (mark .mark 1).total ≠ base.thr.qs.sdqTot ∧ (withMark (mark .mark 1)).thr.ax.marks = [mark .mark 1] := by decide +kernel
theorem test_region_opens : (match exec (.cro 6) (withMark (mark .mark 0)) with | .next t => t.thr.sys.tstat.cropen && t.thr.sys.crhnd == 0x1018 && t.thr.openMark == 0x2000 | _ => false) = true := by decide +kernel

def line : WingsLine := { unit := 0x10000001000, cells := [(0x10000001000, 0xAA), (0x10000001003, 0xBB)], held := false, sig := 0, poison := false }
def region (w : Wait) (l : List WingsLine) : State := { wexec id with thr := { cropen (wexec id).thr with wait := w, wings := l } }

theorem witness_RegionCloses : base.cur = .execute ∧ base.thr.wait = .none ∧ base.thr.ex.marks = [] ∧ base.thr.sys.tstat.cropen = false ∧ (region .none []).thr.sys.tstat.cropen = true ∧ (region .none []).thr.ax.marks = []
    ∧ (region .crc []).thr.wait = .crc ∧ (region .crc []).thr.held = [] ∧ (region .crc []).thr.late = [] ∧ (∀ l ∈ (region .crc []).thr.wings, l.held = true) ∧ regionPaired (region .crc []).thr = true ∧ (region .drain []).thr.wait = .drain ∧ (region .drain []).thr.unwindDue = [] ∧ (region .crc [line]).thr.wait = .crc ∧ (region .crc [line]).thr.unwindDue = []
    ∧ regionPaired (region .crc [line]).thr = true ∧ (region .crc [line]).thr.sys.tstat.pclass ≠ 2 ∧ (∃ l ∈ (region .crc [line]).thr.wings, l.held = false)
    ∧ (∀ w ∈ [Wait.crc, .sigchk, .agreed, .drain], (let s := { region w [line] with thr := { (region w [line]).thr with unwindDue := [0x0B] } }; s.thr.wait = w ∧ s.cur = .execute ∧ s.thr.unwindDue = 0x0B :: [] ∧ s.thr.inRegion = true)) := by decide +kernel

theorem test_region_closes : (match exec .crc (region .crc []) with | .next t => !t.thr.sys.tstat.cropen && t.pc == 0x1004 && t.thr.wait == .none | _ => false) = true := by decide +kernel

theorem witness_RegionDrains : (region .drain [line]).thr.wait = .drain ∧ (region .drain [line]).thr.live = true ∧ (region .drain [line]).thr.wings = [line] ∧ (region .drain [line]).thr.held = [] ∧ (region .drain [line]).thr.late = [] ∧ (region .drain [line]).thr.unwindDue = [] ∧ (region .drain [line]).thr.resident = true ∧ commitHolds (region .drain [line]) line.unit 64 = false
    ∧ Memory.wf (region .drain [line]).mem = true ∧ (line.cells.map (·.1)).Nodup := by decide +kernel
theorem test_drain_writes : (match exec (.wingsDrain 1) (region .drain [line]) with | .next t => getCells t.mem 0x10000001000 4 == [0xAA, 0xFF, 3, 0xBB] && t.thr.wings.isEmpty | _ => false) = true := by decide +kernel

def poisoned : State := { region .none [line] with poison := [0x10000001000], thr := { withSys (fun y => { y with crhnd := 0x1100 }) (region .none [line]).thr with snapG := List.replicate 32 3, snapH := List.replicate 16 4, openMark := 0x2008 } }
theorem witness_RegionUnwinds : Ready poisoned [5, 1] ∧ poisoned.thr.sys.tstat.pclass ≠ 2 ∧ poisoned.thr.inRegion = true ∧ translate poisoned poisoned.thr .load (readReg poisoned 1) 8 8 true = .ok 0x10000001000 none
    ∧ poisonedIn poisoned 0x10000001000 8 = true := ⟨ready (by decide), by decide +kernel⟩
theorem test_unwind : (match exec (.srd 5 1) poisoned with
    | .next t => t.thr.ex.pc == 0x1100 && t.thr.ax.pc == 0x2008 && readG t.thr 7 == 3 && readH t.thr 7 == 4 && !t.thr.sys.tstat.cropen && t.thr.sys.tstat.crcause == 0x0A && t.thr.wings.isEmpty | _ => false) = true := by decide +kernel

theorem witness_HaltYieldWait : base.thr.sys.tstat.pclass ≠ 2 ∧ base.thr.uli = [] ∧ (on uli).thr.uli ≠ [] ∧ (on cropen).thr.sys.tstat.cropen = true ∧ base.thr.sys.tstat.cropen = false ∧ (∀ m ∈ base.thr.ex.marks, m.kind ≠ .cro) ∧ (∃ m ∈ [mark .cro 0], m.kind = .cro) ∧ acc.cur ≠ .execute := by decide +kernel

theorem witness_Breakpoint : (base.part base.thr.part).debugger = false ∧ ({ base with parts := base.parts.set 0 { base.part 0 with debugger := true } }.part base.thr.part).debugger = true := by decide +kernel

def rp (st : BitVec 2) (fail : Bool) : State := { base with parts := base.parts.set 0 { base.part 0 with rp := { rpseq := 12, rpdur := 11, rppar := 10, pblost := false, cfail := fail, torn := false, feed := false, state := st } } }
theorem witness_RecoveryPoints : Ready (rp 0 false) [5, 1] ∧ (rp 0 false).thr.inRegion = false ∧ (rp 0 false).thr.part < 8 ∧ ((rp 0 false).part 0).domain = none ∧ ((rp 1 false).part 0).rp.state ≠ 0 ∧ ((rp 0 false).part 0).rp.state = 0
    ∧ readReg (rp 1 false) 1 = ((rp 1 false).part 0).rp.rpseq ∧ ((rp 1 false).part 0).rp.rpdur.toNat < (readReg (rp 1 false) 1).toNat ∧ (readReg (rp 1 false) 3).toNat ≤ ((rp 1 false).part 0).rp.rpdur.toNat
    ∧ ((rp 1 true).part 0).rp.cfail = true ∧ ((rp 1 false).part 0).rp.feed = false ∧ (readReg (rp 1 false) 3).toNat ≤ ((rp 1 false).part 0).rp.rppar.toNat := ⟨ready (by decide), by decide +kernel⟩
theorem test_rpopen : (match exec (.rpopen 5) (rp 0 false) with | .next t => readReg t 5 == 13 && (t.part 0).rp.state == 1 | _ => false) = true := by decide +kernel
theorem test_rpcommit : (match exec (.rpcommit 5 1) (rp 1 false) with | .next t => readReg t 5 == 0 && (t.part 0).rp.state == 2 | _ => false) = true := by decide +kernel

theorem witness_Location : Ready (wexec id) [5, 1] ∧ findTeam (wexec id) (wexec id).thr.team = some team ∧ (wexec id).thr.core < 192 ∧ translate (wexec id) (wexec id).thr .load (readReg (wexec id) 1) 1 1 false = .ok 0x10000001000 none
    ∧ translate base base.thr .load (readReg base 1) 1 1 false = .fault 0x05 := ⟨ready (by decide), by decide +kernel⟩
theorem test_locq_never_faults : (match exec (.locq 5 1 true) base with | .next t => readReg t 5 == 0x8000000000000000 && t.pc == 0x1004 | _ => false) = true := by decide +kernel

/-! ### Statements about threads, teams and tasks -/

def deadlockedThread (t : Thread) : Thread := tvec { t with stallCount := 1024, ex := { t.ex with stall := .queue }, ax := { t.ax with ended := true } }
theorem witness_QueueProtocolDeadlock : (on deadlockedThread).thr.live = true ∧ (on deadlockedThread).thr.resident = true ∧ (on deadlockedThread).thr.halted = false ∧ (on deadlockedThread).thr.trap = none ∧ (on deadlockedThread).thr.countOff = false
    ∧ (on deadlockedThread).thr.ex.ended = false ∧ 1024 ≤ (on deadlockedThread).thr.stallCount ∧ deadlocked (on deadlockedThread).thr = true
    ∧ teamIssues (on deadlockedThread) (on deadlockedThread).thr .execute = true ∧ debugHeld (on deadlockedThread) (on deadlockedThread).thr = false ∧ CanEnter (on deadlockedThread) :=
  ⟨rfl, rfl, rfl, rfl, rfl, rfl, by decide, by decide +kernel, by decide +kernel, by decide +kernel, canEnter (by decide)⟩
/-- The access stream stands on a queue and the execute stream has ended. -/
def deadlockedAccess (t : Thread) : Thread := tvec { t with stallCount := 1024, ex := { t.ex with ended := true }, ax := { t.ax with stall := .queue } }
theorem witness_QueueProtocolDeadlock_access : (on deadlockedAccess).thr.ex.ended = true ∧ deadlocked (on deadlockedAccess).thr = true ∧ teamIssues (on deadlockedAccess) (on deadlockedAccess).thr .execute = true := by decide +kernel
theorem test_deadlock : (match exec (.queueProtocolError 1) (on deadlockedThread) with | .next t => t.pc == 0x8000 && t.thr.sys.tcause == 0x10 && t.thr.sys.tpc == 0x1000 | _ => false) = true := by decide +kernel
theorem test_deadlock_access : (match exec (.queueProtocolError 1) (on deadlockedAccess) with | .next t => t.thr.trap == some { stream := .access, cause := 0x10, tpc := 0x2000, taddr := 0 } | _ => false) = true := by decide +kernel

/-- A partition with a page at 0x1000, which may be read and not written; a thread that missed there. -/
def miss (ea : Word) (store : Bool) : PageFault := { stream := .execute, cause := if store then 0x06 else 0x05, ea := ea, store := store }
def mapped (f : Thread → Thread) : State := mapPage (on f) 0 0x1000 0x10000005087
def walking (w : PageFault) (t : Thread) : Thread := { t with walk := [w] }

theorem witness_PageWalks : (mapped (walking (miss 0x1000 false))).thr.walk = [miss 0x1000 false] ∧ (mapped id).thr.core < 192 ∧ walkVA (mapped id) (mapped id).thr.part 0x3000 = none
    ∧ (walkVA (mapped id) (mapped id).thr.part 0x1000).map (fun x => (x.1, x.2.2)) = some (0x10000005087, 4096) ∧ (walkVA (mapped id) 0 0x1000).map (fun x => group64 (mapped id) x.1 x.2.1) = some false ∧ leafAllows 0x10000005087 .store = false
    ∧ leafAllows 0x10000005087 .load = true := by decide +kernel
/-- Sixteen pages that form one of 64 KiB. -/
def mapped64 : State := (List.range 16).foldl (fun s i => mapPage s 0 (0x10000 + 4096 * i) (0x10000010187 + 4096 * i)) (on (walking (miss 0x13456 false)))
theorem witness_PageWalks_group : (walkVA mapped64 0 0x13456).map (fun x => (group64 mapped64 x.1 x.2.1, leafAllows x.1 .load, x.2.2)) = some (true, true, 4096) := by decide +kernel
theorem test_walk_fills_64K : (match exec (.pageWalk 1) mapped64 with | .next t => (t.core 0).tlb.map (fun e => (e.va, e.size)) == [(0x10000, 65536)] | _ => false) = true := by decide +kernel
/-- The root's entry for the address is malformed. -/
def malformed : State := let s := on (walking (miss 0x1000 false))
  { s with parts := s.parts.set 0 { s.part 0 with ptRoot := 0x10000100000 }, mem := setCells [] 0x10000100000 (leBytes 8 0x8000000000000003) }
theorem witness_PageWalks_malformed : (malformed.part 0).ptRoot ≠ 0 ∧ walkMalformed malformed.mem 5 (malformed.part 0).ptRoot 0x1000 = true ∧ walkVA malformed 0 0x1000 = none := by decide +kernel
theorem test_walk_logs : (match exec (.pageWalk 1) malformed with | .next t => t.mod.errorLog == [0x1000] && t.thr.pf == [miss 0x1000 false] | _ => false) = true := by decide +kernel
theorem test_walk_fills_tlb : (match exec (.pageWalk 1) (mapped (walking (miss 0x1234 false))) with | .next t => (t.core 0).tlb.map (fun e => (e.va, e.size, e.pte)) == [(0x1000, 4096, 0x10000005087)] && t.thr.pf.isEmpty | _ => false) = true := by decide +kernel
theorem test_walk_faults : (match exec (.pageWalk 1) (mapped (walking (miss 0x1234 true))) with | .next t => (t.core 0).tlb.isEmpty && t.thr.pf == [miss 0x1234 true] | _ => false) = true := by decide +kernel

def faulting (t : Thread) : Thread := tvec { t with pf := [miss 0x1234 true] }
def demanded : State := { on faulting with parts := base.parts.set 0 { base.part 0 with quota := 0x100000, demand := [(0x1000, 0x1000)] } }
/-- The same with tables for the address, and no leaf. -/
def tabled : State := let s := mapPage { demanded with parts := base.parts } 0 0x3000 0x1000000508F
  { s with parts := s.parts.set 0 { s.part 0 with quota := 0x100000, demand := [(0x1000, 0x1000)] } }
def tableOf (k : Nat) (base : Nat) : Nat := pteFrame (getLe tabled.mem (base + 8 * (0x1234 / 2 ^ k % 512)) 8)
theorem witness_PageFaultsResolved : tabled.thr.live = true ∧ tabled.thr.resident = true ∧ tabled.thr.pf = miss 0x1234 true :: [] ∧ (∃ r ∈ (tabled.part 0).demand, r.1 ≤ 0x1234 ∧ 0x1234 < r.1 + r.2) ∧ 1 ≤ freeQuota tabled 0 ∧ walkVA tabled 0 0x1234 = none
    ∧ (tabled.part 0).ptRoot ≠ 0 ∧ (let root := (tabled.part 0).ptRoot
        let used (base k : Nat) := getLe tabled.mem (base + 8 * (0x1234 / 2 ^ k % 512)) 8 % 2
        let leaf := tableOf 21 (tableOf 30 (tableOf 39 (tableOf 48 root))) + 8 * (0x1234 / 4096 % 512)
        let frame := (takeFrame (modThr tabled fun t => { t with pf := [] })).1
        used root 48 = 1 ∧ used (tableOf 48 root) 39 = 1 ∧ used (tableOf 39 (tableOf 48 root)) 30 = 1 ∧ used (tableOf 30 (tableOf 39 (tableOf 48 root))) 21 = 1
          ∧ (frame + 4096 ≤ leaf ∨ leaf + 8 ≤ frame) ∧ ∀ c ∈ tabled.mem, c.1 < frame ∨ frame + 4096 ≤ c.1) ∧ Memory.wf tabled.mem = true := by decide +kernel
theorem test_demand_maps : (match exec (.pageFaultResolve 1) tabled with | .next t => (t.part 0).usedFrames == 1 && (walkVA t 0 0x1234).isSome && t.thr.pf.isEmpty | _ => false) = true := by decide +kernel
/-- The page is there by now, and may be written. -/
theorem witness_PageFaultsResolved_present : (let s := mapPage (on faulting) 0 0x1000 0x1000000508F
      (walkVA s 0 0x1234).map (fun x => (leafAllows x.1 .store, writeProtected s (leafPA x.1 x.2.2 0x1234))) = some (true, false)) := by decide +kernel
theorem witness_PageFaultsTaken : (on faulting).thr.pf = miss 0x1234 true :: [] ∧ (miss 0x1234 true).stream = .execute ∧ (miss 0x1234 true).cause = 0x06 ∧ (on faulting).thr.trap = none ∧ CanEnter (on faulting) := ⟨rfl, rfl, rfl, rfl, canEnter (by decide)⟩
def domain : Domain :=
  { workVA := 0, nwork := 0, npb := 0, pbva := 0, granules := [], pbGranules := [], slot0 := Slot.blank, slot1 := Slot.blank, cur := [], prev := [], journal := [], jseq := 0, commit := none
    held := [(0, 5)], loose := [], partner := none }
/-- A page at 0x1000 that may be written, in a granule that a commit has still to copy. -/
def touched (f : PageFault) : State :=
  let s := mapPage (on fun t => { t with pf := [f] }) 0 0x1000 0x1000000508F
  { s with parts := s.parts.set 0 { s.part 0 with domain := some { domain with held := [], granules := [0x10000000000], commit := some { seq := 1, slot := 0, granules := [0], poisoned := false, todo := [0] } } } }
theorem witness_PageFaultsResolved_copy : (miss 0x1234 true).store = true ∧ (walkVA (touched (miss 0x1234 true)) 0 0x1234).map (fun x => (leafAllows x.1 .store, writeProtected (touched (miss 0x1234 true)) (leafPA x.1 x.2.2 0x1234))) = some (true, true)
    ∧ (((touched (miss 0x1234 true)).part 0).domain.bind (·.commit)).isSome = true := by decide +kernel
theorem test_copy_on_touch : (match exec (.pageFaultResolve 1) (touched (miss 0x1234 true)) with | .next t => ((t.part 0).domain.bind (·.commit)).map (·.copied) == some [0x10000005000] && t.thr.pf.isEmpty && t.thr.trap.isNone | _ => false) = true := by decide +kernel
theorem witness_PageFaultsTaken_access : { miss 0x1234 true with stream := .access }.stream = .access ∧ walkVA (on faulting) 0 0x1234 = none ∧ freeQuota (on faulting) 0 < 1 ∧ (walkVA (mapped faulting) 0 0x1234).isSome = true ∧ (walkVA (mapped faulting) 0 0x1234).map (fun x => leafAllows x.1 .store) = some false ∧ (∀ r ∈ (base.part 0).demand, (0x1234 : Nat) < r.1 ∨ r.1 + r.2 ≤ 0x1234) := by decide +kernel
theorem test_access_fault_waits : (match exec (.pageFaultResolve 1) (on fun t => { faulting t with pf := [{ miss 0x1234 true with stream := .access }] }) with
    | .next t => t.thr.trap == some { stream := .access, cause := 0x06, tpc := 0x2000, taddr := 0x1234 } | _ => false) = true := by decide +kernel
theorem test_page_fault_enters_handler : (match exec (.pageFaultResolve 1) (on faulting) with | .next t => t.pc == 0x8000 && t.thr.sys.tcause == 6 && t.thr.sys.taddr == 0x1234 && t.thr.sys.tpc == 0x1000 | _ => false) = true := by decide +kernel

def endedThread (q : List Word) (t : Thread) : Thread := withQs (fun x => { x with xq := q }) (tvec { t with ex := { t.ex with ended := true }, ax := { t.ax with ended := true } })
theorem witness_ThreadEnds : threadDone (on (endedThread [])).thr = true ∧ queuesHold (on (endedThread [])).thr = false ∧ threadDone (on (endedThread [1])).thr = true ∧ queuesHold (on (endedThread [1])).thr = true :=
  ⟨by decide +kernel, by decide +kernel, by decide +kernel, by decide +kernel⟩
theorem test_thread_ends : (match exec (.threadEnd 1) { on (endedThread []) with ensembles := [ens [(me, false), ((2, 1, 0), false)]] } with | .next t => t.thr.ended && t.ensembles.map (·.members) == [[((2, 1, 0), false)]] | _ => false) = true := by decide +kernel
theorem test_queue_left_over : (match exec (.threadEnd 1) (on (endedThread [1])) with | .next t => !t.thr.ended && t.thr.trap == some { stream := .access, cause := 0x10, tpc := 0x2000, taddr := 0 } | _ => false) = true := by decide +kernel

def endedP2 (w : Wait) : State := on fun t => withSys (fun y => { y with tstat := { y.tstat with pclass := 2 } }) { endedThread [] t with wait := w }
theorem witness_ThreadEnds_P2 : ∀ w ∈ [Wait.none, .agreed], threadDone (endedP2 w).thr = true ∧ queuesHold (endedP2 w).thr = false ∧ (endedP2 w).thr.sys.tstat.pclass = 2 ∧ (endedP2 w).thr.rep < 2 ∧ (endedP2 w).thr.wait = w := by decide +kernel
theorem test_thread_end_agrees : (match exec (.threadEnd 1) (endedP2 .none) with | .next t => t.thr.wait == .sigchk && !t.thr.ended | _ => false) = true ∧ (match exec (.threadEnd 1) (endedP2 .agreed) with | .next t => t.thr.ended | _ => false) = true := by decide +kernel

def teamOver : State := on fun t => { t with ended := true }
theorem witness_TeamEnds : findTeam teamOver team.id = some team ∧ team.status = .resident ∧ team.rep = 0 ∧ allEnded teamOver team = true ∧ (∀ w ∈ teamOver.teams, w.task = team.task → w.ix = team.ix → w = team) ∧ findTask teamOver team.task = some task := by decide +kernel
theorem test_team_ends : (match exec (.teamEnd 3) teamOver with | .next t => t.tasks.map (·.endedTeams) == [[0]] && t.teams.map (·.status) == [.ended] && !t.thr.live | _ => false) = true := by decide +kernel

def taskState (x : TaskState) (u : List Team) (e : List Nat) : State := { base with tasks := [{ task with state := x, endedTeams := e }], teams := u }
theorem witness_TaskEnds : findTask (taskState .running [] [0, 1, 2]) 2 = some { task with endedTeams := [0, 1, 2] } ∧ actionsHeld (taskState .running [] [0, 1, 2]) task.launch = false ∧ [0, 1, 2].length = task.nteams
    ∧ findTask (taskState (.ending 0x0A 5) [team] []) 2 = some { task with state := .ending 0x0A 5 } ∧ (∃ u ∈ (taskState (.ending 0x0A 5) [team] []).teams, u.task = 2 ∧ u.status = .resident)
    ∧ (∀ u ∈ (taskState (.ending 0x0A 5) [{ team with status := .suspended }] []).teams, u.task = 2 → u.status ≠ .resident ∧ u.status ≠ .stopping) := by decide +kernel
theorem test_task_ends : (match exec (.taskEnd 2) (taskState .running [] [0, 1, 2]) with | .next t => t.tasks.isEmpty && !t.thr.live | _ => false) = true := by decide +kernel
theorem test_ending_task_stops_teams : (match exec (.taskEnd 2) (taskState (.ending 0x0A 5) [team] []) with | .next t => t.teams.map (·.status) == [.stopping] && t.tasks.length == 1 | _ => false) = true := by decide +kernel

/-! ### Statements about duplicated execution and health -/

/-- Two replicas of a thread under P2; the second has the given wait, signature and request. -/
def p2 (r : Nat) (w : Wait) (sig : Word) (req : Option (List Nat)) (t : Thread) : Thread :=
  { withSys (fun y => { y with sigs := sig, tstat := { y.tstat with pclass := 2 } }) t with rep := r, tid := 1 + r, team := 3 + r, wait := w, pairReq := req, core := 48 * r }
def pair (w0 w1 : Wait) (sig : Word) (req : Option (List Nat)) : State :=
  { wexec (p2 0 w0 0 none) with others := [p2 1 w1 sig req (wexec id).thr], teams := [team, { team with id := 4, rep := 1, chip := 3 }] }
def twin (w1 : Wait) (sig : Word) (req : Option (List Nat)) : Thread := p2 1 w1 sig req (wexec id).thr

theorem witness_Twins : (∀ q ∈ [none, some [6, 0x1000], some [6, 0x1008]], Twins (pair .none .none 0 q) (twin .none 0 q)) ∧ ∀ x ∈ [(Wait.sigchk, (0 : Word)), (.sigchk, 9), (.none, 0)], Twins (pair .sigchk x.1 x.2 none) (twin x.1 x.2 none) := by unfold Twins; decide +kernel
theorem witness_AgreementPoints : (∀ x ∈ [(Wait.sigchk, (0 : Word)), (.sigchk, 9), (.none, 0)], let s := pair .sigchk x.1 x.2 none
      s.thr.wait = .sigchk ∧ s.thr.forced = false ∧ s.thr.inRegion = false ∧ findTeam s s.thr.team = some team ∧ team.task = s.thr.task ∧ team.ix = s.thr.teamIx
      ∧ s.others.map (fun w => (w.wait, w.forced, w.ordinal, w.sys.sigs, w.sys.sigv)) = [(x.1, false, s.thr.ordinal, x.2, s.thr.sys.sigv)]) ∧ team.suspect = none ∧ team.status = .resident := by decide +kernel
theorem witness_AgreementPoints_empty : (pair .sigchk .sigchk 0 none).thr.wings = [] ∧ (pair .sigchk .sigchk 0 none).thr.held = [] ∧ (pair .sigchk .sigchk 0 none).thr.late = [] ∧ ∀ w ∈ (pair .sigchk .sigchk 0 none).others, w.held = [] ∧ w.late = [] ∧ w.wings = [] := by decide +kernel
/-- A local failure of the other copy; an Understudy behind a replica. -/
theorem witness_AgreementPoints_survivor : (let s := { pair .sigchk .none 0 none with teams := [{ team with suspect := some 1 }, { team with id := 4, rep := 1, chip := 3, suspect := some 1 }] }
      s.thr.rep = 0 ∧ s.thr.wait = .sigchk ∧ findTeam s s.thr.team = some { team with suspect := some 1 } ∧ (1 : Nat) ≠ s.thr.rep) := by decide +kernel
def understudied : State := { wexec (p2 2 .sigchk 0 none) with others := [{ twin .none 0 none with ordinal := 1 }], teams := [{ team with id := 5, rep := 2 }, { team with id := 4, rep := 1 }] }
theorem witness_AgreementPoints_understudy : understudied.thr.live = true ∧ understudied.thr.resident = true ∧ understudied.thr.sys.tstat.pclass = 2 ∧ understudied.thr.rep = 2 ∧ understudied.thr.wait = .sigchk ∧ understudied.thr.forced = false ∧ understudied.thr.crcMark = none
    ∧ ∃ w ∈ understudied.others, w.task = understudied.thr.task ∧ w.teamIx = understudied.thr.teamIx ∧ w.thrIx = understudied.thr.thrIx ∧ w.rep < 2 ∧ understudied.thr.ordinal < w.ordinal := by decide +kernel
theorem test_understudy_passes : (match exec (.agreementPoint 3) understudied with | .next t => t.thr.wait == .agreed && t.thr.ordinal == 1 | _ => false) = true := by decide +kernel
theorem test_agreement : (match exec (.agreementPoint 1) (pair .sigchk .sigchk 0 none) with | .next t => t.thr.wait == .agreed && t.thr.ordinal == 1 && t.others.map (fun w => (w.wait, w.ordinal)) == [(.agreed, 1)] | _ => false) = true := by decide +kernel
theorem test_disagreement_votes : (match exec (.agreementPoint 1) (pair .sigchk .sigchk 9 none) with | .next t => t.teams.map (fun u => (u.status, u.stopFor)) == [(.stopping, .vote), (.stopping, .vote)] && t.thr.ordinal == 0 | _ => false) = true := by decide +kernel
def laterThan (n : Nat) (s : State) : State := { s with mod := { s.mod with time := n } }
theorem witness_AgreementTimes : (laterThan 1400001 (pair .sigchk .none 0 none)).thr.pointAt + 1400000 < 1400001 ∧ 1400000 ≤ (laterThan 1400000 (pair .sigchk .none 0 none)).thr.pointAt + 1400000 := by decide
theorem test_agreement_timeout : (match exec (.agreementTimeout 1) (laterThan 1400001 (pair .sigchk .none 0 none)) with | .next t => t.teams.map (fun u => (u.status, u.stopFor)) == [(.stopping, .vote), (.stopping, .vote)] | _ => false) = true := by decide +kernel
theorem test_agreement_in_time : (match exec (.agreementTimeout 1) (laterThan 1400000 (pair .sigchk .none 0 none)) with | .next t => t.teams.map (·.status) == [.resident, .resident] | _ => false) = true := by decide +kernel

/-- The first replica holds an mbput of its region that the second does not hold. -/
def heldReq : HeldReq := .mbput 1 0 6 { sdq := 0, cmdix := 0, marks := 0 }
def holding : State := { pair .sigchk .sigchk 0 none with thr := { (pair .sigchk .sigchk 0 none).thr with held := [heldReq] } }
theorem witness_AgreementPoints_held : holding.thr.held.map HeldReq.key ≠ holding.others.flatMap (fun w => w.held.map HeldReq.key) := by decide
theorem test_held_requests_differ : (match exec (.agreementPoint 1) holding with | .next t => t.teams.map (·.stopFor) == [.vote, .vote] && t.thr.ordinal == 0 | _ => false) = true := by decide +kernel

theorem witness_PairedRequests : Ready (pair .none .none 0 none) [5, 1] ∧ (pair .none .none 0 none).thr.pairRes = none ∧ translate (pair .none .none 0 none) (pair .none .none 0 none).thr .load (readReg (pair .none .none 0 none) 1) 8 8 true = .ok 0x10000001000 none
    ∧ poisonedIn (pair .none .none 0 none) 0x10000001000 8 = false ∧ (twin .none 0 none).pairReq = none ∧ (twin .none 0 (some [6, 0x1000])).pairReq = some [6, (readReg (pair .none .none 0 none) 1).toNat] := ⟨ready (by decide), by decide +kernel⟩
theorem test_paired_read : (match exec (.srd 5 1) (pair .none .none 0 (some [6, 0x1000])) with
    | .next t => readReg t 5 == 0x880706050403FFF1 && t.others.map (·.pairRes) == [some 0x880706050403FFF1] && t.pc == 0x1004 | _ => false) = true := by decide +kernel

theorem witness_PairedRequests_mismatch : (twin .none 0 (some [6, 0x1008])).pairReq ≠ none ∧ (twin .none 0 (some [6, 0x1008])).pairReq ≠ some [6, (readReg (pair .none .none 0 none) 1).toNat] ∧ (pair .none .none 0 none).thr.inRegion = false ∧ (pair .none .none 0 none).thr.unwindDue = []
    ∧ (let t := { cropen (pair .none .none 0 none).thr with unwindDue := [0x0B] }; t.inRegion = true ∧ t.unwindDue = 0x0B :: []) ∧ findTeam (pair .none .none 0 none) 3 = some team ∧ team.task = (pair .none .none 0 none).thr.task ∧ team.ix = (pair .none .none 0 none).thr.teamIx := by decide +kernel
theorem test_request_mismatch_votes : (match exec (.srd 5 1) (pair .none .none 0 (some [6, 0x1008])) with | .next t => t.teams.map (fun u => (u.status, u.stopFor)) == [(.stopping, .vote), (.stopping, .vote)] && t.pc == 0x1000 | _ => false) = true := by decide +kernel

/-- A vote: both replicas suspended at an agreement point, and an Understudy there. -/
def voter (id r : Nat) (st : TeamStatus) : Team := { team with id := id, rep := r, status := st, votePos := pointPos 0 0 }
def copyOf (r : Nat) (sig : Word) : Thread := p2 r .sigchk sig none (wexec id).thr
def votes (st : TeamStatus) : State :=
  { wexec id with thr := copyOf 2 0, others := [copyOf 0 0, copyOf 1 9], teams := [voter 3 0 .voting, voter 4 1 .voting, voter 5 2 st] }

/-- The same with any signatures of the two replicas. -/
def voted (a b : Word) : State := { votes .resident with others := [copyOf 0 a, copyOf 1 b] }
theorem witness_Votes : findTeam (votes .resident) 5 = some (voter 5 2 .resident) ∧ findTeam (votes .resident) 3 = some (voter 3 0 .voting) ∧ findTeam (votes .resident) 4 = some (voter 4 1 .voting)
    ∧ replicasOf (votes .resident) (voter 5 2 .resident) = [voter 3 0 .voting, voter 4 1 .voting, voter 5 2 .resident] ∧ (voter 3 0 .voting).votePos ≠ endPos ∧ (voter 5 2 .resident).part < 8 ∧ (voter 5 2 .resident).status = .resident
    ∧ [((0 : Word), (9 : Word)), (9, 0), (0, 0), (9, 9)].map (fun x => let s := voted x.1 x.2; let pos := (voter 3 0 .voting).votePos; let u := voter 5 2 .resident
        (reached s u pos, agreesAt s u (voter 3 0 .voting) pos, agreesAt s u (voter 4 1 .voting) pos)) = [(true, true, false), (true, false, true), (true, true, true), (true, false, false)]
    ∧ (voter 3 0 .voting).suspect = none ∧ { voter 3 0 .voting with suspect := some 1 }.suspect = some (voter 4 1 .voting).rep ∧ (∃ k, findTask (votes .resident) 2 = some k ∧ k.state = .running)
    ∧ (voter 5 2 .ended).status = .ended ∧ (voter 3 0 .voting).starts < 3 ∧ 3 ≤ { voter 3 0 .voting with starts := 3 }.starts := ⟨by decide +kernel, by decide +kernel, by decide +kernel, by decide +kernel, by decide +kernel, by decide +kernel, by decide +kernel, by decide +kernel, by decide +kernel, by decide +kernel, ⟨task, by decide +kernel⟩, by decide +kernel⟩
/-- The whole team is compared at its end. -/
def atEnd : State := { votes .resident with thr := { copyOf 2 0 with ended := true }, others := [{ copyOf 0 0 with ended := true }, { copyOf 1 9 with ended := true }],
                                            teams := [{ voter 3 0 .voting with votePos := endPos }, { voter 4 1 .voting with votePos := endPos, shadow := [{ page := 0x10000005000, cells := [(0, 1)], psig := 1, poison := [], wrote := true }] }, voter 5 2 .resident] }
theorem witness_Votes_end : (let u := voter 5 2 .resident; let p := { voter 3 0 .voting with votePos := endPos }; reached atEnd u p.votePos = true ∧ agreesAt atEnd u p p.votePos = true ∧ (atEnd.teams.map fun w => agreesAt atEnd u w endPos) = [true, false, true]) := by decide +kernel

theorem test_vote : (match exec (.vote 5) (votes .resident) with | .next t => t.teams.map (fun u : Team => (u.id, u.rep, u.status)) == [(3, 0, .suspended), (5, 1, .suspended)] && (t.core 48).score == 1 && (t.core 0).score == 0 | _ => false) = true := by decide +kernel

theorem witness_StorageErrors : Config.backed 0x17FFFFFFFFF = true ∧ Config.backed 0x3FFFFFFF = true ∧ Config.backed 0x40000000 = false := by decide
theorem test_poison : (match exec (.eccError (.mem 0x10000001025 false)) base with | .next t => t.poison == [0x10000001000] | _ => false) = true := by decide +kernel

/-- A row of an accumulator, an instruction about to issue, and a command at the head of its queue. -/
theorem witness_StorageErrors_uses : (∀ st ∈ [Stream.execute, .access], mayIssue (on id) (on id).thr st = true) ∧ (on (withSys fun y => { y with tstat := { y.tstat with pclass := 1 } })).thr.sys.tstat.pclass ≠ 0
    ∧ (let s := on fun t => { t with vq := [vecCmd (.vmov wideOf0)] }; s.thr.vq = vecCmd (.vmov wideOf0) :: [] ∧ cmdReady s s.thr (vecCmd (.vmov wideOf0)) s.thr.mq = true) := by decide +kernel

def core5 (f : Core → Core) : State := { base with cores := base.cores.set 5 (f Core.fresh), mod := { base.mod with testNext := 5, time := 1000 * 1400000000 } }
theorem witness_InFieldTests : base.mod.cfg.testInt ≠ 0 ∧ (core5 id).mod.testAt + (core5 id).mod.cfg.testInt * 1400000000 ≤ (core5 id).mod.time ∧ base.mod.time < base.mod.testAt + base.mod.cfg.testInt * 1400000000 ∧ base.mod.power = .ps0 ∧ (core5 id).mod.testNext = 5 ∧ ((core5 id).core 5).retired = false ∧ ((core5 id).core 5).testing = false ∧ testBarred (core5 id) 5 = false
    ∧ { base.mod with power := Power.ps1 }.power = .ps1 ∧ ((core5 fun c => { c with testing := true }).core 5).testing = true ∧ (∀ x ∈ (core5 id).threads, x.core ≠ 5 ∨ x.resident = false ∨ x.live = false) := by decide +kernel
theorem test_core_retires : (match exec (.inFieldTestDone 5 false) (core5 fun c => { c with testing := true }) with | .next t => (t.core 5).retired && (t.core 5).score == 15 | _ => false) = true := by decide +kernel
/-- A day of powered time has passed, or not. -/
def dayOld : State := { core5 (fun c => { c with score := 7 }) with mod := { base.mod with powered := 86400 * 1400000000 } }
theorem witness_ScoresHalve : 86400 * 1400000000 ≤ dayOld.mod.powered ∧ base.mod.powered < 86400 * 1400000000 ∧ (dayOld.core 5).retired = false ∧ (dayOld.core 5).testing = false := by decide +kernel
theorem test_scores_halve : (match exec .scoreHalving dayOld with | .next t => (t.core 5).score == 3 | _ => false) = true := by decide +kernel

/-! ### More states that meet hypotheses -/

/-- A command is queued when a loop with an epilogue starts, or goes back. -/
theorem witness_LoopStarts_queued : (on fun t => { t with vq := [vecCmd (.vmov wideOf0)] }).thr.vq ≠ [] ∧ (mailbox (on fun t => { t with vq := [vecCmd (.vmov wideOf0)] }) 0).toNat / 2 ^ 32 % 16 = 5 ∧ (on fun t => { t with vq := [vecCmd (.vmov wideOf0)] }).cur = .execute
    ∧ (on fun t => { t with vq := [vecCmd (.vmov wideOf0)], ex := inLoop 2 1 t.ex }).stream.order = [1] := by decide
theorem test_loop_starts_queued : (match exec (.loop 1 true 0 3) (on fun t => { t with vq := [vecCmd (.vmov wideOf0)] }) with | .next t => t.thr.loopP.length == 8 && t.pc == 0x1004 && (getLoop t.stream 1).lc == 7 | _ => false) = true := by decide +kernel
/-- One SDQ entry has been pushed and not been paired; 768 loads in flight. -/
theorem witness_MailboxPut_late : (on (withQs fun q => { q with sdqTot := 1, sdq := [1] })).thr.qs.sdq ≠ [] ∧ base.thr.qs.sdq = [] ∧ (on fun t => { t with vq := [vecCmd (.vmov wideOf0)] }).thr.vq ≠ [] ∧ base.thr.late = [] ∧ base.thr.mq = [] ∧ base.thr.vq = [] := by decide
theorem test_mbput_waits : (match exec (.mbput 0 3 2) (on (withQs fun q => { q with sdqTot := 1, sdq := [1] })) with | .next t => t.thr.ex.stall == .queue && t.pc == 0x1000 && t.teams == base.teams | _ => false) = true := by decide +kernel
def crowded : State := { wacc with thr := withQs (fun q => { q with loads := List.replicate 768 loadReq }) wacc.thr }
theorem witness_LoadsGoInFlight_full : 768 ≤ outstanding crowded crowded.thr.core ∧ outstanding wacc wacc.thr.core < 768 := by decide +kernel
theorem test_load_waits : (match exec (.ldd 2 1 0) crowded with | .next t => t.thr.qs.loads.length == 768 && t.pc == 0x2000 | _ => false) = true := by decide +kernel
/-- The page that a commit has still to copy, in the TLB; and one of 64 KiB. -/
def copying : State := { touched (miss 0x1234 true) with cores := base.cores.set 0 { Core.fresh with owner := some 0, tlb := [page] } }
theorem witness_AddressCheckOrder_protected : tlbFind copying 0 0x1000 = some page ∧ leafAllows page.pte.toNat .store = true ∧ writeProtected copying (leafPA page.pte.toNat page.size 0x1000) = true ∧ writeProtected tacc (leafPA page.pte.toNat page.size 0x1000) = false := by decide +kernel
theorem test_protected_store_faults : translate copying copying.thr .store 0x1000 8 8 true = .fault 0x06 ∧ (match translate copying copying.thr .load 0x1000 8 8 true with | .ok .. => true | _ => false) = true := by decide +kernel
theorem test_64K_leaf : translate { tacc with cores := acc.cores.set 0 { Core.fresh with owner := some 0, tlb := [{ page with va := 0, size := 65536 }] } } tacc.thr .load 0x1000 8 8 true = .ok 0x10000001000 (some 0x10000100008) := by decide +kernel
/-- A crc with a store of the region not yet paired; a tst behind a crc. -/
theorem witness_RegionCloses_unpaired : regionPaired (paired cropen).thr = false ∧ (region .crc []).thr.unwindDue = [] ∧ (paired cropen).thr.unwindDue = [] ∧ behindCrc { (moves 0x101).thr with crcMark := some 0 } 0 = true ∧ heldStores base.thr = false
    ∧ held { moves 0x101 with cur := .access } = false := by decide +kernel
/-! ### Statements about decisions -/

def queueOpen : QueueCfg := { prio := 5, limit := 8, enabled := true, resident := false, launches := 1 }
/-- Partition 0 owns core 0 and core 1; its queue 0 is open; it has pending decisions. -/
def parting (pend : List Pending) : Partition :=
  { Partition.absent with present := true, queues := Partition.absent.queues.set 0 queueOpen, pending := pend, nimg := 4, rebal := 100, starve := 1, cueActive := none }
def module (pend : List Pending) (teams : List Team) (tasks : List Task) : State :=
  { State.reset with
    teams := teams, tasks := tasks, parts := State.reset.parts.set 0 (parting pend), mod := { State.reset.mod with time := 1400000000 }
    cores := (State.reset.cores.set 0 { Core.fresh with owner := some 0 }).set 1 { Core.fresh with owner := some 0 } }
/-- A head that may be dispatched. -/
def headTask : Task := { task with id := 7, state := .head, next := 0 }
def faultTeam : Team := { team with status := .faultWait 2 }

theorem witness_BuiltInDecisions_dispatch : ((module [⟨0, 0⟩] [] [headTask]).part 0).cueActive = none ∧ ((module [⟨0, 0⟩] [] [headTask]).part 0).cueStat.swapPend = false ∧ startable (module [⟨0, 0⟩] [] [headTask]) 0 0 = some ⟨0, 0⟩
    ∧ (dispatchCands (dropPending (module [⟨0, 0⟩] [] [headTask]) 0 ⟨0, 0⟩) 0).map (·.subject) = [7] ∧ (commitDispatch (dropPending (module [⟨0, 0⟩] [] [headTask]) 0 ⟨0, 0⟩) 0 7 none none).map (·.1) = some true
    ∧ startable (module [⟨0, 0⟩] [] []) 0 0 = some ⟨0, 0⟩ ∧ (dispatchCands (dropPending (module [⟨0, 0⟩] [] []) 0 ⟨0, 0⟩) 0).length = 0 := by decide +kernel
theorem test_dispatch : (match exec (.dispatch 0) (module [⟨0, 0⟩] [] [headTask]) with | .next t => t.teams.map (fun u : Team => (u.task, u.ix, u.status, u.chip)) == [(7, 0, .resident, 0)] && t.others.length == 1 | _ => false) = true := by decide +kernel

theorem witness_BuiltInDecisions_fault : startable (module [⟨2, 3⟩] [faultTeam] [task]) 0 2 = some ⟨2, 3⟩ ∧ findTeam (module [⟨2, 3⟩] [faultTeam] [task]) 3 = some faultTeam ∧ findTask (module [⟨2, 3⟩] [faultTeam] [task]) faultTeam.task = some task
    ∧ faultTeam.status = .faultWait 2 ∧ (teamCaps (module [⟨2, 3⟩] [faultTeam] [task]) task faultTeam).testBit 0 = false ∧ (commitFault (dropPending (module [⟨2, 3⟩] [faultTeam] [task]) 0 ⟨2, 3⟩) faultTeam none none).isSome = true := by decide +kernel
theorem test_fault_decision : (match exec (.fault 0) (module [⟨2, 3⟩] [faultTeam] [task]) with | .next t => t.teams.map (fun u : Team => u.status) == [.resident] | _ => false) = true := by decide +kernel

/-- A cue program for REBALANCE that stops at once. -/
def program : CueImage := { entries := [0xFFFF, 0xFFFF, 0xFFFF, 0], code := [0xF000] }
def cueModule : State := { module [⟨3, 0⟩] [{ team with status := .suspended }] [task] with parts := State.reset.parts.set 0 { parting [⟨3, 0⟩] with cueActive := some program } }
theorem witness_CueDecisionStarts : (cueModule.part 0).cueActive = some program ∧ (cueModule.part 0).cueStat.swapPend = false ∧ (cueModule.part 0).cueStat.disabled = false ∧ program.entries.getD 3 0xFFFF ≠ 0xFFFF ∧ startable cueModule 0 3 = some ⟨3, 0⟩ := by decide +kernel
theorem test_cue_decision_starts : (match exec (.rebalance 0) cueModule with | .next t => (t.part 0).run.active && (t.part 0).run.code == [0xF000] && (t.part 0).run.kind == 3 && (t.part 0).pending.isEmpty | _ => false) = true := by decide +kernel

/-- A P2 head that does not fit, and a resident team of a queue of lower priority. -/
def urgent : Task := { headTask with pclass := 2 }
def low : Task := { task with queue := 1 }
def preempting : State := { module [⟨1, 7⟩] [team] [urgent, low] with others := [thread] }
theorem witness_PreemptAndPeriods : startable preempting 0 1 = some ⟨1, 7⟩ ∧ findTask preempting 7 = some urgent ∧ raiserFits (dropPending preempting 0 ⟨1, 7⟩) urgent = false ∧ preempting.teams = [team] ∧ findTask preempting team.task = some low ∧ low.pin = false
    ∧ prioOf preempting low < prioOf preempting urgent ∧ 2 ≤ urgent.pclass ∧ (preempting.part 0).cueActive = none := by decide +kernel
theorem test_preempt : (match exec (.preempt 0) preempting with | .next t => t.teams.map (fun u : Team => (u.status, u.stopFor)) == [(.stopping, .preempt)] && (t.part 0).preempts == 1 | _ => false) = true := by decide +kernel
theorem witness_PreemptAndPeriods_times : scheduling (module [] [{ team with status := .suspended }] [task]) 0 = true ∧ ((module [] [] []).part 0).rebal ≠ 0 ∧ (∃ c ∈ allChips, overloaded (module [] [{ team with status := .suspended }] [task]) 0 c = true)
    ∧ ((module [] [] [headTask]).part 0).starve ≠ 0 ∧ preemptUnderWay (module [] [] [headTask]) 0 = false ∧ imagesHeld (module [] [] [headTask]) 0 < ((module [] [] [headTask]).part 0).nimg
    ∧ (dispatchCands (module [] [] [headTask]) 0).map (fun c => (c.subject, c.row.getD 7 0, decide (1 * 1000 < c.row.getD 1 0))) = [(7, 0, true)] := by decide +kernel
/-- Between two REBALANCE decisions lie REBAL = 100 microseconds of 1,400 cycles; n cycles have passed since the last. -/
def sinceRebal (n : Nat) : State := modPart (module [] [{ team with status := .suspended }] [task]) 0 fun q => { q with lastRebal := 1400000000 - n }
theorem witness_PreemptAndPeriods_rebal : ∀ n ∈ [139999, 140000], overloaded (sinceRebal n) 0 0 = true ∧ ((sinceRebal n).mod.time - ((sinceRebal n).part 0).lastRebal) / 1400 = (if n = 140000 then 100 else 99) ∧ ((sinceRebal n).part 0).rebal = 100 := by decide +kernel
theorem test_rebal_too_early : (match exec (.rebalPeriod 0) (sinceRebal 139999) with | .next t => (t.part 0).pending == [] | _ => false) = true
    ∧ (match exec (.rebalPeriod 0) (sinceRebal 140000) with | .next t => (t.part 0).pending == [⟨3, 0⟩] && (t.part 0).lastRebal == 1400000000 | _ => false) = true := by decide +kernel
/-- The raiser fits now, or is no candidate any more. -/
theorem witness_PreemptAndPeriods_moot : startable (module [⟨1, 7⟩] [] [headTask]) 0 1 = some ⟨1, 7⟩ ∧ raiserFits (dropPending (module [⟨1, 7⟩] [] [headTask]) 0 ⟨1, 7⟩) headTask = true
    ∧ startable (module [⟨1, 7⟩] [] [{ headTask with state := .ended }]) 0 1 = some ⟨1, 7⟩ ∧ isCandidate (dropPending (module [⟨1, 7⟩] [] [{ headTask with state := .ended }]) 0 ⟨1, 7⟩) { headTask with state := .ended } = false
    ∧ isCandidate (dropPending preempting 0 ⟨1, 7⟩) urgent = true ∧ 1 ≤ (preempting.part 0).nimg := by decide +kernel
theorem test_preempt_moot : (match exec (.preempt 0) (module [⟨1, 7⟩] [] [headTask]) with | .next t => (t.part 0).pending == [⟨0, 0⟩] && t.teams.isEmpty | _ => false) = true := by decide +kernel
theorem test_rebal_period : (match exec (.rebalPeriod 0) (module [] [{ team with status := .suspended }] [task]) with | .next t => (t.part 0).pending == [⟨3, 0⟩] | _ => false) = true := by decide +kernel
theorem test_starve : (match exec (.starveTimeout 0) (module [] [] [headTask]) with | .next t => (t.part 0).pending == [⟨1, 7⟩] | _ => false) = true := by decide +kernel

def suspended : State := module [] [{ team with status := .suspended }] [{ task with next := 3 }]
def leaving : Team := { team with status := .stopping, stopFor := .preempt }
theorem witness_StopResumeMove : findTeam { base with teams := [leaving] } 3 = some leaving ∧ replicasOf { base with teams := [leaving] } leaving = [leaving] ∧ leaving.rep = 0 ∧ teamDrained { base with teams := [leaving] } leaving = true
    ∧ scheduling suspended 0 = true ∧ firstPending suspended 0 2 = none ∧ (nextResume suspended 0).map (fun x => (x.1.id, x.2.length)) = some (3, 1) ∧ { team with status := .suspended, moving := some 1 : Team }.moving = some 1
    ∧ (∀ k, findTask (module [] [] [{ task with state := .ended }]) 2 = some k → k.state ≠ .running) := by
  refine ⟨by decide +kernel, by decide +kernel, rfl, by decide +kernel, by decide +kernel, by decide +kernel, by decide +kernel, rfl, ?_⟩
  intro k h
  have : k = { task with state := .ended } := by simpa [findTask, module, task, eq_comm] using h
  rw [this]; decide
/-- The message of a move to chiplet 1, whose route is lit; and a team with a record in a stagehand's queue. -/
def movingTeam : Team := { team with status := .suspended, moving := some 1 }
def onTheWay : State := { module [] [movingTeam] [{ task with state := .ended }] with fabric := [(3, 1)] }
theorem witness_StopResumeMove_move : onTheWay.fabric.find? (fun m => m.1 == movingTeam.id) = some (movingTeam.id, 1) ∧ onTheWay.fabric.find? (fun m => m.2 == 1) = some (movingTeam.id, 1) ∧ (route onTheWay Config.ioDie 1).isSome = true ∧ movingTeam.moving = some 1
    ∧ replicasOf onTheWay movingTeam = [movingTeam] ∧ findTeam onTheWay movingTeam.id = some movingTeam ∧ faultRuns suspended 0 = false ∧ stagedFree suspended 0 = false ∧ (nextResume suspended 0).map (·.1) = some { team with status := .suspended } := by decide +kernel
theorem test_move_message : (match exec (.moveMessage 3) onTheWay with | .next t => t.teams.map (fun u : Team => (u.home, u.moving)) == [(1, none)] && t.fabric.isEmpty | _ => false) = true := by decide +kernel
def queuedRec : EngRec :=
  { id := 70, part := 0, eng := 0, tid := 1, owner := (2, 0, 0), words := [1, 0, 0, 8, 0, 0, 0, 0], seq := 1, bytes := 0, status := .queued, faulted := false, faddr := 0, code := 0, detail := 0, coll := none }
theorem witness_StopResumeMove_stop : findTeam { base with teams := [leaving], eng := [queuedRec] } 3 = some leaving ∧ leaving.status = .stopping ∧ leavesQueue leaving queuedRec = true ∧ leavesQueue leaving { queuedRec with eng := 40 } = false := by decide +kernel
theorem test_stop_takes_records : (match exec (.stop 3) { base with teams := [leaving], eng := [queuedRec, { queuedRec with id := 71, eng := 40 }] } with | .next t => t.eng.map (fun r : EngRec => r.status) == [.imaged, .queued] | _ => false) = true := by decide +kernel
theorem test_stop_completes : (match exec (.stopComplete 3) { base with teams := [leaving] } with | .next t => t.teams.map (fun u : Team => u.status) == [.suspended] && !t.thr.resident | _ => false) = true := by decide +kernel
theorem test_resumes_at_home : (match exec (.teamResume 3) { suspended with others := [{ thread with resident := false }] } with | .next t => t.teams.map (fun u : Team => u.status) == [.resident] && t.others.map (·.resident) == [true] | _ => false) = true := by decide +kernel

/-! ### Statements about the engines -/

/-- A tile of two rows of two words; V1 holds 1, 2, 3, 4 and V2 holds 10, 20, 30, 0xFFFFFFFF. -/
def small : Word := 0x40201
def f32 : Wide := { wideOf0 with vd := 3, va := 1, vb := 2, ty := 7 }
def files (t : Thread) : Thread :=
  { t with shp := small, v := setCells (setCells [] 8192 ([1, 2, 3, 4].flatMap (leBytes 4))) 16384 ([10, 20, 30, 0xFFFFFFFF].flatMap (leBytes 4)) }
def engine (f : Thread → Thread) : State := on fun t => f (files t)

theorem witness_VectorInstructionsIssue : (((vectorForms f32 small).map (·.2.2))[0]? = some true ∧ atLoopEnd (engine id) = false ∧ allAllocated (engine id).thr kVVV (rename (engine id).thr kVVV f32) = true ∧ queueFree (engine id) 32 4 (·.vq) = true
    ∧ queueFree (engine fun t => { t with vq := List.replicate 32 (vecCmd (.vmov f32)) }) 32 4 (·.vq) = false) ∧ Ready (engine id) (gRegs kVVV f32) := ⟨by decide +kernel, ready (by decide)⟩
theorem test_vadd_issues : (match exec (.vadd f32) (engine id) with | .next t => t.thr.vq.length == 1 && t.pc == 0x1008 | _ => false) = true := by decide +kernel

/-- On chiplet 2, an N-class one, and on chiplet 0. -/
def onN (t : Thread) : Thread := { t with core := 32 }
theorem witness_MigratingInstructions : (engine onN).thr.core / 16 % 3 = 2 ∧ accept { f32 with ty := 0 } small isFP true true = true ∧ accept000 { wideOf0 with va := 1 } true = true ∧ queueFree (engine onN) 16 2 (·.mq) = true
    ∧ (extentAt (engine onN) (engine onN).thr (readG (engine onN).thr 4) 16904 64).isSome = true ∧ (engine id).thr.core / 16 % 3 ≠ 2 ∧ atLoopEnd (engine id) = false ∧ allAllocated (engine id).thr kVV (rename (engine id).thr kVV f32) = true
    ∧ allAllocated (engine onN).thr kMat (rename (engine onN).thr kMat { wideOf0 with va := 4 }) = true := by decide +kernel
theorem test_tload_migrates : (match exec (.tload wideOf0) (engine tvec) with | .next t => t.thr.halted || t.thr.wait != .none || t.pc != 0x1008 | _ => false) = true := by decide +kernel

theorem witness_VectorInstructionFaults : atLoopEnd (loopE 2 0) = true ∧ atLoopEnd (engine id) = false
    ∧ allAllocated (on fun t => { t with vregs := 2 }).thr kVVV (rename (on fun t => { t with vregs := 2 }).thr kVVV f32) = false ∧ ((vectorForms { f32 with ty := 5 } small).map (·.2.2))[0]? = some false := by decide +kernel
theorem test_format_fault : (match exec (.vadd { f32 with ty := 5 }) (engine tvec) with | .next t => t.pc == 0x8000 && t.thr.sys.tcause == 0x16 && t.thr.vq.isEmpty | _ => false) = true := by decide +kernel

theorem witness_ShapeInstructions : atLoopEnd base = false ∧ accept000 { wideOf0 with imm := 0x4081 } false = true ∧ shapeValid (BitVec.ofNat 64 (0x4081 / 8192 * 2 ^ 17 + 0x4081 / 128 % 64 * 512 + 0x4081 % 128)) = true
    ∧ shapeValid (BitVec.ofNat 64 (0x6081 / 8192 * 2 ^ 17 + 0x6081 / 128 % 64 * 512 + 0x6081 % 128)) = false ∧ accept000 { wideOf0 with vd := 5, va := 1 } true = true ∧ (readReg (on (g1is small)) 1).toNat < 2 ^ 19
    ∧ shapeValid (readReg (on (g1is small)) 1) = true ∧ 2 ^ 19 ≤ (readReg base 2).toNat := by decide +kernel
theorem test_shp : (match exec (.shp { wideOf0 with imm := 0x4081 }) base with | .next t => t.thr.shp == 0x40201 && t.pc == 0x1008 | _ => false) = true := by decide +kernel

/-- A queued command over that tile. -/
def cmdOf (i : Instr) (g : Word) : Cmd := { i := i, cmdix := 0, shp := small, g1 := g, g2 := 0, marks := 0, pc := 0x1000, vd := 3 }
def queued (i : Instr) (g : Word) (f : Thread → Thread) : State := engine fun t => f { t with vq := [cmdOf i g] }

theorem witness_VectorElementResults : (queued (.vadd f32) 0 id).thr.live = true ∧ (queued (.vadd f32) 0 id).thr.vq = cmdOf (.vadd f32) 0 :: [] ∧ cmdReady (queued (.vadd f32) 0 id) (queued (.vadd f32) 0 id).thr (cmdOf (.vadd f32) 0) [] = true
    ∧ (queued (.vadd f32) 0 id).thr.loopP = [] ∧ shapeValid small = true ∧ wideType f32 true = .int 32 false ∧ 32 = 8 * (shapeOf small).w ∧ Memory.wf (queued (.vadd f32) 0 id).thr.v = true ∧ Memory.wf (queued (.vadd f32) 0 id).thr.z = true := by decide +kernel
theorem witness_VectorHead : (queued (.vadd f32) 0 id).thr.resident = true ∧ vectorChoice (queued (.vadd f32) 0 id) (queued (.vadd f32) 0 id).thr.core = some (queued (.vadd f32) 0 id).thr.ctx ∧ Memory.wf (queued (.vadd f32) 0 id).thr.q = true
    ∧ bankBusy (queued (.vst { wideOf0 with va := 1, vb := 2, ty := 7 }) 64 id) (queued (.vadd f32) 0 id).thr (cmdOf (.vst { wideOf0 with va := 1, vb := 2, ty := 7 }) 64) { tid := 1, off := 64, len := 16 } = false := by decide +kernel
/-- Element 1 is not active under P4 (bits 0, 2 and 3); the destination keeps it, or takes a zero with ZM. -/
def p4 (t : Thread) : Thread := { t with p := upd t.p 4 0b1101 }
def fm (zm : Bool) : Wide := { f32 with pred := 4, zm := zm }
theorem witness_VectorElementResults_masked : activeAt (queued (.vadd (fm false)) 0 p4).thr (fm false) 1 = false ∧ activeAt (queued (.vadd (fm false)) 0 p4).thr (fm false) 2 = true ∧ (fm true).zm = true := by decide +kernel
theorem test_masked : (match exec (.vectorCommand 1 {}) (queued (.vsub (fm true)) 0 p4) with | .next t => getCells t.thr.v 24576 16 == [0xFFFFFFF7, 0, 0xFFFFFFE5, 5].flatMap (leBytes 4) | _ => false) = true
    ∧ (match exec (.vectorCommand 1 {}) (queued (.vsub { fm false with vd := 2 }) 0 p4) with | .next t => getCells t.thr.v 16384 16 == [0xFFFFFFF7, 20, 0xFFFFFFE5, 5].flatMap (leBytes 4) | _ => false) = true := by decide +kernel
/-- To a Q register: row 0 alone. -/
theorem test_q_takes_row_0 : (match exec (.vectorCommand 1 {}) (queued (.vadd { f32 with vd := 97 }) 0 id) with | .next t => getCells t.thr.q 512 16 == ([11, 22].flatMap (leBytes 4)) ++ List.replicate 8 0 && getCells t.thr.z 0 4 == [0, 0, 0, 0] | _ => false) = true := by decide +kernel

/-- IntegerElements: the ends of the range, signed and unsigned, and shifts by the width. -/
theorem witness_IntegerElements : (0x80 : Nat) < 2 ^ 8 ∧ (0xFF : Nat) < 2 ^ 8 := by decide
theorem test_integer_elements : tyAbs (.int 8 false) 0x80 = 0x80 ∧ tyAddSat (.int 8 false) 0x7F 1 = 0x7F ∧ tyAddSat (.int 8 true) 0xFF 1 = 0xFF ∧ tySubSat (.int 8 true) 0 1 = 0 ∧ tySubSat (.int 8 false) 0x80 1 = 0x80 ∧ tyMinMax (.int 8 false) false 0x80 1 = 0x80
    ∧ tyMinMax (.int 8 true) false 0x80 1 = 1 ∧ shlElem 8 1 8 = 0 ∧ sraElem 8 0x80 7 = 0xFF ∧ sraElem 8 0x80 200 = 0xFF ∧ shrElem 8 0x80 8 = 0 ∧ tyFma (.int 8 false) .rne true 3 5 16 = 0xFF := by decide

/-- VectorMovementResults: a reduction with and without active elements, rotation of rows, a transpose, a broadcast. -/
theorem witness_VectorMovementResults : (∀ k < (shapeOf small).n, ¬ activeAt (queued (.vrsumr f32) 0 fun t => { t with p := upd t.p 4 0 }).thr (fm false) k = true) ∧ ({ f32 with imm := 0x2001 } : Wide).mod.toNat / 2048 = 4 ∧ ({ f32 with imm := 0x3000 } : Wide).mod.toNat / 4096 = 3
    := by decide +kernel
theorem test_vrsumr : (match exec (.vectorCommand 1 {}) (queued (.vrsumr f32) 0 id) with | .next t => getCells t.thr.v 24576 16 == [3, 0, 7, 0].flatMap (leBytes 4) | _ => false) = true := by decide +kernel
theorem test_vrsumc : (match exec (.vectorCommand 1 {}) (queued (.vrsumc f32) 0 id) with | .next t => getCells t.thr.v 24576 16 == [4, 6, 0, 0].flatMap (leBytes 4) | _ => false) = true := by decide +kernel
theorem test_vtrans : (match exec (.vectorCommand 1 {}) (queued (.vtrans f32) 0 id) with | .next t => getCells t.thr.v 24576 16 == [1, 3, 2, 4].flatMap (leBytes 4) | _ => false) = true := by decide +kernel
theorem test_vshuf_rotates : (match exec (.vectorCommand 1 {}) (queued (.vshuf { f32 with imm := 0x2001 }) 0 id) with | .next t => getCells t.thr.v 24576 16 == [2, 1, 4, 3].flatMap (leBytes 4) | _ => false) = true := by decide +kernel

/-- CompressResult: the count goes to G26 of the bank selected at issue, to the interrupt bank when that was; VC = 0 discards it. -/
def fcomp (c : BitVec 7) : Wide := { fm false with vc := c }
theorem witness_CompressResult : (fcomp 26).vc.toNat < 32 ∧ 24 ≤ (fcomp 26).vc.toNat ∧ (cmdOf (.vcomp (fcomp 26)) 0).bank = false ∧ (cmdOf (.vcomp (fcomp 26)) 0).bank ≠ { cmdOf (.vcomp (fcomp 26)) 0 with bank := true }.bank := by decide
theorem test_vcomp : (match exec (.vectorCommand 1 {}) (queued (.vcomp (fcomp 26)) 0 p4) with | .next t => getCells t.thr.v 24576 16 == [1, 3, 4, 0].flatMap (leBytes 4) && nth t.thr.g 26 0 == 3 | _ => false) = true := by decide +kernel
theorem test_vcomp_bank : (match exec (.vectorCommand 1 {}) (engine fun t => p4 { t with vq := [{ cmdOf (.vcomp (fcomp 26)) 0 with bank := true }] }) with | .next t => nth t.thr.gi 2 0 == 3 && nth t.thr.g 26 0 == 0 | _ => false) = true := by decide +kernel

/-- ConversionResults: from INT8 to FP32, and an interpolation with an empty table that no element needs. -/
theorem witness_ConversionResults : (∃ s8, cvtSType { wideOf0 with vd := 3, va := 1, ty := 4, rnd := 0 } = some s8 ∧ s8.bits ≤ 32) ∧ (wideType { wideOf0 with vd := 3, va := 1, ty := 4 } true).bits ≤ 8 * (shapeOf small).w
    ∧ (engine id).thr.table.nseg = 0 ∧ (∀ e < (shapeOf small).n, activeAt (engine fun t => { t with p := upd t.p 4 0 }).thr (fm false) e = false) ∧ activeAt (engine id).thr f32 0 = true := by decide +kernel
theorem test_vadd_wraps : (match exec (.vectorCommand 1 {}) (queued (.vadd f32) 0 id) with
    | .next t => getCells t.thr.v 24576 16 == [11, 22, 33, 3].flatMap (leBytes 4) && getCells t.thr.z 0 16 == [11, 22, 33, 3].flatMap (leBytes 4) && t.thr.vq.isEmpty | _ => false) = true := by decide +kernel

theorem witness_PredicateResults : wideType { f32 with vd := 5 } true = .int 32 false ∧ anyActive (queued (.vclt f32) 0 id).thr { f32 with vd := 5 } 4 = true ∧ 0 < ({ f32 with vd := 5 } : Wide).vd.toNat
    ∧ cmdReady (queued (.vclt { f32 with vd := 5 }) 0 id) (queued (.vclt { f32 with vd := 5 }) 0 id).thr (cmdOf (.vclt { f32 with vd := 5 }) 0) [] = true := by decide +kernel
theorem test_vclt_signed : (match exec (.vectorCommand 1 {}) (queued (.vclt { f32 with vd := 5 }) 0 id) with | .next t => readP t.thr 5 == 7 | _ => false) = true := by decide +kernel

def fst0 : Wide := { wideOf0 with va := 1, vb := 2, ty := 7 }
theorem witness_ScratchpadStores : (extentAt (queued (.vst fst0) 64 id) (queued (.vst fst0) 64 id).thr 64 16 4).map (fun e => (e.tid, e.off, bankBusy (queued (.vst fst0) 64 id) (queued (.vst fst0) 64 id).thr (cmdOf (.vst fst0) 64) e)) = some (1, 64, false)
    ∧ cmdReady (queued (.vst fst0) 64 id) (queued (.vst fst0) 64 id).thr (cmdOf (.vst fst0) 64) [] = true ∧ (queued (.vst fst0) 64 id).others = [] ∧ Memory.wf (queued (.vst fst0) 64 id).thr.spad = true
    ∧ extentAt (queued (.vst fst0) 0x7FFF8 id) (queued (.vst fst0) 0x7FFF8 id).thr 0x7FFF8 16 4 = none ∧ (queued (.vst fst0) 0x7FFF8 tvec).thr.trap = none := by decide +kernel
theorem test_vst : (match exec (.vectorCommand 1 {}) (queued (.vst fst0) 64 id) with | .next t => getCells t.thr.spad 64 16 == [10, 20, 30, 0xFFFFFFFF].flatMap (leBytes 4) | _ => false) = true := by decide +kernel
/-- The same extent locked by a transfer, a load of a poisoned unit, and no active element. -/
theorem witness_ScratchpadStores_more : bankBusy (queued (.vst fst0) 64 id) (queued (.vst fst0) 64 id).thr (cmdOf (.vst fst0) 64) { tid := 1, off := 64, len := 16 } = false
    ∧ spadPoisonIn (queued (.vld { wideOf0 with vd := 3, va := 1, ty := 7 }) 64 id) { tid := 1, off := 64, len := 16 } = []
    ∧ (queued (.tint { f32 with ty := 0 }) 0 tvec).thr.table.nseg = 0 ∧ (extentAt (queued (.tload wideOf0) 64 id) (queued (.tload wideOf0) 64 id).thr 64 16 16).isSome = true ∧ extentAt (queued (.tload wideOf0) 8 id) (queued (.tload wideOf0) 8 id).thr 8 16 16 = none
    ∧ headerBad (leBytes 4 0 ++ leBytes 4 0x3F800000 ++ leBytes 8 0) = false ∧ headerBad (List.replicate 16 0) = true ∧ CanEnter (queued (.vst fst0) 0x7FFF8 tvec) := ⟨by decide +kernel, by decide +kernel, by decide +kernel, by decide +kernel, by decide +kernel, by decide +kernel, by decide +kernel, canEnter (by decide)⟩
theorem test_vld : (match exec (.vectorCommand 1 {}) (engine fun t => { t with vq := [cmdOf (.vld { wideOf0 with vd := 3, va := 1, ty := 7 }) 64], spad := setCells [] 64 ([5, 6, 7, 8].flatMap (leBytes 4)) }) with
    | .next t => getCells t.thr.v 24576 16 == [5, 6, 7, 8].flatMap (leBytes 4) | _ => false) = true := by decide +kernel
theorem test_tint_empty_table : (match exec (.vectorCommand 1 {}) (engine fun t => tvec { t with vq := [{ cmdOf (.tint { f32 with ty := 0 }) 0 with words := 0xABC }] }) with | .next t => t.thr.sys.tcause == 0x16 && t.thr.sys.taddr == 0xABC && t.thr.sys.tpc == 0x1000 | _ => false) = true := by decide +kernel
theorem test_vst_out_of_range : (match exec (.vectorCommand 1 {}) (queued (.vst fst0) 0x7FFF8 tvec) with | .next t => t.thr.sys.tcause == 9 && t.thr.sys.taddr == 0x7FFF8 && t.thr.vq.isEmpty | _ => false) = true := by decide +kernel

def fmat : Wide := { wideOf0 with vd := 1, va := 4, vb := 3 }
theorem witness_MatrixInstructionsIssue : accept000 fmat true = true ∧ queueFree (engine id) 16 2 (·.mq) = true ∧ weightTypeOk { fmat with ty := 1 } = true ∧ (extentAt (engine id) (engine id).thr (readG (engine id).thr 3) 32768 64).isSome = true
    ∧ (extentAt (engine id) (engine id).thr (readG (engine id).thr 2) 32768 64).isSome = false ∧ latchAccepts (latestLatch (engine fun t => { t with latch := { t.latch with fmt := .bf16, groupY := true } }).thr).1 1 = true
    ∧ latchAccepts (latestLatch (engine id).thr).1 1 = false ∧ 2 ^ 32 ≤ (readG (engine id).thr 2).toNat ∧ allAllocated (engine id).thr kAcc (rename (engine id).thr kAcc fmat) = true
    ∧ mmacFault (engine fun t => { t with latch := { t.latch with fmt := .bf16, groupY := true } }) 0 0 = none := by decide +kernel

def mqueued (i : Instr) (g : Word) : State := engine fun t => { t with mq := [cmdOf i g], acc := t.acc.set 1 { vis := [(0, 7)], work := [(5, 9)], visPoison := [], workPoison := [5] } }
theorem witness_MatrixCommandResults : (∀ i ∈ [Instr.mclr fmat, .mswap fmat, .mcks fmat, .mwld { fmat with ty := 5 }], (mqueued i 0).thr.mq = cmdOf i 0 :: [] ∧ cmdReady (mqueued i 0) (mqueued i 0).thr (cmdOf i 0) [] = true) ∧ fmat.vd.toNat < 6 ∧ 0 < fmat.vd.toNat
    ∧ (extentAt (mqueued (.mwld fmat) 0) (mqueued (.mwld fmat) 0).thr 0 32768 64).map (fun e => bankBusy (mqueued (.mwld fmat) 0) (mqueued (.mwld fmat) 0).thr (cmdOf (.mwld fmat) 0) e) = some false := by decide +kernel
theorem witness_MatrixHead : matrixChoice (mqueued (.mclr fmat) 0) (mqueued (.mclr fmat) 0).thr.core = some (mqueued (.mclr fmat) 0).thr.ctx ∧ (mqueued (.mclr fmat) 0).thr.resident = true ∧ (mqueued (.mclr fmat) 0).thr.live = true := by decide +kernel
theorem witness_MatrixCommandResults_bank : (cmdOf (.mcks { fmat with vd := 25 }) 0).bank = false ∧ 24 ≤ ({ fmat with vd := 25 } : Wide).vd.toNat ∧ ({ fmat with imm := 1 } : Wide).imm.getLsbD 0 = true := by decide
theorem test_mcks : (match exec (.matrixCommand 1 {}) (engine fun t => { t with mq := [cmdOf (.mcks { fmat with vd := 25, imm := 1 }) 0], mat := { MatStatus.zero with passes := 3, skips := 2, cskip := true } }) with
    | .next t => nth t.thr.g 25 0 == 0x300020001 && t.thr.mat == MatStatus.zero | _ => false) = true := by decide +kernel
theorem test_mswap : (match exec (.matrixCommand 1 {}) (mqueued (.mswap fmat) 0) with
    | .next t => nth t.thr.acc 1 Acc.zero == { vis := [(5, 9)], work := [(0, 7)], visPoison := [5], workPoison := [] } && t.thr.mq.isEmpty | _ => false) = true := by decide +kernel

theorem witness_FormatsRoundTrip : (0x7F7FFFFF : Nat) < 2 ^ Fmt.width .fp32 ∧ (decodeFp .fp32 0x7F7FFFFF).isFin = true ∧ (decodeFp .e4m3 0x7E).isFin = true ∧ (decodeFp .fp32 1).isFin = true := by decide +kernel

/-! ### Statements about cue bytecode -/

def cueRun : CueRun :=
  { CueRun.idle with active := true, kind := 3, c := #v[0, 5, 7, 0xFFFFFFFF, 0, 0, 0, 0], code := [0xF000], cands := [[3, 9], [4, 8]], subjects := [3, 4], chips := List.replicate 12 [1, 2, 3], globs := [6, 5, 4, 3, 2, 1, 0] }
def cue (f : CueRun → CueRun) : State := { base with parts := base.parts.set 0 { base.part 0 with run := f cueRun } }

theorem witness_CueOperations : (cue id).curPart < 8 ∧ (cue id).run.active = true ∧ (cue fun r => { r with steps := 255, cycles := 511 }).run.steps < 256 ∧ (cue fun r => { r with steps := 255, cycles := 511 }).run.cycles + 1 ≤ 512
    ∧ (cue fun r => { r with cycles := 510 }).run.cycles + 2 ≤ 512 := by decide +kernel
theorem test_cue_add_wraps : (match exec (.cueAdd 4 3 1) (cue id) with | .next t => nth t.run.c 4 0 == 4 && t.run.pc == 1 && t.run.steps == 1 | _ => false) = true := by decide +kernel
theorem test_cue_each : (match exec (.cueEach 4 false 3) (cue id) with | .next t => t.run.trips == 2 && t.run.pc == 1 && nth t.run.c 4 0 == 0 | _ => false) = true := by decide +kernel

theorem witness_CueViewAndOutput : (cue id).run.cycles + 2 ≤ 512 ∧ (cue id).run.cands.length ≤ (nth (cue id).run.c 1 0).toNat ∧ (cue id).run.cands[(nth (cue id).run.c 4 0).toNat]? = some [3, 9] ∧ (cue id).run.chips.length ≤ 12 ∧ 12 ≤ (nth (cue id).run.c 3 0).toNat
    ∧ (nth (cue id).run.c 1 0).toNat < 12 ∧ (cue id).run.chips[5]? = some [1, 2, 3] ∧ (cue id).run.picked = none ∧ (cue fun r => { r with picked := some 1 }).run.picked = some 1 ∧ (cue id).run.places.length < 8
    ∧ 8 ≤ (cue fun r => { r with places := List.replicate 8 (0, 0) }).run.places.length := by decide +kernel
theorem test_cue_vget : (match exec (.cueVget 6 4 1) (cue id) with | .next t => nth t.run.c 6 0 == 9 && t.run.cycles == 2 | _ => false) = true := by decide +kernel

theorem witness_CueDecisionEnds : (cue fun r => { r with kind := 1 }).run.kind ≠ 0 ∧ (cue id).run.kind = 3 ∧ (cue id).run.places = [] ∧ 256 ≤ (cue fun r => { r with steps := 256 }).run.steps ∧ 16 ≤ ((15 : BitVec 5) + 1).toNat := by decide +kernel
theorem test_cue_deny : (match exec (.cueDeny 9) (cue id) with | .next t => !t.run.active && (t.part 0).decisionLog == [9] | _ => false) = true := by decide +kernel
theorem test_cue_overrun : (match exec (.cueAdd 1 2 3) (cue fun r => { r with steps := 256 }) with | .next t => !t.run.active && (t.part 0).cueStat.consec == 1 | _ => false) = true := by decide +kernel

/-! ### Statements about records -/

/-- The 128 bytes of a record: kind, flags, and fields as (offset, bytes, value). -/
def raw (kind flags : Nat) (fs : List (Nat × Nat × Nat)) : List Byte :=
  ((0, 1, kind) :: (3, 1, flags) :: (2, 1, if kind ≤ 5 then 0 else 0xFF) :: fs).foldl (fun l f => (leBytes f.2.1 f.2.2).zipIdx.foldl (fun l b => l.set (f.1 + b.2) b.1) l) (List.replicate 128 0)
def hrec (kind flags : Nat) (fs : List (Nat × Nat × Nat)) : HRec :=
  { id := 50, conn := 9, part := 0, queue := 0, kind := kind, raw := raw kind flags fs, data := [], status := .waiting, started := 0, watch := none }
def conn (id chan : Nat) (isOpen : Bool) : Conn :=
  { id := id, port := 0, node := 2, chan := chan, isOpen := isOpen, closing := false, lost := false, rx := 5, tx := 3, unacked := [], flight := 0, win := 8, owed := 0, tries := 0, sentAt := 0, holdUntil := 0, refuseUntil := 0, dataDue := 0, dataRec := none }
/-- Partition 0 with a heap of 2 MiB at the start of HBM4, its cores and an open queue; a host's connections 9 and 10, and one record. -/
def hostModule (p : Partition → Partition) (r : HRec) : State :=
  { module [] [] [] with
    parts := State.reset.parts.set 0 (p { parting [] with heapPA := 0x10000000000, heapLen := 0x200000, quota := 0x1000000 })
    mem := setCells [] 0x10000001000 [0xF1, 0xFF, 3, 4, 5, 6, 7, 0x88], conns := [conn 9 0 true, conn 10 1 true], recs := [r] }

theorem recordReady {s : State} {id kind : Nat} {op : Option Nat} {r : HRec} (h : s.recs.find? (fun r => r.id == id) = some r)
    (g : (r.kind == kind && (op.all fun o => debugOp r.raw == o) && mayStart s r && partOk s r.conn r.raw) = true) : RecordReady s id kind op r := by
  simp only [Bool.and_eq_true, beq_iff_eq] at g
  refine ⟨h, g.1.1.1, fun o e => ?_, g.1.2, g.2⟩
  subst e; simpa using g.1.1.2

/-- What the last message sent says: RKIND, CODE, DETAIL and BYTES. -/
def answer (o : Host.Outcome State Fault Refusal) : List Nat :=
  match o with
  | .next t => match t.out.getLast? with
    | some (.clovo _ _ _ _ _ _ _ _ _ _ p) => [fieldOf p 0 1, fieldOf p 8 1, fieldOf p 12 4, fieldOf p 16 8]
    | _ => []
  | _ => []

def heap : Nat := 0x4000000000
def rwait (want : Nat) : HRec := hrec 3 4 [(0x20, 8, heap + 0x1000), (0x28, 8, want)]

theorem witness_RecordsComplete : (hostModule id (rwait 1)).recs.find? (fun r => r.id == 50) = some (rwait 1) ∧ fieldOf (rwait 1).raw 3 1 = 4 ∧ fieldOf (hrec 3 0 []).raw 3 1 = 0 ∧ fieldOf (hrec 3 1 [(8, 8, heap)]).raw 3 1 = 1
    ∧ translatePart (hostModule id (rwait 1)) 0 .store heap 8 = .ok 0x10000000000 none ∧ fieldOf (hrec 3 2 [(0x18, 8, heap + 32)]).raw 0x18 8 % 32 = 0 ∧ Memory.wf (hostModule id (rwait 1)).mem = true
    ∧ mayStart (hostModule (fun p => { p with present := false }) (rwait 1)) (rwait 1) = true ∧ partOk (hostModule (fun p => { p with present := false }) (rwait 1)) 9 (rwait 1).raw = false := by decide +kernel
theorem test_absent_partition : answer (exec (.wait 50) (hostModule (fun p => { p with present := false }) (rwait 1))) = [2, 0x0D, 1, 0] := by decide +kernel

theorem witness_HostRecords_wait : RecordReady (hostModule id (rwait 1)) 50 0x03 none (rwait 1) ∧ translatePart (Begun (hostModule id (rwait 1)) 50) 0 .load (heap + 0x1000) 8 = .ok 0x10000001000 none
    ∧ 1 ≤ getLe (hostModule id (rwait 1)).mem 0x10000001000 8 ∧ getLe (hostModule id (rwait 1)).mem 0x10000001000 8 < 0xFFFFFFFFFFFFFFFF ∧ (reach (Begun (hostModule id (rwait 1)) 50) 0 .load 0x1000 8).isNone = true :=
  ⟨recordReady rfl (by decide +kernel), by decide +kernel⟩
theorem test_wait_done : answer (exec (.wait 50) (hostModule id (rwait 1))) = [1, 1, 0, 0] := by decide +kernel
theorem test_wait_watches : (match exec (.wait 50) (hostModule id (rwait 0xFFFFFFFFFFFFFFFF)) with | .next t => t.recs.map (·.watch) == [some 0x10000001000] && t.out.isEmpty | _ => false) = true := by decide +kernel
def rsignal : HRec := hrec 4 4 [(0x20, 8, heap + 0x1000), (0x28, 8, 0x0F)]
theorem witness_HostRecords_signal : RecordReady (hostModule id rsignal) 50 0x04 none rsignal ∧ rangeHeld (hostModule id rsignal) 0 (heap + 0x1000) 8 = false := ⟨recordReady rfl (by decide +kernel), by decide +kernel⟩
theorem test_signal_adds : (match exec (.signal 50) (hostModule id rsignal) with | .next t => getLe t.mem 0x10000001000 8 == 0x8807060504040000 | _ => false) = true := by decide +kernel
def rcopy (dir : Nat) : HRec := { hrec 5 4 [(0x20, 8, heap + 0x1000), (0x28, 8, 4), (0x30, 1, dir)] with data := if dir = 0 then [1, 2, 3, 4] else [] }
theorem witness_HostRecords_copy : RecordReady (hostModule id (rcopy 0)) 50 0x05 none (rcopy 0) ∧ RecordReady (hostModule id (rcopy 1)) 50 0x05 none (rcopy 1) ∧ deviceOwns (hostModule id (rcopy 0)) 0 (heap + 0x1000) 4 = false
    ∧ deviceOwns (hostModule (fun p => { p with ranges := [{ va := heap, len := 0x2000, device := true }] }) (rcopy 0)) 0 (heap + 0x1000) 4 = true ∧ 4 ≤ 64 - (heap + 0x1000) % 64 ∧ (rcopy 0).data.length = 4
    ∧ (hostReach (Begun (hostModule id (rcopy 0)) 50) 0 .store (heap + 0x1000) 4).map (·.1) = some 0x10000001000 ∧ poisonedIn (hostModule id (rcopy 1)) 0x10000001000 4 = false := ⟨recordReady rfl (by decide +kernel), recordReady rfl (by decide +kernel), by decide +kernel⟩
theorem test_copy_to_device : (match exec (.hostCopy 50) (hostModule id (rcopy 0)) with | .next t => getCells t.mem 0x10000001000 5 == [1, 2, 3, 4, 5] | _ => false) = true ∧ answer (exec (.hostCopy 50) (hostModule id (rcopy 0))) = [1, 1, 0, 4] := by decide +kernel
theorem test_copy_owned : answer (exec (.hostCopy 50) (hostModule (fun p => { p with ranges := [{ va := heap, len := 0x2000, device := true }] }) (rcopy 0))) = [1, 0x0B, 0, 0] := by decide +kernel

/-- A LAUNCH of an image already in the table. -/
def rlaunch : HRec := hrec 1 4 [(0x20, 8, heap), (0x28, 2, 3), (0x2A, 1, 1)]
def launching (tasks : List Task) : State := { hostModule id rlaunch with tasks := tasks, images := [{ part := 0, addr := BitVec.ofNat 64 heap, img := img }], nextId := 60 }
theorem witness_LaunchAndTroupe_launch : RecordReady (launching []) 50 0x01 none rlaunch ∧ ((launchTables (Begun (launching []) 50) rlaunch.raw).toOption.map fun x => (x.1, x.2.1)) = some ([], []) ∧ (imageFor (Begun (launching []) 50) 0 heap).toOption.map (·.1) = some img
    ∧ (nth ((launching []).part 0).queues 0 noQueue).limit = 8 ∧ (8 : Nat) ≤ ((List.replicate 8 headTask).filter fun t => t.part == 0 && t.queue == 0 && !t.troupe).length := ⟨recordReady rfl (by decide +kernel), by decide +kernel⟩
theorem test_launch : (match exec (.launch 50) (launching []) with | .next t => t.tasks.map (fun k => (k.id, k.state, k.nteams, k.pclass)) == [(60, .head, 3, 1)] && (t.part 0).pending == [⟨0, 0⟩] | _ => false) = true := by decide +kernel
theorem test_launch_limit : answer (exec (.launch 50) (launching (List.replicate 8 headTask))) = [1, 0x0C, 1, 0] := by decide +kernel
def rlaunchBad : HRec := hrec 1 4 [(0x20, 8, heap), (0x28, 2, 3), (0x2C, 1, 1), (0x38, 8, 0x1000)]
theorem witness_LaunchAndTroupe_fault : RecordReady (hostModule id rlaunchBad) 50 0x01 none rlaunchBad ∧ (launchTables (Begun (hostModule id rlaunchBad) 50) rlaunchBad.raw).toOption.isNone = true := ⟨recordReady rfl (by decide +kernel), by decide +kernel⟩
theorem test_launch_table_fault : answer (exec (.launch 50) (hostModule id rlaunchBad)) = [1, 2, 0, 0] := by decide +kernel

/-- A TROUPE of one part, whose record lies in the heap. -/
def part1 : List Byte := raw 1 0 [(2, 1, 0xFF), (0x20, 8, heap), (0x28, 2, 1)]
def rtroupe : HRec := hrec 2 0 [(0x20, 8, heap + 0x2000), (0x28, 1, 1), (0x2C, 4, 100)]
def trouping : State :=
  { hostModule (fun p => { p with nimg := 4 }) rtroupe with mem := setCells [] 0x10000002000 part1, images := [{ part := 0, addr := BitVec.ofNat 64 heap, img := img }], nextId := 60 }
theorem witness_LaunchAndTroupe_troupe : RecordReady trouping 50 0x02 none rtroupe ∧ trouping.troupe = none ∧ ((readRange (Begun trouping 50) 0 (heap + 0x2000) 128).toOption.map (·.1)) = some part1
    ∧ (∀ p ∈ troupeParts { rtroupe with data := part1 }, partRecordOk trouping 9 p = true) ∧ ((troupeParts { rtroupe with data := part1 }).map rPart).Nodup
    ∧ (∃ p ∈ troupeParts { rtroupe with data := List.replicate 128 0xFF }, partRecordOk trouping 9 p = false) := ⟨recordReady rfl (by decide +kernel), by decide +kernel⟩
theorem test_troupe_starts : (match exec (.troupe 50) trouping with | .next t => t.tasks.map (fun k => (k.state, k.troupe)) == [(.running, true)] && t.teams.map (fun u : Team => u.status) == [.resident] && t.troupe.isNone | _ => false) = true := by decide +kernel
/-- A troupe that has waited with nothing reserved yet and goes on. -/
def waitingTroupe : State := { trouping with recs := [{ rtroupe with data := part1, status := .started }], troupe := some { record := 50, parts := [] } }
theorem witness_LaunchAndTroupe_more : waitingTroupe.recs.find? (fun r => r.id == 50) = some { rtroupe with data := part1, status := .started } ∧ recordsRun waitingTroupe = true
    ∧ (((reserveParts waitingTroupe { rtroupe with data := part1, status := .started } ((troupeParts { rtroupe with data := part1 }).drop 0)).toOption.bind (·.troupe)).map fun t => t.parts.length) = some 1
    ∧ (troupeParts { rtroupe with data := part1 }).length = 1 ∧ fieldOf rtroupe.raw 0x2C 4 ≤ micros waitingTroupe 0 ∧ fieldOf rtroupe.raw 3 1 = 0 := by decide +kernel
theorem test_troupe_goes_on : (match exec (.troupe 50) waitingTroupe with | .next t => t.tasks.map (fun k => k.state) == [.running] && t.troupe.isNone && t.recs.isEmpty | _ => false) = true := by decide +kernel
theorem test_troupe_expires : (match exec (.troupeTwaitExpiry 50) { trouping with troupe := some { record := 50, parts := [] } } with | .next t => t.troupe.isNone && t.recs.isEmpty | _ => false) = true := by decide +kernel

/-! ### Statements about engine records -/

/-- A record of stagehand 0 of partition 0: kind and words. -/
def erec (kind : Nat) (src dst : Word) (n : Word) : EngRec :=
  { id := 70, part := 0, eng := 0, tid := 1, owner := (2, 0, 0), words := [BitVec.ofNat 64 kind, src, dst, n, 0, 0, 0, 0], seq := 1, bytes := 0, status := .queued, faulted := false, faddr := 0, code := 0, detail := 0, coll := none }
def stage (r : EngRec) : State := { hostModule id (rwait 1) with recs := [], thr := thread, teams := [team], tasks := [task], eng := [r] }
def ecopy (n : Word) : EngRec := erec 1 0x4000001000 0x4000001040 n
theorem witness_StagehandRecords : findEng (stage (ecopy 8)) 70 = some (ecopy 8) ∧ (ecopy 8).eng ≠ 40 ∧ isHead (stage (ecopy 8)) (ecopy 8) = true ∧ engineServes (stage (ecopy 8)) (ecopy 8) = true ∧ debugStops (stage (ecopy 8)) (ecopy 8) = false ∧ recKind (ecopy 8).words = 1
    ∧ (0x4000001000 : Nat) < 0x4000001040 + 64 ∧ (0x4000001040 : Nat) < 0x4000001000 + 65 ∧ translatePart (stage (ecopy 8)) 0 .load 0x4000001000 8 = .ok 0x10000001000 none ∧ translatePart (stage (ecopy 8)) 0 .store 0x4000001040 8 = .ok 0x10000001040 none
    ∧ commitHolds (stage (ecopy 8)) 0x10000001040 8 = false ∧ (reach (stage (ecopy 8)) 0 .load 0x1000 8).isNone = true ∧ recKind (erec 3 0 0 8).words = 3 ∧ (demandMap (stage (ecopy 8)) 0 0x1000).isNone = true
    ∧ recSwe (ecopy 8).words = false ∧ recSeme (ecopy 8).words = false ∧ recUli (ecopy 8).words = false := by decide +kernel
theorem test_stagehand_copies : (match exec (.stagehandSegment 70) (stage (ecopy 8)) with | .next t => getCells t.mem 0x10000001040 8 == [0xF1, 0xFF, 3, 4, 5, 6, 7, 0x88] && t.eng.map (fun r => (r.status, r.code, r.bytes)) == [(.done, 1, 8)] | _ => false) = true := by decide +kernel
theorem test_stagehand_overlap : (match exec (.stagehandSegment 70) (stage (ecopy 65)) with | .next t => t.eng.map (fun r => (r.status, r.code, r.bytes)) == [(.done, 3, 0)] | _ => false) = true := by decide +kernel
theorem test_stagehand_fault : (match exec (.stagehandSegment 70) (stage (erec 1 0x1000 0x4000001040 8)) with | .next t => t.eng.map (fun r => (r.status, r.faulted, r.faddr)) == [(.queued, true, 0x1000)] | _ => false) = true := by decide +kernel
theorem test_stagehand_fill : (match exec (.stagehandSegment 70) (stage (erec 3 0x0807060504030201 0x4000001042 8)) with | .next t => getCells t.mem 0x10000001042 8 == [3, 4, 5, 6, 7, 8, 1, 2] | _ => false) = true := by decide +kernel
theorem witness_StagehandRecords_turn : servable (stage (ecopy 8)) (ecopy 8) = true ∧ nextServed (stage (ecopy 8)) 0 = some 0 ∧ (ecopy 8).ahead = [] ∧ servable (stage { ecopy 8 with faulted := true }) { ecopy 8 with faulted := true } = true
    ∧ nextServed (stage { ecopy 8 with faulted := true }) 0 = some 0 ∧ recUli (erec 0x401 0 0 8).words = true ∧ (stage (ecopy 8)).thr.uli.length < 16 ∧ (stage (ecopy 8)).thr.live = true := by decide +kernel
theorem test_stagehand_segment_ends_fault : (match exec (.stagehandSegment 70) (stage { erec 1 0x1000 0x4000001040 8 with faulted := true, faddr := 0x1000 }) with | .next t => t.eng.map (fun r => (r.status, r.code, r.faddr)) == [(.done, 2, 0x1000)] | _ => false) = true := by decide +kernel
theorem test_record_completes : (match exec (.recordCompletion 70) (stage { ecopy 8 with status := .done, code := 1, bytes := 8 }) with | .next t => t.eng.isEmpty && t.thr.uli.isEmpty | _ => false) = true := by decide +kernel

/-- A group table of n members at the heap's start, of which this module is rank 0 and node 3 is rank 1; a record of four bytes. -/
def group (n : Nat) : List Byte := leBytes 2 n ++ leBytes 2 0 ++ leBytes 4 0 ++ leBytes 8 7 ++ (leBytes 8 1 ++ leBytes 8 0) ++ (leBytes 8 3 ++ leBytes 8 1)
def ecoll (kind : Nat) (cdesc : Word) (tmo : Nat) : EngRec :=
  { erec kind 0x4000001000 0x4000001040 cdesc with eng := 40, words := [BitVec.ofNat 64 (kind + tmo * 2 ^ 32), 0x4000001000, 0x4000001040, cdesc, 0x4000000000, 0, 0, 0] }
def collConn (id : Nat) (node : Word) : Conn := { conn id 2 true with node := node, port := 1 }
/-- The next DATA message of a member's COLLECTIVE connection. -/
def collMsg (node : Word) : Clovo := { port := 1, ver := 1, chan := 2, flags := 0, win := 4, retry := 20, psn := 5, apsn := 0, src := node, dst := 1, payload := [] }
def grouped (n : Nat) (r : EngRec) : State := { stage r with conns := (stage r).conns ++ [collConn 11 3, collConn 12 5], mem := setCells (setCells [] 0x10000001000 [1, 2, 3, 4]) 0x10000000000 (group n) }
/-- SEND of four bytes to rank 1, and ALL_REDUCE (kind 0x10) of one INT32. -/
def esend : EngRec := ecoll 0x13 0x0100000000000004 0
def ering : EngRec := ecoll 0x10 0x0002000000000001 0

theorem witness_CollectiveRecords_start : (∀ r ∈ [esend, ering], findEng (grouped 2 r) 70 = some r ∧ r.eng = 40 ∧ r.status = .queued ∧ collTurn (grouped 2 r) r = true ∧ engineServes (grouped 2 r) r = true
      ∧ (readRange (grouped 2 r) 0 0x4000000000 16).toOption.map (·.1) = some ((group 2).take 16) ∧ (readRange (grouped 2 r) 0 0x4000000010 32).toOption.map (·.1) = some ((group 2).drop 16)
      ∧ tableOk (groupTable ((group 2).take 16) ((group 2).drop 16)) (recKind r.words) (recDword r.words 3) = true) ∧ fieldOf ((group 1).take 16) 0 2 < 2 ∧ (grouped 2 ering).frames = []
    ∧ tableOk (groupTable ((group 2).take 16) ((group 2).drop 16)) 0x13 0x0000000000000004 = false := by decide +kernel
theorem test_collective_send : (match exec (.collectiveRecordStart 70) (grouped 2 esend) with
    | .next t => t.eng.map (·.status) == [.running] && (match t.out with | [.peer 1 2 3 1 n (.frame f)] => n == 3 && f.bytes == [1, 2, 3, 4] && f.epoch == 7 && f.kind == 0x13 | _ => false) | _ => false) = true := by decide +kernel
theorem witness_CollectiveRecords_more : (readEntries (grouped 2 esend) 0 0x4000000000 2 0).1 = (group 2).drop 16 ∧ (readEntries (grouped 1 esend) 0 0x4000000000 1 0).1.length = 16 ∧ (firstHole (grouped 2 esend) 0 .load 2 0x4000001000 4).1 = none
    ∧ (firstHole (grouped 2 ering) 0 .store 2 0x4000001040 4).1 = none ∧ (readRange (grouped 2 esend) 0 0x4000001000 4).toOption.map (·.1) = some [1, 2, 3, 4] ∧ srcBytes 0x13 0x0100000000000004 = 4 ∧ (groupTable ((group 2).take 16) ((group 2).drop 16)).ports.getD 1 0 = 1
    ∧ filterOn (grouped 2 esend) = true ∧ (grouped 2 esend).mod.power = .ps0 ∧ (∃ c ∈ (grouped 2 esend).conns, c.node = 3 ∧ c.chan = 2 ∧ c.isOpen = true) ∧ (∀ c ∈ (stage esend).conns, c.chan = 2 → c.isOpen = false) ∧ filterOn (stage esend) = true := by decide +kernel
/-- A group that SEND cannot use: its peer is its own rank. The members of the table hear of it. -/
theorem test_collective_malformed_aborts : (match exec (.collectiveRecordStart 70) (grouped 2 (ecoll 0x13 0x0000000000000004 0)) with
    | .next t => t.eng.map (fun r => (r.status, r.code)) == [(.done, 7)] && (match t.out with | [.peer 1 2 3 1 n (.abort a)] => n == 3 && a.epoch == 7 && a.kind == 0x13 | _ => false) | _ => false) = true := by decide +kernel
theorem test_no_connection : (match exec (.holdFrame (collMsg 3) 7) (stage esend) with | .next t => (match t.out with | [.clovo _ 3 2 _ _ _ _ 3 _ n _] => n == 3 | _ => false) | _ => false) = true := by decide +kernel
theorem test_collective_malformed : (match exec (.collectiveRecordStart 70) (grouped 1 ering) with | .next t => t.eng.map (fun r => (r.status, r.code)) == [(.done, 7)] && t.out.isEmpty | _ => false) = true := by decide +kernel

def collState (rank : Nat) (n : Nat) : CollState :=
  { rank := rank, epoch := 7, nodes := (List.range n).map fun i => BitVec.ofNat 64 (2 * i + 1), ports := (List.range n).map fun i => i, round := 0, sources := [], bad := false, lastRecv := 0, lastSent := 0 }
def frameOf (r : EngRec) (n origin : Nat) (node : Word) (bs : List Byte) : CollFrame :=
  { node := node, epoch := 7, kind := if recKind r.words = 0x14 then 0x13 else recKind r.words, dt := cdDt (recDword r.words 3), op := cdOp (recDword r.words 3), nmem := n, count := cdCount (recDword r.words 3), round := 0, origin := origin, bytes := bs, poison := [] }
def running (r : EngRec) (x : CollState) : EngRec := { r with status := .running, coll := some x }
def erecv : EngRec := ecoll 0x14 0x0100000000000004 1000
/-- A ring of three members, rank 0 waiting for rank 2; and a RECV. -/
def ring3 : EngRec := running { ering with words := (ecoll 0x10 0x0002000000000001 1000).words } { collState 0 3 with sources := [frameOf ering 3 0 1 [1, 2, 3, 4]] }
def recv2 : EngRec := running erecv (collState 0 2)

theorem witness_CollectiveRecords_frames : (∀ x ∈ [(ring3, frameOf ring3 3 2 5 [5, 0, 0, 0]), (recv2, frameOf recv2 2 1 3 [9, 9, 9, 9])], ((recordFor (grouped 2 x.1) x.2).map fun y => y.1.id) = some 70 ∧ findEng (grouped 2 x.1) 70 = some x.1)
    ∧ agrees recv2 (collState 0 2) (frameOf recv2 2 1 3 [9, 9, 9, 9]) = true ∧ agrees recv2 (collState 0 2) { frameOf recv2 2 1 3 [9, 9, 9, 9] with count := 5 } = false ∧ cdPeer (recDword recv2.words 3) = 1
    ∧ rangeHeld (grouped 2 recv2) 0 (recDword recv2.words 2) 4 = false ∧ recTmo ring3.words = 1000 ∧ recTmo ring3.words ≤ micros (grouped 2 ring3) 0 ∧ max (recTmo ring3.words / 4) 1 ≤ micros (grouped 2 ring3) 0 := by decide +kernel
theorem witness_CollectiveRecords_peers : (∀ x ∈ [((3 : Word), collConn 11 3), (5, collConn 12 5)], let s := grouped 2 ring3; portTakes (collMsg x.1) = true ∧ clovoSound s (collMsg x.1) = true ∧ connOf s (collMsg x.1) = some x.2
      ∧ s.conns.find? (fun y => y.id == x.2.id) = some x.2 ∧ (collMsg x.1).psn = x.2.rx ∧ x.2.refuseUntil ≤ s.mod.time ∧ x.2.owed < 15) ∧ bufferUsed (grouped 2 ring3) = 0 := by decide +kernel
theorem witness_CollectiveRecords_epochs : engineOn (grouped 2 ring3) = true ∧ otherEpoch (grouped 2 ring3) 5 8 = true ∧ otherEpoch (grouped 2 ring3) 3 8 = false ∧ otherEpoch (grouped 2 ring3) 5 7 = false := by decide +kernel
theorem witness_CollectiveRecords_noconn : portTakes (collMsg 3) = true ∧ clovoSound (stage esend) (collMsg 3) = true ∧ connOf (stage esend) (collMsg 3) = none := by decide +kernel
/-- An idle open connection to a member; a full one; none. -/
theorem witness_CollectiveRecords_leaves : ((grouped 2 ring3).conns.find? fun c => c.node == 3 && c.chan == 2 && !c.lost && !c.closing) = some (collConn 11 3) ∧ (grouped 2 ring3).conns.find? (fun x => x.id == 11) = some (collConn 11 3) ∧ (collConn 11 3).unacked = []
    ∧ (collConn 11 3).flight = 0 ∧ 0 < (collConn 11 3).win ∧ (collConn 11 3).holdUntil = 0 ∧ { collConn 11 3 with flight := 8 }.win ≤ 8 := by decide +kernel
theorem witness_CollectiveRecords_opens : (∀ c ∈ (stage ring3).conns, (c.node ≠ 3 ∨ c.chan ≠ 2) ∧ c.id ≠ (stage ring3).nextId) ∧ (collState 0 3).ports = [0, 1, 2] ∧ (groupTable ((group 2).take 16) ((group 2).drop 16)).ports = [0, 1] ∧ (groupTable ((group 2).take 16) ((group 2).drop 16)).rank = 0 := by decide +kernel
theorem witness_CollectiveRecords_abort : (0x10 : Nat) < 0x13 ∧ recKind ring3.words = 0x10 ∧ (collState 0 3).nodes.getD 2 0 = 5 ∧ sourceRank 0x10 (recDword ring3.words 3) (collState 0 3) = 2 ∧ recKind recv2.words = 0x14 ∧ (collState 0 2).nodes.getD (cdPeer (recDword recv2.words 3)) 0 = 3
    ∧ (recordFor (grouped 2 ring3) { frameOf ring3 3 2 5 [5, 0, 0, 0] with epoch := 8 }).isNone = true ∧ roundOf (grouped 2 ring3) (frameKey { frameOf ring3 3 2 5 [5, 0, 0, 0] with epoch := 8 }) = 0 := by decide +kernel
/-- Of another epoch: kept from a member that the record in progress does not wait for, dropped from the one it waits for. -/
theorem test_early_frame_is_kept : (match exec (.collectiveFrame (collMsg 3, { frameOf ring3 3 1 3 [5, 0, 0, 0] with epoch := 8 })) (grouped 2 ring3) with | .next t => t.frames.length == 1 && t.out.isEmpty | _ => false) = true
    ∧ (match exec (.collectiveFrame (collMsg 5, { frameOf ring3 3 2 5 [5, 0, 0, 0] with epoch := 8 })) (grouped 2 ring3) with | .next t => t.frames.isEmpty && t.conns.map (·.rx) == [5, 5, 5, 6] | _ => false) = true := by decide +kernel
theorem test_abort_of_another_round : (match exec (.collectiveAbort (collMsg 3, { node := 3, epoch := 7, kind := 0x10, round := 1 })) (grouped 2 ring3) with | .next t => t.eng.map (·.status) == [.running] | _ => false) = true := by decide +kernel
theorem test_ring_passes_on : (match exec (.collectiveFrame (collMsg 5, frameOf ring3 3 2 5 [5, 0, 0, 0])) (grouped 2 ring3) with
    | .next t => (match t.out with | [.peer 1 2 3 1 n (.frame f)] => n == 3 && f.origin == 2 && f.node == 1 | _ => false) && t.eng.map (fun r => (r.status, (r.coll.map fun x => x.sources.length))) == [(.running, some 2)] | _ => false) = true := by decide +kernel
theorem test_recv_writes : (match exec (.collectiveFrame (collMsg 3, frameOf recv2 2 1 3 [9, 9, 9, 9])) (grouped 2 recv2) with | .next t => getCells t.mem 0x10000001040 4 == [9, 9, 9, 9] && t.eng.map (fun r => (r.status, r.code, r.bytes)) == [(.done, 1, 4)] | _ => false) = true := by decide +kernel
theorem test_recv_mismatch : (match exec (.collectiveFrame (collMsg 3, { frameOf recv2 2 1 3 [9, 9, 9, 9] with count := 5 })) (grouped 2 recv2) with | .next t => t.eng.map (fun r => (r.status, r.code)) == [(.done, 6)] | _ => false) = true := by decide +kernel
theorem test_collective_timeout : (match exec (.collectiveTimeout 70) (grouped 2 ring3) with | .next t => t.eng.map (fun r => (r.status, r.code, r.detail)) == [(.done, 4, 2)] | _ => false) = true := by decide +kernel
theorem test_collective_abort : (match exec (.collectiveAbort (collMsg 3, { node := 3, epoch := 7, kind := 0x10, round := 0 })) (grouped 2 ring3) with | .next t => t.eng.map (fun r => (r.status, r.code)) == [(.done, 5)] | _ => false) = true := by decide +kernel
theorem test_hold_timer : (match exec (.holdTimer 70) (grouped 2 ring3) with | .next t => t.out == [.peer 1 2 3 1 3 (.hold 7)] | _ => false) = true := by decide +kernel

/-! ### Statements about the wire -/

def msg (chan : Nat) (src : Word) (psn apsn : Word32) (p : List Byte) : Clovo :=
  { port := if chan < 2 then 0 else 1, ver := 1, chan := chan, flags := 0, win := 4, retry := 20, psn := psn, apsn := apsn, src := src, dst := 1, payload := p }
def wire (cs : List Conn) : State := { hostModule id (rwait 1) with recs := [], conns := cs, mod := { (hostModule id (rwait 1)).mod with time := 0 } }
def peer (f : Conn → Conn) : Conn := f { conn 11 2 true with node := 3, port := 1 }

theorem witness_HostConnections : filterOn (wire []) = true ∧ filterOn { wire [] with mod := { (wire []).mod with power := .ps3 } } = false ∧ portTakes (msg 2 3 0 0 []) = true ∧ portTakes { msg 2 3 0 0 [] with port := 0 } = false ∧ clovoSound (wire []) (msg 2 3 0 0 []) = true
    ∧ mayOpen (wire []) (msg 2 9 0 0 []) = false ∧ mayOpen (wire []) (msg 2 3 0 0 []) = true ∧ mayOpen (wire []) (msg 0 2 0 0 []) = true ∧ connOf (wire []) (msg 2 3 0 0 []) = none ∧ connOf (wire [peer id]) (msg 2 3 5 0 []) = some (peer id)
    ∧ (peer id).rx = 5 ∧ (peer id).refuseUntil ≤ (wire []).mod.time ∧ (peer id).owed + 1 < 16 ∧ ((4 : Word32) - 5).msb = true ∧ ((6 : Word32) - 5).msb = false ∧ (wire []).mod.time < (peer fun c => { c with refuseUntil := 1 }).refuseUntil := by decide +kernel
theorem witness_HostConnections_record : connOf (wire [conn 9 0 true]) (msg 0 2 5 0 (rwait 1).raw) = some (conn 9 0 true) ∧ (rwait 1).raw.length = 128 ∧ malformedAt (rwait 1).raw = none ∧ safeOk (wire []) (rwait 1).raw = true ∧ fastPath (wire []) (rwait 1).raw = false
    ∧ bufferUsed (wire []) + 128 ≤ 2 ^ 20 ∧ (conn 9 0 true).unacked = [] ∧ (conn 9 0 true).owed = 0 := by decide +kernel
theorem test_open_unknown_node : (match exec (.clovoOpen (msg 2 9 0 0 [])) (wire []) with | .next t => (match t.out with | [.clovo 1 3 2 0 0 _ 0 3 _ 9 []] => true | _ => false) && t.conns.isEmpty | _ => false) = true := by decide +kernel
theorem test_open_command : (match exec (.clovoOpen (msg 0 2 0 0 [])) (wire []) with | .next t => t.out.length == 2 && t.conns.map (fun c => (c.chan, c.isOpen)) == [(0, true), (1, false)] | _ => false) = true := by decide +kernel
theorem test_data_takes_record : (match exec (.clovoData (msg 0 2 5 0 (rwait 1).raw)) (wire [conn 9 0 true]) with | .next t => t.recs.map (fun r => (r.kind, r.status)) == [(3, .buffered)] && t.conns.map (fun c => (c.rx, c.owed)) == [(6, 1)] | _ => false) = true := by decide +kernel
theorem test_data_early : (match exec (.clovoData (msg 0 2 6 0 (rwait 1).raw)) (wire [conn 9 0 true]) with | .next t => (match t.out with | [.clovo 0 3 0 0 4 _ 0 1 _ 2 []] => true | _ => false) && t.recs.isEmpty | _ => false) = true := by decide +kernel

/-- A connection of the device's with message 3 sent and not answered. -/
def sending (tries : Nat) : Conn := { conn 10 1 true with unacked := [(3, .bytes [7])], flight := 1, tx := 4, tries := tries }
def later (cs : List Conn) : State := { wire cs with mod := { (wire cs).mod with time := 1400 * 20000 } }
theorem witness_HostDelivery : connOf (wire [sending 0]) (msg 1 2 0 3 []) = some (sending 0) ∧ (sending 0).unacked = [(3, .bytes [7])] ∧ (sending 0).flight = 1 ∧ (sending 0).closing = false ∧ (3 : Word32) - 1 = 2 ∧ 0 < (msg 1 2 0 2 []).win
    ∧ ((wire [{ conn 10 1 false with node := 2 }]).conns.find? (fun c => c.node == 2 && c.chan == 1 && !c.isOpen && !c.lost && !c.closing)).isSome = true ∧ 0 < (sending 0).win ∧ min (50 * 2 ^ 0) 6400 ≤ micros (later []) (sending 0).sentAt
    ∧ min (50 * 2 ^ 8) 6400 ≤ micros (later []) (sending 8).sentAt ∧ (8 : Nat) ≤ (sending 8).tries ∧ { conn 10 1 true with owed := 3 : Conn }.owed ≠ 0 := by decide +kernel
theorem witness_HostDelivery_more : (wire [sending 0]).conns.find? (fun c => c.node == 2 && c.chan == 1 && !c.isOpen && !c.lost && !c.closing) = none ∧ connOf (wire []) (msg 1 2 0 2 []) = none ∧ filterOn (later []) = true ∧ portTakes (msg 1 2 0 2 []) = true
    ∧ clovoSound (wire []) (msg 1 2 0 2 []) = true ∧ (sending 0).holdUntil ≤ (wire []).mod.time ∧ (sending 7).tries < 8 ∧ min (50 * 2 ^ 7) 6400 ≤ micros (later []) (sending 7).sentAt
    ∧ wireFrame (wire []) 0 [] = none := by decide +kernel
theorem test_openack_unknown : (match exec (.clovoOpenack (msg 1 2 0 2 [])) (wire []) with | .next t => (match t.out with | [.clovo 0 3 1 0 0 _ 0 3 _ 2 []] => true | _ => false) | _ => false) = true := by decide +kernel
theorem test_wrong_port : (match exec (.clovoClose { msg 2 3 0 0 [] with port := 0 }) (wire []) with | .next t => t.mod.dropped == (wire []).mod.dropped + 1 && t.out.isEmpty | _ => false) = true := by decide +kernel
/-- An ARP request for address 10.0.0.1, with one 802.1Q tag and without; it is a supported frame, and one cut short is not. -/
def arpFrame (tag : List Byte) : List Byte := List.replicate 12 0xFF ++ tag ++ [8, 6, 0, 1, 8, 0, 6, 4, 0, 1] ++ List.replicate 16 0 ++ [10, 0, 0, 1]
theorem test_arp_frame : wireFrame (wire []) 0 (arpFrame []) = some (.arp 0x0A000001) ∧ wireFrame (wire []) 0 (arpFrame [0x81, 0, 0, 5]) = some (.arp 0x0A000001) ∧ wireFrame (wire []) 0 ((arpFrame []).take 41) = none := by decide +kernel
theorem test_unsupported : (match exec (.unsupportedFrame { port := 0, bytes := (arpFrame []).take 41 }) (wire []) with | .next t => t.mod.dropped == (wire []).mod.dropped + 1 | _ => false) = true
    ∧ (match exec (.unsupportedFrame { port := 0, bytes := arpFrame [] }) (wire []) with | .next t => t.mod.dropped == (wire []).mod.dropped | _ => false) = true := by decide +kernel
theorem test_ack_retires : (match exec (.clovoAck (msg 1 2 0 3 [])) (wire [sending 2]) with | .next t => t.conns.map (fun c => (c.unacked.length, c.flight, c.tries, c.win)) == [(0, 0, 0, 4)] | _ => false) = true := by decide +kernel
theorem test_retransmit : (match exec (.retransmitTimeout 10) (later [sending 2]) with | .next t => t.out.length == 1 && t.conns.map (·.tries) == [3] | _ => false) = true := by decide +kernel
theorem test_connection_lost : (match exec (.connectionLost 10) (later [sending 8]) with | .next t => t.out.isEmpty && t.conns.map (fun c => (c.isOpen, c.lost)) == [(false, true)] && t.mod.errorLog == [10] | _ => false) = true := by decide +kernel
theorem test_nak_full_holds : (match exec (.clovoNakFull (msg 1 2 0 2 [])) (later [sending 0]) with | .next t => t.out.isEmpty && t.conns.map (·.holdUntil) == [1400 * 20020] | _ => false) = true := by decide +kernel

/-! ### Statements about control records -/

def readsHeap (k : Nat) : HRec := hrec k 4 [(0x20, 8, heap + 0x2000), (0x28, 4, 34)]
/-- A cue image of one operation. -/
def cueBytes : List Byte := leBytes 4 0x4555434B ++ leBytes 2 1 ++ leBytes 2 1 ++ List.replicate 6 0xFF ++ leBytes 2 0 ++ List.replicate 16 0 ++ leBytes 2 0xF000
def loads (bs : List Byte) (r : HRec) : State := { hostModule id r with mem := setCells [] 0x10000002000 bs }
theorem witness_CueAndQueueRecords : RecordReady (loads [] (readsHeap 6)) 50 0x06 none (readsHeap 6) ∧ ((readRange (Begun (loads [] (readsHeap 6)) 50) 0 (heap + 0x2000) 34).toOption.map fun x => (cueImageFault x.1).isSome) = some true
    ∧ (readRange (Begun (loads [] (readsHeap 6)) 50) 0 0x2000 34).toOption.isNone = true ∧ RecordReady (hostModule id (hrec 7 4 [])) 50 0x07 none (hrec 7 4 []) ∧ ((hostModule id (hrec 7 4 [])).part 0).cueStandby = none
    ∧ ((hostModule (fun p => { p with cueStandby := some program }) (hrec 7 4 [])).part 0).cueStandby ≠ none ∧ ((hostModule id (hrec 7 4 [])).part 0).cueStat.swapPend = false :=
  ⟨recordReady rfl (by decide +kernel), by decide +kernel, by decide +kernel, recordReady rfl (by decide +kernel), by decide +kernel⟩
def dbg (op : Nat) (fs : List (Nat × Nat × Nat)) : HRec := hrec 0x13 4 ((0x20, 2, op) :: fs)
theorem witness_CueAndQueueRecords_debug : (∀ op ∈ [1, 2, 3, 5], (hostModule id (dbg op [])).recs.find? (fun r => r.id == 50) = some (dbg op []) ∧ debugOp (dbg op []).raw = op ∧ mayStart (hostModule id (dbg op [])) (dbg op []) = true
    ∧ partOk (hostModule id (dbg op [])) 9 (dbg op []).raw = true) ∧ fieldOf (dbg 5 [(0x22, 1, 63)]).raw 0x22 1 < 64 := by decide +kernel
theorem test_cue_load_rejects : answer (exec (.cueLoad 50) (loads [] (readsHeap 6))) = [1, 0x0D, 2 ^ 31, 0] := by decide +kernel
theorem test_cue_swap_without_standby : answer (exec (.cueSwap 50) (hostModule id (hrec 7 4 []))) = [1, 0x0C, 5, 0] := by decide +kernel
def swapping (q : Partition) : Partition := { q with cueStandby := some program, cueStat := { q.cueStat with swapPend := true } }
theorem witness_CueAndQueueRecords_swap : ((hostModule swapping (hrec 7 4 [])).part 0).cueStandby ≠ none ∧ ((hostModule swapping (hrec 7 4 [])).part 0).cueStat.swapPend = true ∧ (cueImageFault cueBytes).isSome = false
    ∧ (readRange (Begun (loads cueBytes (readsHeap 6)) 50) 0 (heap + 0x2000) 34).toOption.map (·.1) = some cueBytes := by decide +kernel
theorem test_cue_swap_again : (match exec (.cueSwap 50) (hostModule swapping (hrec 7 4 [])) with | .next t => (t.part 0).cueStat.moreSwaps == 1 | _ => false) = true := by decide +kernel
theorem test_qset : (match exec (.qset 50) (hostModule id (dbg 5 [(0x22, 1, 63), (0x23, 1, 9), (0x24, 1, 1), (0x25, 2, 6)])) with
    | .next t => (let q := nth (t.part 0).queues 63 noQueue; q.prio == 9 && q.enabled && q.limit == 7) && t.out.length == 2 | _ => false) = true := by decide +kernel

/-- A record for partition 1, which is not there yet: core 5, a grant of 4 KiB in the near store, quota 2 MiB, QLIMIT field 3. -/
def rcreate (core : Nat) : HRec := { hrec 8 0 [(1, 1, 1), (0x20, 8, 2 ^ core), (0x38, 8, 0x200000), (0x40, 8, 0x1000), (0x48, 8, 0x1000), (0x58, 8, 3 * 2 ^ 43)] with part := 1 }
theorem witness_PartitionRecords_create : RecordReady (hostModule id (rcreate 5)) 50 0x08 none (rcreate 5) ∧ createRefusal (Begun (hostModule id (rcreate 5)) 50) (rcreate 5).raw = none ∧ createRefusal (Begun (hostModule id (rcreate 0)) 50) (rcreate 0).raw = some 16 ∧ (rcreate 5).part < 8 :=
  ⟨recordReady rfl (by decide +kernel), by decide +kernel⟩
theorem test_part_create : (match exec (.partCreate 50) (hostModule id (rcreate 5)) with | .next t => (t.part 1).present && (t.core 5).owner == some 1 && (nth (t.part 1).queues 63 noQueue).limit == 4 && t.recs.isEmpty | _ => false) = true := by decide +kernel
theorem witness_PartitionRecords_destroy : RecordReady { stage (ecopy 8) with recs := [hrec 9 0 []] } 50 0x09 none (hrec 9 0 []) := recordReady rfl (by decide +kernel)
theorem test_part_destroy : (match exec (.partDestroy 50) { stage (ecopy 8) with recs := [hrec 9 0 []] } with
    | .next t => !(t.part 0).present && t.tasks.isEmpty && t.teams.isEmpty && !t.thr.live && t.eng.isEmpty && (t.core 0).owner == none && t.zeroing == [(0x10000000000, 0x200000)] | _ => false) = true := by decide +kernel
def rrange (k : Nat) : HRec := hrec k 0 [(0x20, 8, 0x1000), (0x28, 8, 0x1000)]
def ranged (k : Nat) : State := { mapPage (hostModule id (rrange k)) 0 0x1000 0x10000005085 with recs := [rrange k] }
theorem witness_PartitionRecords_ranges : RecordReady (ranged 0x0A) 50 0x0A none (rrange 0x0A) ∧ RecordReady (ranged 0x0B) 50 0x0B none (rrange 0x0B) ∧ (walkVA (ranged 0x0A) 0 0x1000).map (fun x => (x.1, x.2.2)) = some (0x10000005085, 4096)
    ∧ Memory.wf (ranged 0x0A).mem = true ∧ ((ranged 0x0A).part 0).ranges.length < 1024 ∧ (∀ w ∈ (ranged 0x0B).threads, w.live = false) := ⟨recordReady rfl (by decide +kernel), recordReady rfl (by decide +kernel), by decide +kernel⟩
theorem test_range_acquire : (match exec (.rangeAcquire 50) (ranged 0x0A) with | .next t => (walkVA t 0 0x1000).map (fun x => x.1) == some 0x10000005087 && t.recs.isEmpty | _ => false) = true := by decide +kernel

def rconn (a b n : Nat) : HRec := hrec 0x12 4 [(0x20, 1, 1), (0x24, 1, a), (0x25, 1, b), (0x26, 1, n)]
theorem witness_ModuleRecords : (hostModule id (rconn 0 1 4)).mod.raising = [] ∧ RecordReady (hostModule id (rconn 0 1 4)) 50 0x12 none (rconn 0 1 4) ∧ tableRefusal (hostModule id (rconn 0 1 4)) (setUnits (hostModule id (rconn 0 1 4)).mod.circuits 0 1 4) = none
    ∧ tableRefusal (hostModule id (rconn 0 1 4)) (setUnits (hostModule id (rconn 0 1 4)).mod.circuits 0 16 0) = some 4 ∧ tableRefusal (hostModule id (rconn 0 1 4)) (setUnits (hostModule id (rconn 0 1 4)).mod.circuits 0 16 2) = none
    ∧ RecordReady (hostModule id (dbg 4 [])) 50 0x13 (some 4) (dbg 4 []) ∧ RecordReady (hostModule id (dbg 8 [])) 50 0x13 (some 8) (dbg 8 []) ∧ recordsRun (hostModule id (rconn 0 1 4)) = true :=
  ⟨rfl, recordReady rfl (by decide +kernel), by decide +kernel, by decide +kernel, by decide +kernel, recordReady rfl (by decide +kernel), recordReady rfl (by decide +kernel), by decide +kernel⟩
theorem witness_ModuleRecords_pstate : RecordReady (hostModule (fun p => { p with present := false }) (hrec 0x13 0 [(0x20, 2, 6), (0x22, 1, 2)])) 50 0x13 (some 6) (hrec 0x13 0 [(0x20, 2, 6), (0x22, 1, 2)]) ∧ (∀ p < 8, ((hostModule (fun p => { p with present := false }) (rwait 1)).part p).present = false) :=
  ⟨recordReady rfl (by decide +kernel), by decide +kernel⟩
theorem test_conn_set_waits : (match exec (.connSet 50) (hostModule id (rconn 0 1 4)) with | .next t => t.mod.raising == [(0, 1, 4)] && t.mod.raisingRec == some 50 && t.recs.length == 1 | _ => false) = true := by decide +kernel
theorem test_conn_set_refused : answer (exec (.connSet 50) (hostModule id (rconn 0 16 0))) = [1, 0x0C, 4, 0] := by decide +kernel
theorem test_restart : (match exec (.restartModule 50) (hostModule id (dbg 8 [(0x22, 1, 1)])) with | .next t => t.mod.inReset && t.mod.coldDue && !t.mod.portOpen && t.recs.isEmpty && t.conns.isEmpty | _ => false) = true := by decide +kernel


/-! ### Statements about recovery points, freezing and the debugger -/

def ck (op : Nat) (fs : List (Nat × Nat × Nat)) : HRec := hrec 0x0C 4 ((0x20, 1, op) :: fs)
def rpAt (st : BitVec 2) (q : Partition) : Partition := { q with rp := { q.rp with rpseq := 4, state := st } }
def inDomain (st : BitVec 2) (d : Domain) (q : Partition) : Partition := { rpAt st q with domain := some d }

theorem witness_CheckpointRecords : (∀ r ∈ [ck 0 [], ck 1 [(0x30, 8, 1)], ck 3 [], ck 4 [(0x28, 8, heap + 0x3000), (0x30, 8, 1)]], RecordReady (hostModule (inDomain 0 domain) r) 50 0x0C none r)
    ∧ ((hostModule id (ck 0 [])).part 0).domain = none ∧ ((hostModule id (ck 0 [])).part 0).rp.state = 0 ∧ anyRunning (hostModule id (ck 1 [])) 0 = false ∧ newDomain (hostModule id (ck 1 [])) 0 0 1 0 0 = none ∧ (newDomain (hostModule id (ck 1 [])) 0 0 0 0 0).isSome = true
    ∧ rangeHeld (hostModule (inDomain 0 domain) (ck 4 [])) 0 (heap + 0x3000) 64 = false ∧ (writeRange (hostModule (inDomain 0 domain) (ck 4 [])) 0 (heap + 0x3000) []).1 = 0 := by
  refine ⟨fun r h => ?_, by decide +kernel⟩
  simp only [List.mem_cons, List.not_mem_nil, or_false] at h
  rcases h with rfl | rfl | rfl | rfl <;> exact recordReady rfl (by decide +kernel)
def rcommit (n : Nat) : HRec := hrec 0x0D 4 [(0x20, 8, n)]
theorem witness_CheckpointRecords_commit : RecordReady (hostModule (inDomain 1 domain) (rcommit 4)) 50 0x0D none (rcommit 4) ∧ ((hostModule (inDomain 1 domain) (rcommit 4)).part 0).rp.state = 1 ∧ BitVec.ofNat 64 (fieldOf (rcommit 4).raw 0x20 8) = ((hostModule (inDomain 1 domain) (rcommit 4)).part 0).rp.rpseq
    ∧ BitVec.ofNat 64 (fieldOf (rcommit 5).raw 0x20 8) ≠ ((hostModule (inDomain 1 domain) (rcommit 5)).part 0).rp.rpseq := ⟨recordReady rfl (by decide +kernel), by decide +kernel⟩
def committing : Domain := { domain with commit := some { seq := 4, slot := 1, granules := [], poisoned := false } }
def quietly (p : Partition → Partition) : State := { hostModule p (rwait 1) with recs := [] }
theorem witness_CheckpointRecords_end : recordsRun (quietly (inDomain 2 committing)) = true ∧ ((quietly (inDomain 2 committing)).part 0).rp.state = 2 ∧ ((quietly (rpAt 2)).part 0).domain = none ∧ (committing.commit.map fun c => (c.poisoned, c.todo, c.slot, c.granules)) = some (false, [], 1, []) ∧ Memory.wf (quietly (inDomain 2 committing)).mem = true
    ∧ ((quietly (inDomain 2 committing)).part 0).domain = some committing ∧ (∀ h ∈ domain.held, h.2 ≤ (quietly (inDomain 0 domain)).mod.time) := by decide +kernel
theorem test_ckpt_open : answer (exec (.ckptOpen 50) (hostModule (rpAt 0) (ck 0 []))) = [1, 1, 0, 5] := by decide +kernel
theorem test_ckpt_open_open : answer (exec (.ckptOpen 50) (hostModule (rpAt 1) (ck 0 []))) = [1, 1, 0, 0] := by decide +kernel
theorem test_domain_twice : answer (exec (.domain 50) (hostModule (inDomain 0 domain) (ck 1 []))) = [1, 0x0C, 13, 0] := by decide +kernel
theorem test_domain_without_frames : answer (exec (.domain 50) (hostModule id (ck 1 [(0x30, 8, 1)]))) = [1, 0x0C, 17, 0] := by decide +kernel
theorem test_commit_end : (match exec (.commitEnd 0 true) (quietly (rpAt 2)) with | .next t => (t.part 0).rp.rpdur == 4 && (t.part 0).rp.state == 0 | _ => false) = true := by decide +kernel
theorem test_commit_fails : (match exec (.commitEnd 0 false) (quietly (inDomain 2 committing)) with | .next t => (t.part 0).rp.cfail && (t.part 0).rp.rpdur == 0 && (t.part 0).rp.state == 1 | _ => false) = true := by decide +kernel
theorem test_commit_of_another_point : answer (exec (.ckptCommit 50) (hostModule (rpAt 1) (rcommit 5))) = [1, 0x0C, 13, 0] := by decide +kernel
theorem test_jread_without_domain : answer (exec (.jread 50) (hostModule id (ck 4 []))) = [1, 0x0C, 13, 0] := by decide +kernel

/-- A slot that holds point 4 of no segments. -/
def sound4 : Slot := { Slot.blank with valid := true, version := 1, seq := 4, tcrc := crc64 0 [] }
def restorable : Domain := { domain with slot0 := sound4, partner := some (7, 1), held := [] }
def rrest (seq node : Nat) : HRec := ck 2 [(0x28, 8, seq), (0x30, 8, node)]
theorem witness_RestoreAndPartners_restore : (∀ r ∈ [rrest 4 0, rrest 3 0, rrest 4 1], RecordReady (hostModule (inDomain 0 restorable) r) 50 0x0C none r) ∧ slotSound 0 0 0 restorable.slot0 = true ∧ ((hostModule (inDomain 0 restorable) (rrest 4 0)).part 0).domain = some restorable ∧ restorable.nwork = 0 ∧ restorable.held = [] ∧ domain.held ≠ [] ∧ anyRunning (hostModule (inDomain 0 restorable) (rrest 4 0)) 0 = false
    ∧ anyRunning { hostModule (inDomain 0 restorable) (rrest 4 0) with tasks := [task] } 0 = true ∧ (∀ k < 2, (restorable.slot k).valid = true → (restorable.slot k).seq ≠ 3) := by
  refine ⟨fun r h => ?_, by decide +kernel⟩
  simp only [List.mem_cons, List.not_mem_nil, or_false] at h
  rcases h with rfl | rfl | rfl <;> exact recordReady rfl (by decide +kernel)
theorem test_restore : answer (exec (.restore 50) (hostModule (inDomain 0 restorable) (rrest 4 0))) = [1, 1, 0, 4] := by decide +kernel
theorem test_restore_asks_partner : (match exec (.restore 50) (hostModule (inDomain 0 restorable) (rrest 4 1)) with | .next t => t.out.length == 1 && (t.conns.map fun c => (c.port, c.node, c.chan, c.isOpen, c.unacked)) == [(0, 2, 0, true, []), (0, 2, 1, true, []), (1, 7, 3, false, [(0, .peer (.fetch 0 4))])] | _ => false) = true := by decide +kernel

def point (n : Nat) : Replica := { node := 7, part := 2, seq := 9, feed := 0, nseg := n, segments := [], commit := [], table := [] }
/-- The next DATA message of the partner's REPLICA connection. -/
def replicaMsg : Clovo := { port := 1, ver := 1, chan := 3, flags := 0, win := 4, retry := 20, psn := 5, apsn := 0, src := 7, dst := 1, payload := [] }
def peering (p : Partition → Partition) (ks : List ReplicaSlot) : State :=
  { quietly p with replicas := ks, conns := [{ conn 13 3 true with node := 7, port := 1 }], mod := { (quietly p).mod with cfg := { (quietly p).mod.cfg with peers := [7], replicaSpace := [(7, 0x20000)] } } }
def kept : ReplicaSlot := { node := 7, part := 2, slot0 := { sound4 with part := 2 }, slot1 := Slot.blank }
theorem witness_RestoreAndPartners_peer : replicaIn (peering id [kept]) 7 = true ∧ fetching (peering id []) 7 (point 0) = none ∧ replicaRoom (peering id []) 7 (point 0) = true ∧ replicaRoom (peering id []) 7 (point 100) = false ∧ recordsRun (peering (inDomain 0 restorable) []) = true
    ∧ ((peering (inDomain 0 restorable) []).part 0).rp.feed = false ∧ restorable.partner ≠ none ∧ ((peering id [kept]).replicas.find? (fun x => x.node == 7 && x.part == 2)) = some kept ∧ slotSound kept.slot0.nseg 0 2 kept.slot0 = true ∧ slotSound kept.slot1.nseg 1 2 kept.slot1 = false ∧ kept.slot0.seq = 4 := by decide +kernel
theorem witness_RestoreAndPartners_connections : (∃ c ∈ (peering id []).conns, c.node = 7 ∧ c.chan = 3 ∧ c.isOpen = true) ∧ (∀ c ∈ (quietly id).conns, ¬ (c.node = 7 ∧ c.chan = 3 ∧ c.isOpen = true)) ∧ filterOn (quietly id) = true ∧ (3 : Word).toNat ≤ ((peering (inDomain 0 restorable) []).part 0).rp.rpseq.toNat
    ∧ ((hostModule (inDomain 0 restorable) (rrest 4 0)).part 0).rp.state ≠ 2 ∧ ((hostModule (rpAt 0) (rrest 4 0)).part 0).domain = none := by decide +kernel
theorem test_replica_without_connection : (match exec (.replicaSegments (replicaMsg, point 0)) (quietly id) with | .next t => (match t.out with | [.clovo _ 3 3 _ _ _ _ 3 _ n _] => n == 7 | _ => false) && t.replicas.isEmpty | _ => false) = true := by decide +kernel
theorem test_partner_fetch : (match exec (.partnerFetch replicaMsg 2 0) (peering id [kept]) with | .next t => (match t.out with | [.peer 1 3 3 1 n (.replica m)] => n == 7 && m.seq == 4 && m.part == 2 | _ => false) | _ => false) = true := by decide +kernel
/-- PARTNER names node 7 by port 1, or none; the commit has a granule to copy still. -/
def rpartner (port : Nat) : HRec := ck 3 [(0x28, 8, 7), (0x30, 1, port)]
theorem witness_CheckpointRecords_partner : (∀ p ∈ [0, 1], RecordReady (hostModule (inDomain 0 restorable) (rpartner p)) 50 0x0C none (rpartner p)) ∧ ((hostModule (inDomain 0 restorable) (rpartner 1)).part 0).domain = some restorable
    ∧ ({ committing with commit := some { seq := 4, slot := 1, granules := [0], poisoned := false, todo := [0] } } : Domain).commit.map (fun c => c.todo) = some [0] ∧ committing.commit.map (fun c => c.todo) = some [] ∧ (1 : Nat) < 2 := by
  refine ⟨fun p h => ?_, by decide +kernel⟩
  simp only [List.mem_cons, List.not_mem_nil, or_false] at h
  rcases h with rfl | rfl <;> exact recordReady rfl (by decide +kernel)
theorem test_partner_dropped : (match exec (.partner 50) (hostModule (inDomain 0 restorable) (rpartner 0)) with | .next t => ((t.part 0).domain.map (·.partner)) == some none | _ => false) = true := by decide +kernel
theorem test_commit_waits_for_copies : (match exec (.commitEnd 0 true) (quietly (inDomain 2 { domain with commit := some { seq := 4, slot := 1, granules := [0], poisoned := false, todo := [0] } })) with | .next t => (t.part 0).rp.state == 2 | _ => false) = true := by decide +kernel
theorem test_replica_kept : (match exec (.replicaSegments (replicaMsg, point 0)) (peering id []) with | .next t => t.out == [.peer 1 3 3 1 7 (.answer ⟨2, 9, false⟩)] && t.replicas.length == 1 | _ => false) = true := by decide +kernel
theorem test_partner_acknowledges : (match exec (.partnerAck replicaMsg ⟨0, 3, false⟩) (peering (inDomain 0 restorable) []) with | .next t => (t.part 0).rp.rppar == 3 | _ => false) = true := by decide +kernel

def frozen (q : Partition) : Partition := { q with frozen := true }
def freezing (p : Partition → Partition) (r : HRec) (us : List Team) : State := { hostModule p r with tasks := [task], teams := us, thr := thread }
theorem witness_FreezeAndImages_freeze : (∀ k ∈ [0x0E, 0x0F], RecordReady (freezing id (hrec k 4 []) [team]) 50 k none (hrec k 4 [])) ∧ ((freezing id (hrec 0x0E 4 []) []).part 0).frozen = false ∧ ((freezing frozen (hrec 0x0E 4 []) []).part 0).frozen = true
    ∧ (freezing id (hrec 0x0E 4 []) []).eng = [] ∧ team.part = 0 ∧ team.status = .resident := by
  refine ⟨fun k h => ?_, by decide +kernel⟩
  simp only [List.mem_cons, List.not_mem_nil, or_false] at h
  rcases h with rfl | rfl <;> exact recordReady rfl (by decide +kernel)
theorem test_part_freeze_stops : (match exec (.partFreeze 50) (freezing id (hrec 0x0E 4 []) [team]) with | .next t => t.teams.map (fun u : Team => (u.status, u.stopFor)) == [(.stopping, .freeze)] && t.out.isEmpty && (t.part 0).frozen | _ => false) = true := by decide +kernel
theorem test_part_freeze_done : answer (exec (.partFreeze 50) (freezing id (hrec 0x0E 4 []) [])) = [1, 1, 0, 0] := by decide +kernel
theorem test_part_resume_unfrozen : answer (exec (.partResume 50) (freezing id (hrec 0x0F 4 []) [])) = [1, 0x0C, 9, 0] := by decide +kernel
theorem test_part_resume : answer (exec (.partResume 50) (freezing frozen (hrec 0x0F 4 []) [])) = [1, 1, 0, 0] := by decide +kernel

def rout (ix len : Nat) : HRec := hrec 0x10 4 [(0x20, 4, ix), (0x28, 8, heap + 0x4000), (0x30, 8, len)]
def rin : HRec := hrec 0x11 4 [(0x20, 8, heap + 0x1000), (0x28, 8, 8)]
theorem witness_FreezeAndImages_images : (∀ x ∈ [(0x10, rout 9 64), (0x11, rin)], RecordReady (hostModule frozen x.2) 50 x.1 none x.2) ∧ imageAt (hostModule frozen (rout 9 64)) 0 9 = none ∧ (imageAt (hostModule frozen (rout 0 64)) 0 0).isSome = true
    ∧ rangeHeld (hostModule frozen (rout 9 64)) 0 (heap + 0x4000) 64 = false ∧ ((readImage (Begun (hostModule frozen rin) 50) 0 (heap + 0x1000) 8).toOption.map fun x => decide (fieldOf x.1 0 4 ≠ 0x4D414554)) = some true := by
  refine ⟨fun x h => ?_, by decide +kernel⟩
  simp only [List.mem_cons, List.not_mem_nil, or_false] at h
  rcases h with rfl | rfl <;> exact recordReady rfl (by decide +kernel)
theorem test_image_out_none : answer (exec (.imageOut 50) (hostModule frozen (rout 9 64))) = [1, 0x0C, 10, 0] := by decide +kernel
theorem test_image_out_room : answer (exec (.imageOut 50) (hostModule frozen (rout 0 1))) = [1, 0x0C, 7, 0] := by decide +kernel
theorem test_image_in_magic : answer (exec (.imageIn 50) (hostModule frozen rin)) = [1, 0x0D, 2 ^ 31, 0] := by decide +kernel

def halted : Team := { team with dbgHalt := true }
def debugging (u : Team) (r : HRec) : State := { freezing id r [u] with recs := [r], mod := { (hostModule id r).mod with time := 1400 * 1000 } }
/-- A record that names that team: task 0 of queue 0, team 0. -/
def dteam (op : Nat) : HRec := dbg op [(0x22, 8, 0), (0x2A, 2, 0), (0x2C, 1, 0)]
theorem witness_DebuggerRecords : (∀ op ∈ [0x100, 0x101, 0x102, 0x103, 0x104, 0x105, 0x106, 0x107, 0x108], (debugging halted (dteam op)).recs.find? (fun r => r.id == 50) = some (dteam op) ∧ debugOp (dteam op).raw = op ∧ mayStart (debugging halted (dteam op)) (dteam op) = true
      ∧ partOk (debugging halted (dteam op)) 9 (dteam op).raw = true ∧ debugTeam (debugging halted (dteam op)) (dteam op) = some halted)
    ∧ debugTeam (debugging team (dteam 0x104)) (dteam 0x104) = some team ∧ debugTeam (freezing id (dteam 0x103) []) (dteam 0x103) = none ∧ replicasOf (debugging halted (dteam 0x105)) halted = [halted]
    ∧ (debugging halted (dteam 0x105)).threads = [thread] ∧ thread.team = halted.id ∧ thread.thrIx = 0 ∧ (∀ w ∈ threadsOf (debugging halted (dteam 0x106)) halted, haltQuiet (debugging halted (dteam 0x106)) w = true)
    ∧ rangeHeld (debugging halted (dteam 0x106)) 0 0 0 = false ∧ ((debugging halted (dteam 0x108)).part 0).trapImage = none ∧ (pagesOf heap 4096).all (placed (debugging halted (dteam 0x100)) 0) = true
    ∧ (pagesOf 0x1000 4096).find? (fun v => !placed (debugging halted (dteam 0x100)) 0 v) = some 0x1000 := by decide +kernel
def stepping : State := { debugging halted { dteam 0x105 with status := .started } with thr := { thread with stepping := some .execute } }
theorem witness_DebuggerRecords_timeout : (stepping.recs.find? fun r => r.id == 50) = some { dteam 0x105 with status := .started } ∧ recordsRun stepping = true ∧ 1000 ≤ micros stepping 0 ∧ (∃ w ∈ stepThreads stepping { dteam 0x105 with status := .started }, w.stepping ≠ none) := by
  refine ⟨rfl, by decide +kernel, by decide +kernel, { thread with stepping := some .execute }, by decide +kernel, by decide +kernel⟩
/-- A team that stands halted: READ into 0 bytes, a WRITE of an image that is none, a STEP of a thread that is not there. -/
theorem witness_DebuggerRecords_images : ((teamImageNow (debugging halted (dteam 0x106)) halted).map fun bs => bs.isEmpty) = some false ∧ findTask (debugging halted (dteam 0x107)) halted.task = some task
    ∧ (teamImageFault task (List.replicate 64 0) (12 ≤ halted.chip || !Config.nClass halted.chip)).isSome = true ∧ stepThreads (debugging halted (dbg 0x105 [(0x22, 8, 0), (0x2A, 2, 0), (0x2C, 1, 5)])) (dbg 0x105 [(0x22, 8, 0), (0x2A, 2, 0), (0x2C, 1, 5)]) = []
    ∧ (replicasOf (debugging halted (dteam 0x107)) halted).find? (fun w => w.rep == 1) = none := by decide +kernel
theorem test_debug_no_team : (match exec (.debugRead 50) (freezing id (dteam 0x106) []) with | .next t => t.recs.isEmpty && t.out.length == 2 | _ => false) = true := by decide +kernel
theorem test_debug_halt : (match exec (.debugHalt 50) (debugging team (dteam 0x103)) with | .next t => t.teams.map (fun u : Team => u.dbgHalt) == [true] && t.recs.isEmpty | _ => false) = true := by decide +kernel
theorem test_debug_step : (match exec (.debugStep 50) (debugging halted (dteam 0x105)) with | .next t => t.thr.stepping == some .execute && t.recs.length == 1 | _ => false) = true := by decide +kernel
theorem test_debug_step_times_out : (match exec (.stepTimeout 50) stepping with | .next t => t.recs.isEmpty && t.out.length == 2 | _ => false) = true := by decide +kernel
theorem test_attach : (match exec (.attach 50) (debugging team (dbg 0x101 [(0x22, 1, 1)])) with | .next t => (t.part 0).debugger && (t.part 0).stopSh | _ => false) = true := by decide +kernel

/-! ### Statements about power and starts -/

def powered (f : Module → Module) : State := { quietly id with mod := f (quietly id).mod }
/-- Copy 0 of the sealed part holds counts of failures. -/
def sealedWith (warm cold : Nat) (m : Module) : Module := { m with seal0 := { order := 5, sound := true, part := { SealedPart.zero with warmFails := warm, coldFails := cold } }, inReset := true }
theorem witness_PowerAndStarts : (powered id).mod.fw[0]? = some ((powered id).mod.fw[0]) ∧ recordsRun (powered id) = true ∧ (powered id).recs = [] ∧ (powered id).eng = [] ∧ (powered id).teams = [] ∧ (powered id).mod.power = .ps0 ∧ (powered id).mod.tripped = false
    ∧ (powered fun m => { m with power := .ps3 }).mod.power = .ps3 ∧ (powered fun m => { m with hot := true }).mod.hot = true ∧ (powered fun m => { m with inReset := true, coldDue := true, coldFails := 2 }).mod.coldFails = 2
    ∧ ((powered id).part 0).present = true ∧ (powered fun m => { m with inReset := true }).mod.testDue = false ∧ (powered fun m => { m with tripped := true }).mod.tripped = true := by
  refine ⟨rfl, ?_⟩
  decide +kernel
theorem test_ps1 : (match exec .ps1Entry (powered id) with | .next t => t.mod.power == .ps1 | _ => false) = true := by decide +kernel
theorem witness_PowerAndStarts_table : tableLights (startTests (applyConfig ((List.range 8).foldl startPoint (powered fun m => { m with inReset := true }))) false []) = true ∧ tableLights (startTests (applyConfig (coldState (powered fun m => { m with inReset := true, coldDue := true }))) true []) = true
    ∧ tableLights { powered id with mod := { (powered id).mod with cfg := { (powered id).mod.cfg with table := [(0, 1, 257)] } } } = false := by decide +kernel
theorem test_warm_start_fails : (match exec (.warmStart false []) (powered (sealedWith 2 0)) with | .next t => t.mod.coldDue && t.mod.inReset | _ => false) = true := by decide +kernel
theorem test_warm_start : (match exec (.warmStart true []) (powered fun m => { m with inReset := true, portOpen := false }) with | .next t => t.mod.portOpen && !t.mod.inReset && (t.part 0).present && t.mod.time == 1400000000 | _ => false) = true := by decide +kernel
theorem test_cold_start_safe_mode : (match exec (.coldStart false []) (powered fun m => { sealedWith 0 2 m with coldDue := true }) with | .next t => t.mod.safeMode && t.mod.portOpen | _ => false) = true := by decide +kernel
theorem test_die_reset : (match exec (.dieReset 3) (powered id) with | .next t => t.mod.inReset && (t.part 0).present && t.conns.isEmpty && !t.thr.live | _ => false) = true := by decide +kernel

/-! ### Words and ill-formed terms

The words are put together by hand from the encoding tables R47, R49, R57 to R60, R207 and R239 of the spec. -/

def oneWord (st : Stream) (l : List (Word32 × Instr)) : Bool := l.all fun x => (decode st x.1 0).toOption == some x.2 && encode x.2 == .one x.1
def twoWord (l : List (Word32 × Word32 × Instr)) : Bool := l.all fun x => (decode .execute x.1 x.2.1).toOption == some x.2.2 && encode x.2.2 == .two x.1 x.2.1

/-- Major 0x01 (R57): D = 3, A = 9, B = 22. -/
theorem test_words_arithmetic : oneWord .execute [
      (0x0469B000, .add 3 9 22), (0x0469B001, .sub 3 9 22), (0x0469B002, .and 3 9 22), (0x0469B003, .or 3 9 22),
      (0x0469B004, .xor 3 9 22), (0x0469B005, .andn 3 9 22), (0x0469B006, .shl 3 9 22), (0x0469B007, .shr 3 9 22),
      (0x0469B008, .sra 3 9 22), (0x0469B009, .min 3 9 22), (0x0469B00A, .max 3 9 22), (0x0469B00B, .minu 3 9 22),
      (0x0469B00C, .maxu 3 9 22), (0x0469000D, .clz 3 9), (0x0469000E, .ctz 3 9), (0x0469000F, .popc 3 9),
      (0x04690010, .mov 3 9)] = true := by decide +kernel
/-- Majors 0x02 and 0x03 (R57). -/
theorem test_words_multiply : oneWord .execute [
      (0x0A21F000, .mul 17 1 30), (0x0A21F001, .mulh 17 1 30), (0x0A21F002, .mulhu 17 1 30), (0x0A21F003, .mulhsu 17 1 30),
      (0x0A21F004, .div 17 1 30), (0x0A21F005, .divu 17 1 30), (0x0A21F006, .rem 17 1 30), (0x0A21F007, .remu 17 1 30),
      (0x0E21F000, .seq 17 1 30), (0x0E21F001, .sne 17 1 30), (0x0E21F002, .slt 17 1 30), (0x0E21F003, .sltu 17 1 30),
      (0x0E21F004, .sle 17 1 30), (0x0E21F005, .sleu 17 1 30)] = true := by decide +kernel
/-- Majors 0x04 to 0x0F (R57): IMM16 = 0x8003, a shift amount of 35, and halfword selector 2. -/
theorem test_words_immediates : oneWord .execute [
      (0x10A68003, .addi 5 6 0x8003), (0x14A68003, .andi 5 6 0x8003), (0x18A68003, .ori 5 6 0x8003), (0x1CA68003, .xori 5 6 0x8003),
      (0x20A60023, .shli 5 6 35), (0x24A60023, .shri 5 6 35), (0x28A60023, .srai 5 6 35), (0x2CA68003, .slti 5 6 0x8003),
      (0x30A68003, .sltiu 5 6 0x8003), (0x34A68003, .seqi 5 6 0x8003), (0x38A08003, .movi 5 0x8003), (0x3CA28003, .movk 5 2 0x8003)] = true := by decide +kernel
/-- Majors 0x10 to 0x17 (R57, R47): offset -4, mailbox 6, level 2 with a constant mailbox or register count of a body of 600 words. -/
theorem test_words_control : oneWord .execute [
      (0x40E8FFFC, .beq 7 8 0xFFFC), (0x44E8FFFC, .bne 7 8 0xFFFC), (0x48E8FFFC, .blt 7 8 0xFFFC), (0x4CE8FFFC, .bge 7 8 0xFFFC),
      (0x5000FFFC, .bqt 0xFFFC), (0x5020FFFC, .bqf 0xFFFC), (0x548B0000, .jalr 4 11), (0x54860001, .mbrd 4 6),
      (0x54C45802, .mbput 6 4 11), (0x54800003, .rotrd 4), (0x54040004, .rotwr 4), (0x583FFFFE, .jal 1 0x1FFFFE),
      (0x5E9E5800, .loop 2 true 7 600), (0x5D325800, .loop 1 false 12 600)] = true := by decide +kernel
/-- Majors 0x18 to 0x1C (R58) in the access stream: OFF12 = 0x801. -/
theorem test_words_access : oneWord .access [
      (0x604F0801, .ldb 2 15 0x801), (0x604F1801, .ldbu 2 15 0x801), (0x604F2801, .ldh 2 15 0x801), (0x604F3801, .ldhu 2 15 0x801),
      (0x604F4801, .ldw 2 15 0x801), (0x604F5801, .ldwu 2 15 0x801), (0x604F6801, .ldd 2 15 0x801), (0x646F0801, .lqb 3 15 0x801),
      (0x646F1801, .lqbu 3 15 0x801), (0x646F2801, .lqh 3 15 0x801), (0x646F3801, .lqhu 3 15 0x801), (0x646F4801, .lqw 3 15 0x801),
      (0x646F5801, .lqwu 3 15 0x801), (0x646F6801, .lqd 3 15 0x801), (0x680F0801, .sab 15 0x801), (0x680F1801, .sah 15 0x801),
      (0x680F2801, .saw 15 0x801), (0x680F3801, .sad 15 0x801), (0x6C000000, .mark), (0x6CA00004, .xqget 5),
      (0x6C050005, .bqput 5), (0x70221800, .tld 1 2 3), (0x70221801, .tst 1 2 3), (0x70221802, .gth 1 2 3),
      (0x70221803, .sct 1 2 3)] = true := by decide +kernel
/-- Major 0x1B in the execute stream, and the scratchpad accesses (R58). -/
theorem test_words_queues : oneWord .execute [
      (0x6CA30001, .qpop 5 3), (0x6C050002, .sdq 5), (0x6C050003, .xqput 5), (0x74800003, .spld 4 3),
      (0x74801003, .spst 4 3)] = true := by decide +kernel
/-- Major 0x1E (R58): every operation and scope, 64 and 32 bits. -/
theorem test_words_atomics : oneWord .access [
      (0x78221800, .amadd 1 2 3 .thr false), (0x78221909, .ammin 1 2 3 .ens true), (0x78221A02, .ammax 1 2 3 .dev false), (0x78221B0B, .amand 1 2 3 .sys true),
      (0x78221C04, .amor 1 2 3 .rcv false), (0x7822180D, .amxor 1 2 3 .thr true), (0x78221906, .amswp 1 2 3 .ens false), (0x78221A0F, .amcas 1 2 3 .dev true)] = true := by decide +kernel
/-- Major 0x1F (R58). -/
theorem test_words_orders : oneWord .execute [
      (0x7C000200, .rel .dev), (0x7C000301, .acq .sys), (0x7C000402, .fence .rcv)] = true := by decide +kernel
/-- Majors 0x20 to 0x23 (R59): push from G8 to engine 40 and from G24 to engine 32. -/
theorem test_words_engines : oneWord .execute [
      (0x80280028, .push 1 8 40), (0x80380020, .push 1 24 32), (0x84221800, .swait 1 2 3), (0x84221801, .ssig 1 2 3),
      (0x84220002, .srd 1 2), (0x88200000, .ecreate 1), (0x88220001, .ejoin 1 2), (0x88220002, .eleave 1 2),
      (0x88221803, .equery 1 2 3), (0x88220004, .ebar 1 2), (0x8C000000, .uret), (0x8C220001, .uimask 1 2)] = true := by decide +kernel
/-- Major 0x2F, the words that R207 writes out, and the rows for TADDR, SIGV, SIGS, and the heap window. -/
theorem test_words_system : oneWord .execute [
      (0xBC200000, .sysrdTrapInfo 1 0), (0xBC200001, .sysrdTrapInfo 1 1), (0xBC200050, .sysrdSigv 1), (0xBC200051, .sysrdSigs 1),
      (0xBC200030, .sysrd 1 0x30), (0xBC031050, .syswr 3 0x50), (0xBC031022, .syswrHeapWindow 3 2), (0xBC002005, .trap 5),
      (0xBC003000, .eret), (0xBC004006, .cro 6), (0xBC005000, .crc), (0xBC006000, .sigchk),
      (0xBCA67001, .locq 5 6 true), (0xBCA07000, .locq 5 0 false), (0xBC008001, .brk 1), (0xBC009000, .halt),
      (0xBC00A000, .yield), (0xBC00B000, .wfi), (0xBC40C000, .rpopen 2), (0xBC62D000, .rpcommit 3 2),
      (0xBC44E001, .rpwait 2 4 true)] = true := by decide +kernel
/-- Majors 0x30 and 0x31 (R60, R49); U is set, and Z3, Q0 and V95 are named. -/
theorem test_words_vector_arithmetic : twoWord [
      (0xC2FF3C00, 0xDB404000, .vadd ⟨95, 115, 96, 13, 5, 2, true, 0, 0x4000⟩),
      (0xC2FF3C01, 0xDB404000, .vsub ⟨95, 115, 96, 13, 5, 2, true, 0, 0x4000⟩),
      (0xC2FF3C02, 0xDB404000, .vmul ⟨95, 115, 96, 13, 5, 2, true, 0, 0x4000⟩),
      (0xC2FF3C03, 0xDB604000, .vfma ⟨95, 115, 96, 13, 5, 2, true, 64, 0x4000⟩),
      (0xC2FF3C04, 0xDB604000, .vfms ⟨95, 115, 96, 13, 5, 2, true, 64, 0x4000⟩),
      (0xC2FF3C05, 0xDB404000, .vmin ⟨95, 115, 96, 13, 5, 2, true, 0, 0x4000⟩),
      (0xC2FF3C06, 0xDB404000, .vmax ⟨95, 115, 96, 13, 5, 2, true, 0, 0x4000⟩),
      (0xC2FF3007, 0xDB404000, .vabs ⟨95, 115, 0, 13, 5, 2, true, 0, 0x4000⟩),
      (0xC2FF3008, 0xDB404000, .vneg ⟨95, 115, 0, 13, 5, 2, true, 0, 0x4000⟩),
      (0xC2FF3C09, 0xDB404000, .vaddsat ⟨95, 115, 96, 13, 5, 2, true, 0, 0x4000⟩),
      (0xC2FF3C0A, 0xDB404000, .vsubsat ⟨95, 115, 96, 13, 5, 2, true, 0, 0x4000⟩),
      (0xC4773C00, 0xDB404000, .vceq ⟨14, 115, 96, 13, 5, 2, true, 0, 0x4000⟩),
      (0xC4773C01, 0xDB404000, .vcne ⟨14, 115, 96, 13, 5, 2, true, 0, 0x4000⟩),
      (0xC4773C02, 0xDB404000, .vclt ⟨14, 115, 96, 13, 5, 2, true, 0, 0x4000⟩),
      (0xC4773C03, 0xDB404000, .vcle ⟨14, 115, 96, 13, 5, 2, true, 0, 0x4000⟩),
      (0xC4773C04, 0xDB404000, .vcgt ⟨14, 115, 96, 13, 5, 2, true, 0, 0x4000⟩),
      (0xC4773C05, 0xDB404000, .vcge ⟨14, 115, 96, 13, 5, 2, true, 0, 0x4000⟩),
      (0xC470F026, 0xDB004000, .pand ⟨14, 15, 1, 13, 5, 2, false, 0, 0x4000⟩),
      (0xC470F027, 0xDB004000, .por ⟨14, 15, 1, 13, 5, 2, false, 0, 0x4000⟩),
      (0xC470F028, 0xDB004000, .pxor ⟨14, 15, 1, 13, 5, 2, false, 0, 0x4000⟩),
      (0xC470F009, 0xDB404000, .pnot ⟨14, 15, 0, 13, 5, 2, true, 0, 0x4000⟩),
      (0xC471F00A, 0x0B004011, .pset ⟨14, 31, 0, 0, 5, 2, false, 0, 0x4011⟩)] = true := by decide +kernel
/-- Majors 0x32 and 0x33 (R60). -/
theorem test_words_vector_bits : twoWord [
      (0xCAFF3C00, 0xDB404000, .vand ⟨95, 115, 96, 13, 5, 2, true, 0, 0x4000⟩),
      (0xCAFF3C01, 0xDB404000, .vor ⟨95, 115, 96, 13, 5, 2, true, 0, 0x4000⟩),
      (0xCAFF3C02, 0xDB404000, .vxor ⟨95, 115, 96, 13, 5, 2, true, 0, 0x4000⟩),
      (0xCAFF3C03, 0xDB404000, .vandn ⟨95, 115, 96, 13, 5, 2, true, 0, 0x4000⟩),
      (0xCAFF3004, 0xDB404000, .vnot ⟨95, 115, 0, 13, 5, 2, true, 0, 0x4000⟩),
      (0xCAFF3C05, 0xDB404000, .vshl ⟨95, 115, 96, 13, 5, 2, true, 0, 0x4000⟩),
      (0xCAFF3C06, 0xDB404000, .vshr ⟨95, 115, 96, 13, 5, 2, true, 0, 0x4000⟩),
      (0xCAFF3C07, 0xDB404000, .vsra ⟨95, 115, 96, 13, 5, 2, true, 0, 0x4000⟩),
      (0xCAFF3008, 0xDB40001F, .vshli ⟨95, 115, 0, 13, 5, 2, true, 0, 0x1F⟩),
      (0xCAFF3009, 0xDB40001F, .vshri ⟨95, 115, 0, 13, 5, 2, true, 0, 0x1F⟩),
      (0xCAFF300A, 0xDB40001F, .vsrai ⟨95, 115, 0, 13, 5, 2, true, 0, 0x1F⟩),
      (0xCEFF3000, 0xDB004000, .vrsumr ⟨95, 115, 0, 13, 5, 2, false, 0, 0x4000⟩),
      (0xCEFF3001, 0xDB004000, .vrsumc ⟨95, 115, 0, 13, 5, 2, false, 0, 0x4000⟩),
      (0xCEFF3002, 0xDB004000, .vrmaxr ⟨95, 115, 0, 13, 5, 2, false, 0, 0x4000⟩),
      (0xCEFF3003, 0xDB004000, .vrmaxc ⟨95, 115, 0, 13, 5, 2, false, 0, 0x4000⟩),
      (0xCEFF3004, 0xDB004000, .vrminr ⟨95, 115, 0, 13, 5, 2, false, 0, 0x4000⟩),
      (0xCEFF3005, 0xDB004000, .vrminc ⟨95, 115, 0, 13, 5, 2, false, 0, 0x4000⟩)] = true := by decide +kernel
/-- Majors 0x34 and 0x35 (R60): vbcast of a G register, vshuf with OP 4, vcomp whose VC is a G register, a pitch of 64. -/
theorem test_words_vector_moves : twoWord [
      (0xD2F9F000, 0xDB403000, .vbcast ⟨95, 31, 0, 13, 5, 2, true, 0, 0x3000⟩),
      (0xD2FF3001, 0xDB404000, .vtrans ⟨95, 115, 0, 13, 5, 2, true, 0, 0x4000⟩),
      (0xD2FF3C02, 0xDB404000, .vperm ⟨95, 115, 96, 13, 5, 2, true, 0, 0x4000⟩),
      (0xD2FF3003, 0xDB402003, .vshuf ⟨95, 115, 0, 13, 5, 2, true, 0, 0x2003⟩),
      (0xD2FF3004, 0xDB0F4000, .vcomp ⟨95, 115, 0, 13, 5, 2, false, 30, 0x4000⟩),
      (0xD2FF3005, 0xDB404000, .vexpd ⟨95, 115, 0, 13, 5, 2, true, 0, 0x4000⟩),
      (0xD2FF3C06, 0xDB004000, .vsel ⟨95, 115, 96, 13, 5, 2, false, 0, 0x4000⟩),
      (0xD2FF3007, 0xDB404000, .vmov ⟨95, 115, 0, 13, 5, 2, true, 0, 0x4000⟩),
      (0xD2F80008, 0xDB407FFF, .vmovi ⟨95, 0, 0, 13, 5, 2, true, 0, 0x7FFF⟩),
      (0xD6F9F000, 0xDB400040, .vld ⟨95, 31, 0, 13, 5, 2, true, 0, 0x40⟩),
      (0xD401FE61, 0xDB000040, .vst ⟨0, 31, 115, 13, 5, 2, false, 0, 0x40⟩),
      (0xD6F85002, 0xDB407FFF, .vldac ⟨95, 5, 0, 13, 5, 2, true, 0, 0x7FFF⟩),
      (0xD401F1E3, 0x0B000000, .pst ⟨0, 31, 15, 0, 5, 2, false, 0, 0x0⟩),
      (0xD479F004, 0x0B000000, .pld ⟨15, 31, 0, 0, 5, 2, false, 0, 0x0⟩)] = true := by decide +kernel
/-- Majors 0x37 to 0x39, 0x3C and 0x3D (R60). -/
theorem test_words_matrix : twoWord [
      (0xDC000000, 0x0B007ABC, .shp ⟨0, 0, 0, 0, 5, 2, false, 0, 0x7ABC⟩),
      (0xDCF9E001, 0x0B000000, .shpr ⟨31, 30, 0, 0, 5, 2, false, 0, 0x0⟩),
      (0xE001D000, 0x0B000000, .mwld ⟨0, 29, 0, 0, 5, 2, false, 0, 0x0⟩),
      (0xE001D001, 0x0B000000, .mwldq ⟨0, 29, 0, 0, 5, 2, false, 0, 0x0⟩),
      (0xE0280002, 0x0B000000, .mclr ⟨5, 0, 0, 0, 5, 2, false, 0, 0x0⟩),
      (0xE0280003, 0x0B000000, .mswap ⟨5, 0, 0, 0, 5, 2, false, 0, 0x0⟩),
      (0xE0F80004, 0x0B000001, .mcks ⟨31, 0, 0, 0, 5, 2, false, 0, 0x1⟩),
      (0xE429F3C0, 0x0B000000, .mmac ⟨5, 31, 30, 0, 5, 2, false, 0, 0x0⟩),
      (0xF2FF3000, 0xDB400200, .cvt ⟨95, 115, 0, 13, 5, 2, true, 0, 0x200⟩),
      (0xF2FF3C01, 0xDB400200, .cvtsr ⟨95, 115, 96, 13, 5, 2, true, 0, 0x200⟩),
      (0xF6F9F3C0, 0xDB400000, .rng ⟨95, 31, 30, 13, 5, 2, true, 0, 0x0⟩),
      (0xF6FF3001, 0xDB400000, .tint ⟨95, 115, 0, 13, 5, 2, true, 0, 0x0⟩),
      (0xF401F002, 0x0B000000, .tload ⟨0, 31, 0, 0, 5, 2, false, 0, 0x0⟩)] = true := by decide +kernel
/-- Cue bytecode (R239). -/
theorem test_words_cue : ([
      (0x0DA5, .cuePfx 0x5A5), (0x1720, .cueMov 7 1), (0x1F1F, .cueLi 7 31), (0x2725, .cueAdd 7 1 5), (0x2F3F, .cueAddi 7 1 31), (0x3725, .cueSub 7 1 5),
      (0x3F25, .cueAnd 7 1 5), (0x4725, .cueOr 7 1 5), (0x4F25, .cueXor 7 1 5), (0x573F, .cueShl 7 1 31), (0x5F3F, .cueShr 7 1 31), (0x6725, .cueMin 7 1 5),
      (0x6F25, .cueMax 7 1 5), (0x7725, .cueSlt 7 1 5), (0x7F25, .cueSeq 7 1 5), (0x8725, .cueMul 7 1 5), (0x8F3E, .cueBeq 7 1 30), (0x973E, .cueBne 7 1 30),
      (0x9F3E, .cueBlt 7 1 30), (0xA73E, .cueBge 7 1 30), (0xA81E, .cueJmp 30), (0xB73E, .cueEach 7 true 30), (0xBF00, .cueNext 7), (0xC72B, .cueVget 7 1 11),
      (0xCF28, .cueCget 7 1 8), (0xD707, .cueVglob 7 7), (0xD820, .cuePick 1), (0xE020, .cuePlace 1), (0xE81F, .cueDeny 31), (0xF000, .cueStop)] : List (BitVec 16 × Instr)).all (fun x => (decodeCue x.1).toOption == some x.2 && encode x.2 == .half x.1) = true := by decide +kernel

/-- A term that each check of WellFormed.lean refuses, with the reason. -/
theorem test_ill_formed : ([(.access, .add 16 1 2, .register), (.access, .addi 1 17 5, .register), (.access, .bqt 1, .wrongStream), (.execute, .ldd 1 2 0, .wrongStream), (.execute, .loop 0 false 1 0, .loopField), (.execute, .loop 0 true 8 5, .loopField)
    , (.execute, .push 1 9 0, .subOperation), (.execute, .push 1 8 33, .subOperation), (.execute, .sysrd 1 0x00A, .systemRegister), (.access, .sysrd 1 0x010, .systemRegister), (.execute, .sysrd 1 0x050, .systemRegister), (.execute, .syswr 1 0x021, .systemRegister)
    , (.execute, .syswrHeapWindow 1 3, .systemRegister), (.execute, .locq 1 2 false, .mustBeZero), (.access, .vadd ⟨1, 2, 3, 0, 0, 0, false, 0, 0⟩, .wrongStream), (.execute, .vadd ⟨112, 2, 3, 0, 0, 0, false, 0, 0⟩, .specifier)
    , (.execute, .vadd ⟨1, 116, 3, 0, 0, 0, false, 0, 0⟩, .specifier), (.execute, .vadd ⟨1, 2, 3, 0, 0, 0, false, 1, 0⟩, .specifier), (.execute, .vadd ⟨1, 2, 3, 0, 0, 0, false, 0, 1⟩, .mustBeZero), (.execute, .vceq ⟨16, 2, 3, 0, 0, 0, false, 0, 0⟩, .specifier)
    , (.execute, .mclr ⟨6, 0, 0, 0, 0, 0, false, 0, 0⟩, .specifier), (.execute, .pst ⟨0, 32, 0, 0, 0, 0, false, 0, 0⟩, .specifier), (.execute, .pset ⟨1, 2, 0, 1, 0, 0, false, 0, 0⟩, .mustBeZero), (.execute, .vsel ⟨1, 2, 3, 0, 0, 0, true, 0, 0⟩, .mustBeZero)
    , (.execute, .pset ⟨1, 2, 0, 0, 0, 0, false, 0, 0x6000⟩, .subOperation), (.execute, .vshli ⟨1, 2, 0, 0, 0, 0, false, 0, 32⟩, .mustBeZero), (.execute, .vbcast ⟨1, 2, 0, 0, 0, 0, false, 0, 1⟩, .mustBeZero)
    , (.execute, .vshuf ⟨1, 2, 3, 0, 0, 0, false, 0, 5 * 2048⟩, .subOperation), (.execute, .vshuf ⟨1, 2, 3, 0, 0, 0, false, 0, 1024⟩, .mustBeZero), (.execute, .vld ⟨1, 2, 0, 0, 0, 0, false, 0, 2⟩, .subOperation), (.execute, .mcks ⟨1, 0, 0, 0, 0, 0, false, 0, 2⟩, .mustBeZero)
    , (.execute, .cvt ⟨1, 2, 0, 0, 0, 0, false, 0, 1⟩, .mustBeZero), (.execute, .cvtsr ⟨1, 2, 3, 0, 0, 0, false, 0, 0x400⟩, .mustBeZero), (.execute, .cueVget 1 2 12, .subOperation), (.execute, .cueCget 1 2 9, .subOperation), (.execute, .cueVglob 1 8, .subOperation)]
    : List (Stream × Instr × Illegal)).all (fun x => check x.1 x.2.1 == some x.2.2) = true := by decide +kernel
/-- Words that decode to nothing: unassigned codes, fields that must be zero, and cue forms that R240 rejects. -/
theorem test_refused_words : ([0x04000011, 0x05200811, 0x20220040, 0x50020001, 0x54000005, 0x60227000, 0x7C000500, 0x7C000003, 0x74010000, 0x78220610, 0x80000000, 0xBC00F000, 0xBC013000, 0xBC447002] : List Word32).all (fun w => (decode .access w 0).toOption.isNone && (decode .execute w 0).toOption.isNone) = true
    ∧ ([0x0000, 0xF800, 0x1001, 0x1820, 0x2028, 0xA920, 0xB040, 0xB801, 0xC00C, 0xD800 + 0x100, 0xE800 + 0x20, 0xF001] : List (BitVec 16)).all (fun h => (decodeCue h).toOption.isNone) = true := by decide +kernel

theorem witness_DecodeAndEncodeAgree : wellFormed .access (.ldd 1 2 3) = true ∧ wellFormed .execute (.vadd ⟨1, 2, 3, 0, 0, 0, false, 0, 0⟩) = true ∧ encode (.ldd 1 2 3) = .one 0x60226003 ∧ twoWords 0x60226003 = false ∧ twoWords 0xC0000000 = true
    ∧ (decode .access 0x60226003 0).toOption = some (.ldd 1 2 3) ∧ (decodeCue 0xF000).toOption = some .cueStop ∧ encode .cueStop = .half 0xF000 := by decide +kernel

/-- A thread whose code holds the words given, its turn due. -/
def turn (st : Stream) (w w1 : Nat) : State := { placeWord State.reset 64 (w + w1 * 2 ^ 32) with sched := [.issue 0 st] }
theorem witness_StepRunsTheDecodedInstruction : (∀ x ∈ [(turn .execute 0x10220005 0, some (0x10220005, some 0)), (turn .execute 0xC0081045 0x40, some (0xC0081045, some 0x40)), ({ turn .execute 0 0 with thr := { (turn .execute 0 0).thr with ex := { (turn .execute 0 0).thr.ex with pc := 64 } } }, none)],
      (focus { x.1 with sched := [] } 0).isSome = true ∧ recordsRun x.1 = true ∧ mayIssue x.1 x.1.thr .execute = true ∧ codeWords { x.1 with cur := .execute } x.1.thr (State.pc { x.1 with cur := .execute }).toNat = x.2) := by decide +kernel
theorem test_step_runs_addi : (match step (turn .execute 0x10220005 0) with | .next t => nth t.thr.g 1 0 == 5 | _ => false) = true := by decide +kernel
theorem test_step_illegal : (match step (turn .execute 0xA0000000 0) with | .next t => t.thr.sys.tcause != 0 || t.thr.ex.stopped || t.thr.ended || t.teams.any (fun u => u.trapRec.isSome) | _ => false) = true := by decide +kernel
theorem witness_StepRunsTheDecodedInstruction_cue : recordsRun (placeWord State.reset 16 0x1F1F) = true ∧ (placeWord State.reset 16 0x1F1F).sched = [.cue 0] ∧ ((placeWord State.reset 16 0x1F1F).part 0).run.active = true ∧ (decodeCue (((placeWord State.reset 16 0x1F1F).part 0).run.code.getD ((placeWord State.reset 16 0x1F1F).part 0).run.pc 0)).toOption = some (.cueLi 7 31) := by decide +kernel
/-- What a step answers: 0 next, 1 fault, 2 refusal. -/
def outcome (o : Host.Outcome State Fault Refusal) : Nat := match o with | .next _ => 0 | .fault _ => 1 | .refused _ => 2
theorem witness_StepKeepsMemoryCanonical : Memory.wf State.reset.mem = true ∧ Memory.wf (turn .execute 0x10220005 0).mem = true ∧ outcome (step (turn .execute 0x10220005 0)) = 0 := by decide +kernel
/-- The same turn with an interrupt that is due, and with a thread that may not issue. -/
def turnWith (f : Thread → Thread) : State := { turn .execute 0x10220005 0 with thr := f (turn .execute 0x10220005 0).thr }
theorem witness_StepRunsTheDecodedInstruction_turns : ((focus { turnWith uli with sched := [] } 0).map fun x => decide (recordsRun x = true ∧ mayIssue x x.thr .execute = true ∧ (uliDue { x with cur := .execute } x.thr).isSome = true)) = some true
    ∧ ((focus { turnWith (fun t => { t with halted := true }) with sched := [] } 0).map fun x => decide (recordsRun x = false ∨ mayIssue x x.thr .execute = false)) = some true ∧ (turnWith uli).sched = [.issue 0 .execute] := by decide +kernel
theorem test_interrupt_before_instruction : (match step (turnWith uli) with | .next t => t.thr.ex.pc == 0x9000 && nth t.thr.g 1 0 == 0 | _ => false) = true := by decide +kernel

/-! ### States that meet the hypotheses of the further clauses -/

/-- A HOST_COPY of 128 bytes to the device of which 64 have come; the same after these have been moved. -/
def rlong : HRec := { hrec 5 4 [(0x20, 8, heap + 0x1000), (0x28, 8, 128)] with data := List.replicate 64 7 }
def rlong2 : HRec := { rlong with status := .started, moved := 64, data := List.replicate 64 8 }
theorem witness_HostRecords_long : RecordReady (hostModule id rlong) 50 0x05 none rlong ∧ (rlong.moved + rlong.data.length < fieldOf rlong.raw 0x28 8 ∧ (heap + 0x1000 + rlong.data.length) % 64 = 0) ∧ startedRec (hostModule id rlong2) 50 0x05 = some rlong2
    ∧ recordsRun (hostModule id rlong2) = true ∧ actionsHeld (hostModule id rlong2) rlong2.raw = false ∧ rangeHeld (hostModule id rlong2) 0 (heap + 0x1000 + rlong2.moved) rlong2.data.length = false ∧ rlong2.moved + rlong2.data.length = fieldOf rlong2.raw 0x28 8 :=
  ⟨recordReady rfl (by decide +kernel), by decide +kernel⟩
theorem witness_HostRecords_places : inBitmap (hostModule id rlong) 0 (heap + 0x1000) 128 = false ∧ inBitmap (hostModule id (rcopy 1)) 0 (heap + 0x1000) 4 = false ∧ rangeHeld (hostModule id (rcopy 1)) 0 (heap + 0x1000) 0 = false ∧ (rcopy 0).moved = 0
    ∧ (hostReach (Begun (hostModule id rlong) 50) 0 .store (heap + 0x1000) 64).map (·.1) = some 0x10000001000 ∧ (hostReach (hostModule id rlong2) 0 .store (heap + 0x1040) 64).map (·.1) = some 0x10000001040 ∧ rlong.data.length ≤ 64 - (heap + 0x1000) % 64
    ∧ deviceOwns (hostModule id rlong2) 0 (heap + 0x1000 + rlong2.moved) 64 = false := by decide +kernel
theorem test_copy_goes_on : (match exec (.hostCopy 50) (hostModule id rlong) with | .next t => t.recs.map (fun r => (r.moved, r.data.length, r.status)) == [(64, 0, .started)] && getCells t.mem 0x10000001000 64 == List.replicate 64 7 | _ => false) = true
    ∧ answer (exec (.hostCopy 50) (hostModule id rlong2)) = [1, 1, 0, 128] := by decide +kernel

/-- No image at the address; a TROUPE whose record, or whose image, is not there; one whose only part is reserved. -/
theorem witness_LaunchAndTroupe_images : (imageFor (Begun { launching [] with images := [] } 50) 0 heap).toOption.isNone = true ∧ (readRange (Begun { trouping with recs := [hrec 2 0 [(0x20, 8, 0x1000), (0x28, 1, 1)]] } 50) 0 0x1000 128).toOption.isNone = true := by decide +kernel
def imageless : State := { trouping with images := [], troupe := some { record := 50, parts := [] } }
theorem witness_LaunchAndTroupe_error : (reserveParts imageless { rtroupe with data := part1 } (troupeParts { rtroupe with data := part1 })).toOption.isNone = true
    ∧ (reserveParts { waitingTroupe with images := [] } { rtroupe with data := part1, status := .started } (unreserved { rtroupe with data := part1, status := .started } [])).toOption.isNone = true := by decide +kernel
def rtwait : HRec := { rtroupe with data := part1, status := .started }
def expiring : State := { trouping with recs := [rtwait], troupe := some { record := 50, parts := [] } }
theorem witness_LaunchAndTroupe_expiry : expiring.recs.find? (fun r => r.id == 50) = some rtwait ∧ actionsHeld expiring rtwait.raw = false ∧ fieldOf rtwait.raw 0x2C 4 ≤ micros expiring rtwait.started ∧ (unreserved rtwait []).map rPart = [0] ∧ recordsRun expiring = true := by decide +kernel
theorem test_troupe_image_fault : (match exec (.troupe 50) { trouping with images := [] } with | .next t => t.troupe.isNone && t.recs.isEmpty && t.tasks.isEmpty | _ => false) = true := by decide +kernel

/-- COPY2D of two rows of four bytes, 16 bytes apart in the source and 64 in the destination; and of rows that follow each other. -/
def ecopy2d (dstep sstep : Nat) : EngRec := { erec 2 0x4000001000 0x4000001040 0 with words := [2, 0x4000001000, 0x4000001040, BitVec.ofNat 64 (2 * 2 ^ 32 + 4), BitVec.ofNat 64 (dstep * 2 ^ 32 + sstep), 0, 0, 0] }
/-- The last unit of the first segment of a COPY of 65,544 bytes. -/
def elong : EngRec := { erec 1 0x4000020000 0x4000080000 65544 with bytes := 65528, status := .running }
/-- The same with its first row copied: what is left is one unit. -/
def erow (dstep sstep : Nat) : EngRec := { ecopy2d dstep sstep with bytes := 4, status := .running }
theorem witness_StagehandRecords_rows : (∀ r ∈ [ecopy2d 64 16, erow 64 16, erow 4 16], recKind r.words = 2 ∧ servable (stage r) r = true ∧ r.eng = 0) ∧ nextServed (stage (ecopy2d 64 16)) 0 = some 0 ∧ (2 - 1) * 64 + 4 = 68 ∧ ¬ (0x4000001000 < 0x4000001040 + 68 ∧ 0x4000001040 < 0x4000001000 + ((2 - 1) * 16 + 4))
    ∧ translatePart (stage (erow 64 16)) 0 .load 0x4000001010 4 = .ok 0x10000001010 none ∧ translatePart (stage (erow 64 16)) 0 .store 0x4000001080 4 = .ok 0x10000001080 none ∧ translatePart (stage (erow 4 16)) 0 .store 0x4000001044 4 = .ok 0x10000001044 none
    ∧ commitHolds (stage (erow 64 16)) 0x10000001080 4 = false := by decide +kernel
theorem witness_StagehandRecords_segments : servable (stage elong) elong = true ∧ elong.eng = 0 ∧ elong.status = .running ∧ elong.ahead = [] ∧ min (65544 - 65528) (64 - (0x4000080000 + 65528) % 64) = 8 ∧ min 65544 ((65528 / 65536 + 1) * 65536) ≤ 65528 + 8
    ∧ translatePart (stage elong) 0 .load 0x400002FFF8 8 = .ok 0x1000002FFF8 none ∧ translatePart (stage elong) 0 .store 0x400008FFF8 8 = .ok 0x1000008FFF8 none ∧ commitHolds (stage elong) 0x1000008FFF8 8 = false ∧ (erec 1 0x4000001000 0x4000001040 0).bytes = 0 := by decide +kernel
theorem test_copy2d : (match exec (.stagehandSegment 70) (stage (ecopy2d 64 16)) with | .next t => t.eng.map (fun r => (r.status, r.bytes)) == [(.done, 8)] && getCells t.mem 0x10000001040 4 == [0xF1, 0xFF, 3, 4] && getCells t.mem 0x10000001080 4 == getCells t.mem 0x10000001010 4 | _ => false) = true := by decide +kernel
theorem test_segment_ends : (match exec (.stagehandSegment 70) (stage elong) with | .next t => t.eng.map (fun r => (r.status, r.bytes)) == [(.running, 65536)] | _ => false) = true := by decide +kernel
/-- What stopped it is there now. -/
theorem witness_StagehandRecords_mapped : (reach (noteServed (stage { ecopy 8 with faulted := true, faddr := 0x4000001000 }) 0 0) 0 .load 0x4000001000 1).map (·.1) = some 0x10000001000 ∧ (reach (noteServed (stage { ecopy 8 with faulted := true, faddr := 0x1000 }) 0 0) 0 .load 0x1000 1).isNone = true
    ∧ (0x1000 : Nat) ≠ 0x4000001040 := by decide +kernel
/-- A record that has ended with a status word at 0x4000002000 and an addition of 5 at 0x4000003000. -/
def eend (flags : Nat) : EngRec := { ecopy 8 with words := [BitVec.ofNat 64 (1 + flags * 256), 0x4000001000, 0x4000001040, 8, 0, 0x4000003000, 5, 0x4000002000], status := .done, code := 1, bytes := 8 }
theorem witness_StagehandRecords_actions : (∀ n ∈ [1, 2, 3], engineHeld (stage (eend n)) (eend n) = false) ∧ recSwe (eend 2).words = true ∧ recSeme (eend 2).words = false ∧ recSwe (eend 1).words = false ∧ recSeme (eend 1).words = true ∧ recSwe (eend 3).words = true ∧ recSeme (eend 3).words = true
    ∧ (0x4000002000 : Nat) % 32 = 0 ∧ translatePart (stage (eend 3)) 0 .store 0x4000002000 32 = .ok 0x10000002000 none ∧ translatePart (stage (eend 3)) 0 .store 0x4000003000 8 = .ok 0x10000003000 none ∧ (eend 3).status = .done := by decide +kernel
theorem test_record_actions : (match exec (.recordCompletion 70) (stage (eend 3)) with | .next t => t.eng.isEmpty && getLe t.mem 0x10000003000 8 == 5 && getCells t.mem 0x10000002000 16 == [1, 1, 0, 0, 0, 0, 0, 0, 8, 0, 0, 0, 0, 0, 0, 0] | _ => false) = true := by decide +kernel

/-- A collective record whose push waits for an SDQ entry that its thread has not paired. -/
def egated : EngRec := { esend with gate := some { sdq := 1, cmdix := 0, marks := 0 } }
theorem witness_CollectiveRecords_gate : Sys2Proof.Machine.recordReady { grouped 2 egated with thr := { (grouped 2 egated).thr with tid := 1 } } egated = false ∧ Sys2Proof.Machine.recordReady (grouped 2 esend) esend = true := by decide +kernel

/-- A listed partner opens REPLICA, and names its power feed. -/
def openMsg : Clovo := { replicaMsg with psn := 0, payload := leBytes 8 State.reset.mod.cfg.feed.toNat }
def opening : State := { peering (inDomain 0 restorable) [] with conns := [] }
theorem witness_HostConnections_replica : Taken opening openMsg ∧ mayOpen opening openMsg = true ∧ (∀ c ∈ opening.conns, c.node ≠ 7) ∧ (opening.part 0).domain = some restorable ∧ restorable.partner = some (7, 1) ∧ BitVec.ofNat 64 (fieldOf openMsg.payload 0 8) = opening.mod.cfg.feed := by
  unfold Taken; decide +kernel
theorem test_open_replica : (match exec (.clovoOpen openMsg) opening with | .next t => t.conns.map (fun c => (c.node, c.chan, c.isOpen)) == [(7, 3, true)] && (t.part 0).rp.feed | _ => false) = true := by decide +kernel
theorem witness_HostDelivery_hold : (wire [sending 0]).mod.time < { sending 0 with holdUntil := 5 }.holdUntil ∧ (msg 1 2 0 2 []).chan ≠ 3 ∧ (sending 0).isOpen = true := by decide +kernel

/-- RANGE_RELEASE with no access under way, and with a load of the range in flight. -/
def inFlight : State := { ranged 0x0B with thr := { thread with qs := { thread.qs with loads := [{ loadReq with ea := 0x1000, pa := 0x10000005000, size := 8 }] } } }
theorem witness_PartitionRecords_release : (∀ x ∈ [(ranged 0x0B, false), (inFlight, true)], let y := shootDown (setOwner (Begun x.1 50) 0 0x1000 4096 false) 0 0x1000 4096; accessPending y ((pagesOf 0x1000 4096).filterMap (Sys2Proof.Machine.frameOf y 0)) = x.2) ∧ fieldOf (rrange 0x0B).raw 3 1 = 0
    ∧ { stage (ecopy 8) with recs := [hrec 9 0 []] }.troupe = none := by decide +kernel
theorem test_range_release : (match exec (.rangeRelease 50) (ranged 0x0B) with | .next t => (walkVA t 0 0x1000).map (fun x => x.1) == some 0x10000005085 && t.recs.isEmpty | _ => false) = true
    ∧ (match exec (.rangeRelease 50) inFlight with | .next t => t.recs.map (·.status) == [.started] | _ => false) = true := by decide +kernel

/-- CONN_SET that lowers entries only, and one that raises them; a circuit that lights. -/
def lowering : State := { hostModule id (rconn 0 1 0) with mod := { (hostModule id (rconn 0 1 0)).mod with circuits := setUnits (hostModule id (rconn 0 1 0)).mod.circuits 0 1 4 } }
theorem witness_ModuleRecords_tables : (let t := (connEntries (rconn 0 1 4).raw).foldl (fun t e => setUnits t e.1 e.2.1 e.2.2) (hostModule id (rconn 0 1 4)).mod.circuits; ∃ e ∈ t, unitsOf (hostModule id (rconn 0 1 4)).mod.circuits e.1 e.2.1 < e.2.2)
    ∧ (let t := (connEntries (rconn 0 1 0).raw).foldl (fun t e => setUnits t e.1 e.2.1 e.2.2) lowering.mod.circuits; tableRefusal lowering t = none ∧ ∀ e ∈ t, e.2.2 ≤ unitsOf lowering.mod.circuits e.1 e.2.1) := by decide +kernel
def rcfg : HRec := dbg 7 [(0x22, 8, heap + 0x1000), (0x2A, 4, 8)]
theorem witness_ModuleRecords_cfg : RecordReady (hostModule id rcfg) 50 0x13 (some 7) rcfg ∧ (readRange (Begun (hostModule id rcfg) 50) 0 (heap + 0x1000) 8).toOption.map (·.1) = some [0xF1, 0xFF, 3, 4, 5, 6, 7, 0x88] := ⟨recordReady rfl (by decide +kernel), by decide +kernel⟩

/-- A commit whose point goes to a partner; a stop-mode stall that is over for a granule still to copy; JREAD into a range that ends. -/
def partnered : Domain := { committing with partner := some (7, 1) }
def stalled : Domain := { domain with granules := [0x10000000000], commit := some { seq := 4, slot := 1, granules := [0], poisoned := false, todo := [0] } }
theorem witness_CheckpointRecords_partnered : (committing.commit.map (·.slot)) = some 1 ∧ partnered.partner = some (7, 1) ∧ committing.partner = none ∧ (∀ h ∈ stalled.held, h.2 ≤ (quietly id).mod.time ∧ ∀ c, stalled.commit = some c → h.1 ∈ c.todo) ∧ stalled.held ≠ [] := by
  refine ⟨rfl, rfl, rfl, ?_, by decide⟩
  intro h hm
  simp only [stalled, domain, List.mem_cons, List.not_mem_nil, or_false] at hm
  subst hm
  exact ⟨by decide +kernel, fun c hc => by simp only [stalled, Option.some.injEq] at hc; subst hc; decide⟩
theorem test_stall_ends : (match exec (.stallEnd 0) (quietly (inDomain 2 stalled)) with | .next t => ((t.part 0).domain.map (·.held)) == some [] | _ => false) = true := by decide +kernel
def jentry : JEntry := { jseq := 1, type := 7, time := 0, rpseq := 4, rpdur := 0, arg := 3 }
def rjread (va : Nat) : HRec := ck 4 [(0x28, 8, va), (0x30, 8, 1)]
theorem witness_CheckpointRecords_jread : (writeRange (Begun (hostModule (inDomain 0 { domain with journal := [jentry] }) (rjread (heap + 0x3000))) 50) 0 (heap + 0x3000) (jentry.bytes 0)).1 = (jentry.bytes 0).length ∧ (writeRange (Begun (hostModule (inDomain 0 { domain with journal := [jentry] }) (rjread 0x1000)) 50) 0 0x1000 (jentry.bytes 0)).1 < (jentry.bytes 0).length := by decide +kernel

/-- A RESTORE that waits for what it has asked the partner for, and the point 4 of no segments that comes. -/
def rfetch : HRec := { hrec 0x0C 0 [(0x20, 1, 2), (0x30, 8, 1)] with status := .started }
def fetched (n : Nat) : Replica := { node := 7, part := 0, seq := 4, feed := 0, nseg := n, segments := [], commit := commitRecord { sound4 with nseg := n }, table := [] }
def fetchingState (p : Partition → Partition) : State := { peering p [] with recs := [rfetch] }
theorem witness_RestoreAndPartners_fetched : fetching (fetchingState (inDomain 0 restorable)) 7 (fetched 0) = some rfetch ∧ restoreFree (fetchingState (inDomain 0 restorable)) 0 = true ∧ restoreFree (fetchingState (inDomain 0 { restorable with held := [(0, 5)] })) 0 = false ∧ anyRunning (fetchingState (inDomain 0 restorable)) 0 = false
    ∧ slotSound 0 0 0 (slotOf (fetched 0) 0 Slot.blank) = true ∧ fieldOf (fetched 0).commit 0x10 4 = 0 ∧ fieldOf (fetched 9).commit 0x10 4 ≠ 0 ∧ actionsHeld (fetchingState (inDomain 0 restorable)) rfetch.raw = false ∧ anyRunning { fetchingState (inDomain 0 restorable) with tasks := [task] } 0 = true := by decide +kernel
theorem witness_RestoreAndPartners_gate : PeerGate (fetchingState (inDomain 0 restorable)) replicaMsg 3 { conn 13 3 true with node := 7, port := 1 } := by unfold PeerGate; decide +kernel
theorem witness_RestoreAndPartners_torn : slotSound 0 0 0 { sound4 with tcrc := 1 } = false ∧ slotSound 0 1 0 { sound4 with slot := 1, seq := 3 } = true ∧ (3 : Word).toNat < (4 : Word).toNat ∧ (∀ x ∈ [(⟨0, 3, true⟩ : PartnerReply), ⟨0, 9, false⟩], x.refused = true ∨ ((fetchingState (inDomain 0 restorable)).part 0).rp.rpseq.toNat < x.seq.toNat)
    ∧ (peering id []).replicas.find? (fun x => x.node == 7 && x.part == 2) = none ∧ connOf (quietly id) replicaMsg = none := by decide +kernel
theorem test_fetched_restores : (match exec (.replicaSegments (replicaMsg, fetched 0)) (fetchingState (inDomain 0 restorable)) with | .next t => t.recs.isEmpty && (t.part 0).rp.rpdur == 4 && (t.part 0).rp.rppar == 4 | _ => false) = true
    ∧ (match exec (.replicaSegments (replicaMsg, fetched 9)) (fetchingState (inDomain 0 restorable)) with | .next t => t.recs.isEmpty && (t.part 0).rp.rpdur == 0 | _ => false) = true := by decide +kernel
theorem test_replica_without_room : (match exec (.replicaSegments (replicaMsg, point 100)) (peering id []) with | .next t => t.out == [.peer 1 3 3 1 7 (.answer ⟨2, 9, true⟩)] && t.replicas.isEmpty | _ => false) = true := by decide +kernel
theorem test_partner_fetch_none : (match exec (.partnerFetch replicaMsg 2 6) (peering id []) with | .next t => (match t.out with | [.peer 1 3 3 1 7 (.replica g)] => fieldOf g.commit 0 4 == 0 && g.seq == 6 | _ => false) | _ => false) = true := by decide +kernel
theorem test_restore_waits : (match exec (.restore 50) (hostModule (inDomain 0 { restorable with held := [(0, 5)] }) (rrest 4 0)) with | .next t => t.out.isEmpty && t.recs.length == 1 | _ => false) = true := by decide +kernel

/-- HANDLER with no access under way and with one; a trap image; a WRITE that names replica 1 of a team that has none. -/
def rhandler : HRec := dbg 0x100 [(0x22, 8, 0x1000), (0x2A, 4, 4096)]
def handling : State := { mapPage (hostModule id rhandler) 0 0x1000 0x10000005085 with recs := [rhandler] }
def handlingBusy : State := { handling with thr := inFlight.thr }
theorem witness_DebuggerRecords_handler : RecordReady handling 50 0x13 (some 0x100) rhandler ∧ (∀ v ∈ pagesOf 0x1000 4096, placed (Begun handling 50) 0 v = true) ∧ (∀ x ∈ [(handling, false), (handlingBusy, true)],
      let z := shootDown ((pagesOf 0x1000 4096).foldl (fun s v => setLeaf s 0 v fun e => withBit e 4 true) (Begun x.1 50)) 0 0x1000 4096
      accessPending z ((pagesOf 0x1000 4096).filterMap (Sys2Proof.Machine.frameOf z 0)) = x.2) := ⟨recordReady rfl (by decide +kernel), by decide +kernel⟩
theorem test_handler_waits : (match exec (.handler 50) handlingBusy with | .next t => t.recs.map (·.status) == [.started] && (t.part 0).handler == some (0x1000, 4096) | _ => false) = true ∧ (match exec (.handler 50) handling with | .next t => t.recs.isEmpty | _ => false) = true := by decide +kernel
def rtrap (n : Nat) : HRec := dbg 0x108 [(0x22, 8, heap + 0x4000), (0x2A, 8, n)]
def trapImaged (n : Nat) : State := hostModule (fun p => { p with trapImage := some (team, task, [thread]) }) (rtrap n)
theorem witness_DebuggerRecords_trapimg : RecordReady (trapImaged 64) 50 0x13 (some 0x108) (rtrap 64) ∧ ((trapImaged 64).part 0).trapImage = some (team, task, [thread]) ∧ rangeHeld (trapImaged 64) 0 (heap + 0x4000) 64 = false ∧ ((teamImage (Begun (trapImaged 64) 50) task team [thread] []).take 65).length = 65 := ⟨recordReady rfl (by decide +kernel), by decide +kernel⟩

/-- Idle for long enough, and not; mailboxes with room and full. -/
theorem witness_PowerAndStarts_times : (powered id).mod.busyAt + 14000000 ≤ (powered id).mod.time ∧ (powered fun m => { m with busyAt := m.time }).mod.time < (powered fun m => { m with busyAt := m.time }).mod.busyAt + 14000000 ∧ ((powered id).mod.fw[0]).idleAt + 70000 ≤ (powered id).mod.time
    ∧ ((powered id).mod.fw[0]).mailbox.length < 32 ∧ (powered id).troupe = none ∧ (powered id).tasks = [] ∧ ((powered id).mod.fw[0]).wake = false := by decide +kernel
theorem test_ps1_too_early : (match exec .ps1Entry (powered fun m => { m with busyAt := m.time - 13999999 }) with | .next t => t.mod.power == .ps0 | _ => false) = true := by decide +kernel
/-- Copies of the sealed part: one sound, none, and one that is not what would be written now. -/
theorem witness_PowerAndStarts_sealed : (latestSeal (powered (sealedWith 2 0)).mod).map (fun x => x.part.warmFails) = some 2 ∧ latestSeal (powered fun m => { m with seal0 := { m.seal0 with sound := false }, seal1 := { m.seal1 with sound := false } }).mod = none
    ∧ (powered id).mod.sealing = none ∧ (latestSeal (powered fun m => { m with warmFails := 1 }).mod).isSome = true ∧ (latestSeal (powered id).mod).map (fun x => decide (x.part = sealedNow (powered fun m => { m with warmFails := 1 }))) = some false := by decide +kernel
theorem test_seal_in_two_steps : ((sealStep (powered fun m => { m with warmFails := 1 })).mod.sealing = some 1 ∧ (latestSeal (sealStep (powered fun m => { m with warmFails := 1 })).mod).map (fun x => x.part.warmFails) = some 0)
    ∧ (latestSeal (sealStep (sealStep (powered fun m => { m with warmFails := 1 }))).mod).map (fun x => x.part.warmFails) = some 1 := by decide +kernel
theorem witness_StepRunsTheDecodedInstruction_time : (powered id).mod.power ≠ .ps3 ∧ (powered fun m => { m with power := .ps3 }).mod.power = .ps3 := by decide +kernel

end Sys2Proof.Tests
end

section
/-!
O8, O21 and O60: memory, the system registers, and the canonical form of memory.
-/
namespace Sys2Proof.Machine

/-- Settles O8: a list of bytes is written one at a time, and each write keeps the form (`wf_setCells`), is read back
(`getCells_setCells`) and leaves every other address (`getCell_setCells_ne`). -/
theorem memoryReadsBack : Obligations.MemoryReadsBack := fun _ a bs w =>
  ⟨wf_setCells w a bs, getCells_setCells w a bs, fun _ => getCell_setCells_ne w⟩

/-! ### O21: writes of system registers -/

theorem supervisorOnly_iff {n : Nat} : supervisorOnly n = true ↔ n ≤ 3 ∨ (5 ≤ n ∧ n ≤ 9) ∨ (0x110 ≤ n ∧ n ≤ 0x11F) := by
  simp only [supervisorOnly, Bool.or_eq_true, Bool.and_eq_true, decide_eq_true_eq, or_assoc]

theorem supervisorWrites_iff {n : Nat} : supervisorWrites n = true ↔ (0x20 ≤ n ∧ n ≤ 0x22) ∨ (0x100 ≤ n ∧ n ≤ 0x10F) := by
  simp only [supervisorWrites, Bool.or_eq_true, Bool.and_eq_true, decide_eq_true_eq]

/-- A syswr that the level allows, and that no fold before it holds back, writes the register (R208, R217). -/
theorem syswr_completes {s : State} {a : Reg} (ready : Ready s [a]) {n : Nat} {y : SysRegs} (small : n < 4096)
    (only : supervisorOnly n = true → s.thr.sys.tstat.lvl = true) (writes : supervisorWrites n = true → s.thr.sys.tstat.lvl = true)
    (folded : n = 0x50 → s.thr.vq = []) (paired : n = 0x51 → s.thr.qs.sdq = []) (h : setSysReg s.thr.sys n (readReg s a) = y) :
    Completes (.syswr a (BitVec.ofNat 12 n)) s (modThr s fun t => { t with sys := y }) := by
  have number : (BitVec.ofNat 12 n).toNat = n := by simp [small]
  have same (m : Nat) (hm : m < 4096) : (BitVec.ofNat 12 n == BitVec.ofNat 12 m) = true → n = m := fun e => by
    have e := congrArg BitVec.toNat (eq_of_beq e)
    rwa [number, BitVec.toNat_ofNat, Nat.mod_eq_of_lt hm] at e
  subst h
  refine completes_of ?_
  show execSyswr a (BitVec.ofNat 12 n) s = _
  unfold execSyswr
  rw [withRegs_ready ready, number, if_neg, if_neg, if_neg, if_neg]
  · rfl
  · simpa using fun e => paired (same 0x51 (by decide) (by simpa using e))
  · simpa using fun e => folded (same 0x50 (by decide) (by simpa using e))
  · simpa using writes
  · simpa using only

theorem supervisor_syswr {s : State} {a : Reg} (ready : Ready s [a]) (lvl : s.thr.sys.tstat.lvl = true) {n : Nat} {y : SysRegs} (small : n < 4096)
    (other : n ≠ 0x50 ∧ n ≠ 0x51) (h : setSysReg s.thr.sys n (readReg s a) = y) :
    Completes (.syswr a (BitVec.ofNat 12 n)) s (modThr s fun t => { t with sys := y }) :=
  syswr_completes ready small (fun _ => lvl) (fun _ => lvl) (fun e => absurd e other.1) (fun e => absurd e other.2) h

theorem user_syswr {s : State} {a : Reg} (ready : Ready s [a]) {n : Nat} {y : SysRegs} (small : n < 4096)
    (free : supervisorOnly n = false ∧ supervisorWrites n = false) (other : n ≠ 0x50 ∧ n ≠ 0x51) (h : setSysReg s.thr.sys n (readReg s a) = y) :
    Completes (.syswr a (BitVec.ofNat 12 n)) s (modThr s fun t => { t with sys := y }) :=
  syswr_completes ready small (by simp [free.1]) (by simp [free.2]) (fun e => absurd e other.1) (fun e => absurd e other.2) h

theorem user_syswr_ignored {s : State} {a : Reg} (ready : Ready s [a]) (lvl : s.thr.sys.tstat.lvl = false) {n : Nat} (small : n < 4096)
    (only : supervisorOnly n = false) (writes : supervisorWrites n = true) : Completes (.syswr a (BitVec.ofNat 12 n)) s s := by
  refine completes_of ?_
  show execSyswr a (BitVec.ofNat 12 n) s = _
  have number : (BitVec.ofNat 12 n).toNat = n := by simp [small]
  unfold execSyswr
  rw [withRegs_ready ready, number, only, writes, lvl]
  rfl

theorem setSysReg_tscr (y : SysRegs) (v : Word) {k : Nat} (h : k < 4) : setSysReg y (0x006 + k) v = { y with tscr := upd y.tscr k v } := by
  match k, h with
  | 0, _ | 1, _ | 2, _ | 3, _ => rfl

theorem within_iff {a b n : Nat} : (decide (a ≤ n) && decide (n ≤ b)) = true ↔ a ≤ n ∧ n ≤ b := by
  rw [Bool.and_eq_true, decide_eq_true_iff, decide_eq_true_iff]

/-- Past the signatures there are the counters and their selectors. -/
theorem setSysReg_of_counter (y : SysRegs) (v : Word) {n : Nat} (h : 0x52 ≤ n) : setSysReg y n v =
    if 0x100 ≤ n && n ≤ 0x10F then { y with pcnt := upd y.pcnt (n - 0x100) v }
    else if 0x110 ≤ n && n ≤ 0x11F then { y with psel := upd y.psel (n - 0x110) (v &&& mask 0 8) } else y := by
  have ne (m : Nat) (hm : m < 0x52) : ¬(n == m) = true := fun e => by
    have e := eq_of_beq e
    omega
  have noScratch : ¬(decide (6 ≤ n) && decide (n ≤ 9)) = true := mt within_iff.mp (by omega)
  unfold setSysReg
  rw [if_neg (ne 0 (by decide)), if_neg (ne 1 (by decide)), if_neg (ne 2 (by decide)), if_neg (ne 3 (by decide)), if_neg (ne 5 (by decide)),
    if_neg noScratch, if_neg (ne 0x11 (by decide)), if_neg (ne 0x12 (by decide)), if_neg (ne 0x20 (by decide)), if_neg (ne 0x21 (by decide)),
    if_neg (ne 0x22 (by decide)), if_neg (ne 0x50 (by decide)), if_neg (ne 0x51 (by decide))]

theorem setSysReg_pcnt (y : SysRegs) (v : Word) {k : Nat} (h : k < 16) : setSysReg y (0x100 + k) v = { y with pcnt := upd y.pcnt k v } := by
  rw [setSysReg_of_counter y v (by omega), if_pos (within_iff.mpr (by omega)), Nat.add_sub_cancel_left]

theorem setSysReg_psel (y : SysRegs) (v : Word) {k : Nat} (h : k < 16) :
    setSysReg y (0x110 + k) v = { y with psel := upd y.psel k (v &&& 0xFF#64) } := by
  rw [setSysReg_of_counter y v (by omega), if_neg (mt within_iff.mp (by omega)), if_pos (within_iff.mpr (by omega)), Nat.add_sub_cancel_left]
  rfl

theorem systemRegisterWrites : Sys2Proof.Claims.SystemRegisterWrites := by
  intro s a ready v put y
  have user {n : Nat} {x : SysRegs} (small : n < 4096) (free : supervisorOnly n = false ∧ supervisorWrites n = false)
      (other : n ≠ 0x50 ∧ n ≠ 0x51) (h : setSysReg y n v = x) : put n x := user_syswr ready small free other h
  have reads {n : Nat} (lvl : y.tstat.lvl = false) (small : n < 4096) (only : supervisorOnly n = false) (writes : supervisorWrites n = true) : put n y :=
    user_syswr_ignored ready lvl small only writes
  refine ⟨user (by decide) (by decide) (by decide) rfl, user (by decide) (by decide) (by decide) rfl,
    ?_, ?_, ?_, ?_, ?_, ?_, ?_, ?_, ?_, ?_, ?_, ?_, ?_, ?_, ?_⟩
  iterate 11 exact user (by decide) (by decide) (by decide) rfl
  · exact fun folded => syswr_completes ready (by decide) (absurd · (by decide)) (absurd · (by decide)) (fun _ => folded) (absurd · (by decide)) rfl
  · exact fun paired => syswr_completes ready (by decide) (absurd · (by decide)) (absurd · (by decide)) (absurd · (by decide)) (fun _ => paired) rfl
  · intro lvl
    have sup {n : Nat} {x : SysRegs} (small : n < 4096) (other : n ≠ 0x50 ∧ n ≠ 0x51) (h : setSysReg y n v = x) : put n x :=
      supervisor_syswr ready lvl small other h
    exact ⟨sup (by decide) (by decide) rfl, sup (by decide) (by decide) rfl, sup (by decide) (by decide) rfl, sup (by decide) (by decide) rfl,
      sup (by decide) (by decide) rfl, fun k hk => sup (by omega) (by omega) (setSysReg_tscr y v hk), fun k hk =>
        ⟨sup (by omega) (by omega) (setSysReg_pcnt y v hk), sup (by omega) (by omega) (setSysReg_psel y v hk)⟩⟩
  · intro lvl
    refine ⟨fun k hk => reads lvl (by omega) (Bool.eq_false_iff.mpr (mt supervisorOnly_iff.mp (by omega)))
      (supervisorWrites_iff.mpr (by omega)), fun n => ?_⟩
    refine completes_of ?_
    show execSyswrHeapWindow a n s = _
    unfold execSyswrHeapWindow
    rw [withRegs_ready ready, lvl]
    rfl

/-! ### The heap window -/

theorem durableIn_eq_false_iff (s : State) (a n : Nat) : durableIn s a n = false ↔
    ∀ q ∈ s.parts, ∀ d, q.domain = some d → ∀ b ∈ d.granules ++ d.pbGranules, a + n ≤ b ∨ b + 0x200000 ≤ a := by
  have apart (q : Partition) : (match q.domain with
      | none => false
      | some d => (d.granules ++ d.pbGranules).any fun b => b < a + n && a < b + 0x200000) = false
      ↔ ∀ d, q.domain = some d → ∀ b ∈ d.granules ++ d.pbGranules, a + n ≤ b ∨ b + 0x200000 ≤ a := by
    cases q.domain with
    | none => simp
    | some d =>
      simp only [List.any_eq_false, Option.some.injEq, forall_eq', Bool.and_eq_true, decide_eq_true_eq]
      exact forall₂_congr fun b _ => by omega
  unfold durableIn
  rw [List.any_eq_false]
  simp only [Vector.mem_toList_iff, Bool.not_eq_true]
  exact forall₂_congr fun q _ => apart q

theorem windowOk_iff (s : State) (y : SysRegs) :
    let q := s.part s.thr.part
    let len := y.hlimit.toNat - y.hbase.toNat
    let lo := (y.hbase.toNat + y.hoff.toNat) % 2 ^ 57
    windowOk s y = true ↔ y.hlimit.toNat ≤ y.hbase.toNat ∨ (q.heapPA ≤ lo ∧ lo + len ≤ q.heapPA + q.heapLen ∧ y.hlimit.toNat ≤ 2 ^ 56
      ∧ ∀ w ∈ s.parts, ∀ m, w.domain = some m → ∀ g ∈ m.granules ++ m.pbGranules, lo + len ≤ g ∨ g + 0x200000 ≤ lo) := by
  intro q len lo
  rw [← durableIn_eq_false_iff]
  simp [windowOk, Config.vaEnd, Config.imageArea, q, len, lo, and_assoc]

theorem heapWindowWrites : Sys2Proof.Claims.HeapWindowWrites := by
  intro s a n ready lvl v y q len lo fits
  have writes : exec (.syswrHeapWindow a n) s
      = .next (if windowOk s y then complete (modThr s fun t => { t with sys := y }) else raiseHere s 0x07 v) := by
    show execSyswrHeapWindow a n s = _
    unfold execSyswrHeapWindow
    rw [withRegs_ready ready, lvl]
    rfl
  have ok : windowOk s y = true ↔ fits := windowOk_iff s y
  refine ⟨fun h => ?_, fun h => ?_, ?_, ?_, ?_⟩
  · rw [if_pos (ok.mpr h)] at writes
    exact completes_of writes
  · rw [if_neg (mt ok.mp h)] at writes
    exact writes
  all_goals
    rintro rfl
    rfl

/-! ### User level -/

theorem readSys_privileged {s : State} (lvl : s.thr.sys.tstat.lvl = false) {n : Nat} (h : supervisorOnly n = true) (d : Reg) (i : Instr) :
    readSys d n i s = privileged s i := by
  unfold readSys
  rw [h, lvl]
  rfl

theorem privilegedAtUserLevel : Sys2Proof.Claims.PrivilegedAtUserLevel := by
  intro s d a n k lvl hn i hi
  have only := supervisorOnly_iff.mpr hn
  simp only [List.mem_cons, List.not_mem_nil, or_false] at hi
  obtain rfl | rfl | rfl | rfl := hi
  · exact congrArg _ (readSys_privileged lvl only d _)
  · show execSyswr a n s = _
    unfold execSyswr
    rw [only, lvl]
    rfl
  · exact congrArg _ (readSys_privileged lvl (supervisorOnly_iff.mpr (by omega)) d _)
  · show execEret s = _
    unfold execEret
    rw [lvl]
    rfl

/-- Settles O21: what syswr writes and leaves, the window test, and what raises privileged at user level. -/
theorem systemWrites : Obligations.SystemWrites := ⟨systemRegisterWrites, heapWindowWrites, privilegedAtUserLevel⟩

end Sys2Proof.Machine
end

section
/-!
O60: every step keeps memory in its canonical form. Most functions of the model do not touch memory at all (the lemmas `foo_mem`, by which
`simp` goes from the state after them back to the one before); the others write through `setCells`, which keeps the form (the lemmas
`foo_wf`). There is one lemma for a function, in the order in which they call one another, then one for each instruction that does more than
call one of them (`execFoo_leavesWf`), and `exec_leavesWf` puts these together.
-/
namespace Sys2Proof.Machine

@[simp] theorem ite_mem (c : Prop) [Decidable c] (a b : State) : (if c then a else b).mem = if c then a.mem else b.mem := apply_ite ..
/-- Each application of `f` leaves memory as it was. -/
def KeepsMem {α : Type} (f : State → α → State) : Prop := ∀ s a, (f s a).mem = s.mem
@[simp] theorem keepsMem_iff {α : Type} {f : State → α → State} : KeepsMem f ↔ ∀ s a, (f s a).mem = s.mem := Iff.rfl
@[simp] theorem foldl_mem {α : Type} {f : State → α → State} (h : KeepsMem f) (l : List α) (s : State) : (l.foldl f s).mem = s.mem := by
  induction l generalizing s with
  | nil => rfl
  | cons a l ih => rw [List.foldl_cons, ih, h]

theorem getD_mem {s : State} {o : Option State} (h : ∀ t, o = some t → t.mem = s.mem) : (o.getD s).mem = s.mem := by
  cases o with
  | none => rfl
  | some t => exact h t rfl

theorem focus_mem {s t : State} {tid : Nat} (h : focus s tid = some t) : t.mem = s.mem := by
  unfold focus at h
  split at h
  · cases h; rfl
  · split at h
    · split at h
      · cases h; rfl
      · cases h
    · cases h

/-! ### Registers and streams -/

@[simp] theorem writeReg_mem (s : State) (r : Reg) (v : Word) : (writeReg s r v).mem = s.mem := by unfold writeReg; split <;> simp
@[simp] theorem complete_mem (s : State) (n : Nat) : (complete s n).mem = s.mem := rfl
@[simp] theorem transfer_mem (s : State) (target : Word) : (transfer s target).mem = s.mem := rfl
@[simp] theorem stall_mem (s : State) (k : Stall) : (stall s k).mem = s.mem := rfl

/-! ### Choices and requests to the Stage Manager -/

@[simp] theorem pick_mem (s : State) (n : Nat) : (pick s n).2.mem = s.mem := by unfold pick; split <;> simp
@[simp] theorem addPending_mem (s : State) (p kind subject : Nat) : (addPending s p kind subject).mem = s.mem := rfl
@[simp] theorem wantDispatch_mem (s : State) (p : Nat) : (wantDispatch s p).mem = s.mem := rfl
@[simp] theorem requestStop_mem (s : State) (id : Nat) (why : StopFor) : (requestStop s id why).mem = s.mem := rfl
@[simp] theorem stopPair_mem (s : State) (u : Team) (why : StopFor) : (stopPair s u why).mem = s.mem := by simp [stopPair]
@[simp] theorem endTask_mem (s : State) (task code detail : Nat) : (endTask s task code detail).mem = s.mem := rfl
@[simp] theorem raiseFaults_mem (s : State) (p : Nat) : (raiseFaults s p).mem = s.mem := by simp [raiseFaults]
@[simp] theorem retireCore_mem (s : State) (c : Nat) : (retireCore s c).mem = s.mem := by
  unfold retireCore
  simp only []
  split
  · simp
  · split <;> simp

@[simp] theorem addScore_mem (s : State) (c : Nat) : (addScore s c).mem = s.mem := by simp [addScore]

/-! ### Traps and failures -/

@[simp] theorem recordOf_mem (s : State) (t : Thread) (st : Stream) (cause : Byte) (tpc taddr : Word) (cmd : Option Cmd) (dfcause : Byte) (dfaddr : Word) :
    (recordOf s t st cause tpc taddr cmd dfcause dfaddr).mem = s.mem :=
  rfl

@[simp] theorem enterTrap_mem (s : State) (st : Stream) (cause : Byte) (tpc taddr : Word) (cmd : Option Cmd) :
    (enterTrap s st cause tpc taddr cmd).mem = s.mem := by
  simp [enterTrap]

@[simp] theorem trapReturn_mem (s : State) : (trapReturn s).mem = s.mem := rfl
@[simp] theorem trapTo_mem (s : State) (st : Stream) (cause : Byte) (tpc taddr : Word) (cmd : Option Cmd) :
    (trapTo s st cause tpc taddr cmd).mem = s.mem := by
  unfold trapTo; (repeat' split) <;> simp

@[simp] theorem dropHeldRecords_mem (s : State) (t : Thread) : (dropHeldRecords s t).mem = s.mem := rfl
@[simp] theorem unwind_mem (s : State) (cause : Byte) : (unwind s cause).mem = s.mem := rfl
@[simp] theorem unwindPair_mem (s : State) (cause : Byte) : (unwindPair s cause).mem = s.mem := by simp [unwindPair]
@[simp] theorem localFailure_mem (s : State) (cause : Byte) : (localFailure s cause).mem = s.mem := by fun_cases localFailure <;> simp +zetaDelta
@[simp] theorem failOutside_mem (s : State) (st : Stream) (cause : Byte) (tpc taddr : Word) (cmd : Option Cmd) :
    (failOutside s st cause tpc taddr cmd).mem = s.mem := by
  simp [failOutside]

@[simp] theorem countFailure_mem (s : State) (cause : Byte) (core : Nat) : (countFailure s cause core).mem = s.mem := by simp [countFailure]
@[simp] theorem raiseMigrate_mem (s : State) (tpc taddr : Word) : (raiseMigrate s tpc taddr).mem = s.mem := by
  unfold raiseMigrate
  simp only []
  split
  · split
    · split <;> simp
    · simp
  · split <;> simp

@[simp] theorem raise_mem (s : State) (st : Stream) (cause : Byte) (tpc taddr : Word) (cmd : Option Cmd) :
    (raise s st cause tpc taddr cmd).mem = s.mem := by
  simp [raise]

@[simp] theorem raiseHere_mem (s : State) (cause : Byte) (taddr : Word) : (raiseHere s cause taddr).mem = s.mem := by simp [raiseHere]
@[simp] theorem raiseDue_mem (s : State) (q : TrapInfo) (waits : Bool) (gone : Thread → Thread) : (raiseDue s q waits gone).mem = s.mem := by
  simp [raiseDue]

@[simp] theorem unwindIfDue_mem (s : State) : (unwindIfDue s).mem = s.mem := by unfold unwindIfDue; (repeat' split) <;> simp
@[simp] theorem openPair_mem (s : State) (a e : Mark) : (openPair s a e).mem = s.mem := by simp [openPair]

/-! ### Translation, watches and shadows -/

@[simp] theorem installTlb_mem (s : State) (c : Nat) (e : TlbEntry) : (installTlb s c e).mem = s.mem := rfl
@[simp] theorem translateUnit_mem (s : State) (k : Kind) (ea : Word) (size : Nat) : (translateUnit s k ea size).2.mem = s.mem := by
  fun_cases translateUnit <;> simp +zetaDelta

@[simp] theorem notify_mem (s : State) (ds : List Nat) : (notify s ds).mem = s.mem := rfl
@[simp] theorem dropNotices_mem (s : State) (w : Watcher) : (dropNotices s w).mem = s.mem := rfl
@[simp] theorem markWrite_mem (s : State) (p pa n : Nat) : (markWrite s p pa n).mem = s.mem := rfl
@[simp] theorem cover_mem (s : State) (p : Nat) (f : LooseWrite → Bool) : (cover s p f).mem = s.mem := rfl
@[simp] theorem noteLoose_mem (s : State) (p : Nat) (at_ : List Nat) (owner : Option Nat) : (noteLoose s p at_ owner).mem = s.mem := rfl
@[simp] theorem decidePage_mem (s : State) (t : Thread) (page : Nat) : (decidePage s t page).mem = s.mem := by unfold decidePage; split <;> simp
@[simp] theorem intoShadow_mem (s : State) (t : Thread) (pa : Nat) (bs : List Byte) (sig : Word) (pz : Bool) (va : Option Nat) :
    (intoShadow s t pa bs sig pz va).mem = s.mem :=
  rfl

@[simp] theorem lineIntoShadow_mem (s : State) (t : Thread) (l : WingsLine) : (lineIntoShadow s t l).mem = s.mem := rfl
@[simp] theorem carryPoison_mem (s : State) (pa : Nat) (pz : Bool) : (carryPoison s pa pz).mem = s.mem := by simp [carryPoison]

/-! ### Requests that a thread holds -/

@[simp] theorem appendRecord_mem (s : State) (id : Nat) : (appendRecord s id).mem = s.mem := by unfold appendRecord; split <;> simp
@[simp] theorem applyMbput_mem (s : State) (task : Nat) (team : Nat) (k : Nat) (v : Word) : (applyMbput s task team k v).mem = s.mem := by
  unfold applyMbput; split <;> simp

@[simp] theorem logPaired_mem (s : State) (t : Thread) (e : LogEntry) : (logPaired s t e).mem = s.mem := by unfold logPaired; split <;> simp
@[simp] theorem performPut_mem (s : State) (t : Thread) (q : HeldReq) : (performPut s t q).mem = s.mem := by cases q <;> simp [performPut]
@[simp] theorem releaseLate_mem (s : State) (tid n : Nat) : (releaseLate s tid n).mem = s.mem := by
  fun_induction releaseLate <;> simp_all +zetaDelta

@[simp] theorem releaseHeld_mem (s : State) (tid : Nat) : (releaseHeld s tid).mem = s.mem := by
  unfold releaseHeld
  split
  · rfl
  · simp only [releaseLate_mem, modTid_mem]
    split
    · exact foldl_mem (fun s q => by cases q <;> simp) _ _
    · rfl

@[simp] theorem holdLine_mem (s : State) (t : Thread) (l : WingsLine) : (holdLine s t l).mem = s.mem := by fun_cases holdLine <;> simp +zetaDelta

/-! ### Access units, agreement, faults at issue -/

@[simp] theorem faultAt_mem (s : State) (cause : Byte) (ea : Word) (k : Kind) : (faultAt s cause ea k).mem = s.mem := by simp [faultAt]
@[simp] theorem missAt_mem (s : State) (ea : Word) (k : Kind) : (missAt s ea k).mem = s.mem := by simp [missAt, whenRequest]
@[simp] theorem countAccess_mem (s : State) (pa : Nat) : (countAccess s pa).mem = s.mem := rfl
@[simp] theorem clearWait_mem (s : State) : (clearWait s).mem = s.mem := rfl
@[simp] theorem comparisonFails_mem (s : State) (position : Nat) : (comparisonFails s position).mem = s.mem := by
  unfold comparisonFails
  have recorded (l : List Thread) : (l.foldl (fun s w => recordOf s w .execute 0x0B w.ex.pc 0 none 0 0) s).mem = s.mem :=
    foldl_mem (f := fun s w => recordOf s w .execute 0x0B w.ex.pc 0 none 0 0) (fun _ _ => rfl) l s
  simp only []
  split
  · simp
  · split
    · exact recorded _
    · rw [foldl_mem, recorded]; simp

@[simp] theorem understudyEnds_mem (s : State) : (understudyEnds s).mem = s.mem := rfl
@[simp] theorem settleLate_mem (s : State) : (settleLate s).mem = s.mem := by fun_cases settleLate <;> simp +zetaDelta
@[simp] theorem refreshMailboxes_mem (s : State) (t : Thread) (ordinal : Nat) : (refreshMailboxes s t ordinal).mem = s.mem := by
  unfold refreshMailboxes; split <;> simp

@[simp] theorem branch_mem (s : State) (taken : Bool) (o : BitVec 16) : (branch s taken o).mem = s.mem := by simp [branch]
@[simp] theorem branchQueue_mem (s : State) (o : BitVec 16) (want : Bool) : (branchQueue s o want).mem = s.mem := by
  unfold branchQueue; split <;> simp

@[simp] theorem illegal_mem (s : State) (i : Instr) : (illegal s i).mem = s.mem := by simp [illegal]
@[simp] theorem formatFault_mem (s : State) (i : Instr) : (formatFault s i).mem = s.mem := by simp [formatFault]
@[simp] theorem privileged_mem (s : State) (i : Instr) : (privileged s i).mem = s.mem := by simp [privileged]
@[simp] theorem migrate_mem (s : State) (i : Instr) : (migrate s i).mem = s.mem := by simp [migrate]
@[simp] theorem noteFetch_mem (s : State) : (noteFetch s).mem = s.mem := by simp [noteFetch]
@[simp] theorem writeSpad_mem (s : State) (tid off : Nat) (bs : List Byte) (pz : Bool) : (writeSpad s tid off bs pz).mem = s.mem := rfl
@[simp] theorem lineUp_mem (s : State) : (lineUp s).mem = s.mem := rfl

/-! ### Recovery points -/

@[simp] theorem journal_mem (s : State) (p : Nat) (type : Byte) (arg : Word) : (journal s p type arg).mem = s.mem := rfl
@[simp] theorem releaseEntry_mem (s : State) (c : Scope) : (releaseEntry s c).mem = s.mem := by simp [releaseEntry]
@[simp] theorem shootGranules_mem (s : State) (d : Domain) (g : List Nat) : (shootGranules s d g).mem = s.mem := rfl
@[simp] theorem beginCommit_mem (s : State) (p : Nat) (seq : Word) : (beginCommit s p seq).mem = s.mem := by fun_cases beginCommit <;> simp +zetaDelta

/-! ### Transfers and atomics -/

@[simp] theorem latePoison_mem (s : State) (pc ea : Word) (marks : Nat) : (latePoison s pc ea marks).mem = s.mem := by
  fun_cases latePoison <;> simp +zetaDelta

@[simp] theorem performLoad_mem (s : State) (q : LoadReq) : (performLoad s q).mem = s.mem := by simp [performLoad]
@[simp] theorem waitBank_mem (s : State) (x : Xfer) : (waitBank s x).mem = s.mem := by simp [waitBank]
@[simp] theorem chooseUnits_mem (s : State) (x : Xfer) : (chooseUnits s x).2.mem = s.mem := by
  unfold chooseUnits
  simp only []
  (repeat' split) <;> simp

@[simp] theorem chooseXfer_mem (s : State) (live : List Nat) : (chooseXfer s live).2.mem = s.mem := by
  unfold chooseXfer
  simp only []
  (repeat' split) <;> simp

@[simp] theorem dropShadowBytes_mem (s : State) (t : Thread) (pa n : Nat) : (dropShadowBytes s t pa n).mem = s.mem := rfl
@[simp] theorem issueAtomic_mem (s : State) (q : LoadReq) (m : AtomReq) : (issueAtomic s q m).mem = s.mem := by
  fun_cases issueAtomic <;> simp +zetaDelta

/-! ### Requests of a thread -/

@[simp] theorem giveTwin_mem (s : State) (v : Word) : (giveTwin s v).mem = s.mem := by unfold giveTwin; split <;> simp
@[simp] theorem sharePair_mem (s : State) (q : LoadReq) (m : AtomReq) (v : Word) : (sharePair s q m v).mem = s.mem := by simp [sharePair]
@[simp] theorem enqueueRecord_mem (s : State) (eng : Nat) (w : List Word) (region : Bool) : (enqueueRecord s eng w region).2.mem = s.mem := by
  fun_cases enqueueRecord <;> simp +zetaDelta

@[simp] theorem finishPush_mem (d : Reg) (region : Bool) (v : Word) (s : State) : (finishPush d region v s).mem = s.mem := by simp [finishPush]
@[simp] theorem unarm_mem (s : State) (tid : Nat) : (unarm s tid).mem = s.mem := rfl
@[simp] theorem arm_mem (s : State) (t : Thread) (pa : Nat) (v : Word) : (arm s t pa v).mem = s.mem := rfl
@[simp] theorem finishSwait_mem (d : Reg) (v : Word) (s : State) : (finishSwait d v s).mem = s.mem := by simp [finishSwait]
@[simp] theorem showRequest_mem (s : State) (req : List Nat) : (showRequest s req).mem = s.mem := by fun_cases showRequest <;> simp +zetaDelta
@[simp] theorem pollThread_mem (s : State) (tid : Nat) : (pollThread s tid).mem = s.mem := by unfold pollThread; (repeat' split) <;> simp
@[simp] theorem deliverUli_mem (s : State) (tid : Nat) : (deliverUli s tid).mem = s.mem := rfl
@[simp] theorem modEnsemble_mem (s : State) (slot : Nat) (f : Ensemble → Ensemble) : (modEnsemble s slot f).mem = s.mem := rfl
@[simp] theorem leaveEnsemble_mem (s : State) (slot : Nat) (m : Nat × Nat × Nat) : (leaveEnsemble s slot m).mem = s.mem := rfl
@[simp] theorem createEnsemble_mem (s : State) (t : Thread) : (createEnsemble s t).2.mem = s.mem := by
  unfold createEnsemble
  simp only []
  (repeat' split) <;> simp

@[simp] theorem joinEnsemble_mem (s : State) (t : Thread) (h : Word) : (joinEnsemble s t h).2.mem = s.mem := by
  unfold joinEnsemble; (repeat' split) <;> simp

@[simp] theorem quitEnsemble_mem (s : State) (t : Thread) (h : Word) : (quitEnsemble s t h).2.mem = s.mem := by
  unfold quitEnsemble; (repeat' split) <;> simp

@[simp] theorem arrive_mem (s : State) (t : Thread) (h : Word) : (arrive s t h).2.mem = s.mem := by unfold arrive; (repeat' split) <;> simp
@[simp] theorem finishEbar_mem (d : Reg) (h : Word) (v : Word) (s : State) : (finishEbar d h v s).mem = s.mem := by simp [finishEbar]

/-! ### Regions -/

@[simp] theorem haltTeam_mem (s : State) (t : Thread) : (haltTeam s t).mem = s.mem := rfl
@[simp] theorem closeRegion_mem (s : State) : (closeRegion s).mem = s.mem := rfl
@[simp] theorem beginDrain_mem (s : State) : (beginDrain s).mem = s.mem := by simp [beginDrain]
@[simp] theorem endDrain_mem (s : State) : (endDrain s).mem = s.mem := by simp [endDrain]
@[simp] theorem requestCommit_mem (s : State) (seq : Word) : (requestCommit s seq).2.mem = s.mem := by fun_cases requestCommit <;> simp +zetaDelta
@[simp] theorem noteLocate_mem (s : State) (n : Bool) (ea : Word) : (noteLocate s n ea).mem = s.mem := by unfold noteLocate; (repeat' split) <;> simp

/-! ### Engines -/

@[simp] theorem ranVector_mem (s : State) : (ranVector s).mem = s.mem := rfl
@[simp] theorem ranMatrix_mem (s : State) : (ranMatrix s).mem = s.mem := rfl
@[simp] theorem storeTile_mem (s : State) (e : Extent) (f : Wide) (x : Shape) (vals : List Nat) : (storeTile s e f x vals).mem = s.mem := rfl
@[simp] theorem commandFault_mem (s : State) (c : Cmd) (cause : Byte) (taddr : Word) (drop : Thread → Thread) :
    (commandFault s c cause taddr drop).mem = s.mem := by
  simp [commandFault]

/-! ### Pages, frames and granules -/

@[simp] theorem rereadWaits_mem (s : State) (p va len : Nat) : (rereadWaits s p va len).mem = s.mem := by simp [rereadWaits]
@[simp] theorem shootDown_mem (s : State) (p va len : Nat) : (shootDown s p va len).mem = s.mem := by simp [shootDown]
@[simp] theorem copyFrame_mem (s : State) (pa : Nat) : (copyFrame s pa).mem = s.mem := rfl
@[simp] theorem copyGranule_mem (s : State) : (copyGranule s).mem = s.mem := by unfold copyGranule; split <;> simp

/-! ### Connections -/

@[simp] theorem sendNak_mem (s : State) (port chan : Nat) (node : Word) (apsn : Word32) (reason retry : Nat) :
    (sendNak s port chan node apsn reason retry).mem = s.mem :=
  rfl

@[simp] theorem transmit_mem (s : State) (id i : Nat) : (transmit s id i).mem = s.mem := by unfold transmit; split <;> simp
@[simp] theorem sendData_mem (s : State) (id : Nat) (payload : Payload) : (sendData s id payload).mem = s.mem := by unfold sendData; split <;> simp
@[simp] theorem replyTo_mem (s : State) (conn : Nat) (payload : List Byte) : (replyTo s conn payload).mem = s.mem := by
  unfold replyTo; (repeat' split) <;> simp

@[simp] theorem startConn_mem (s : State) (port : Nat) (node : Word) (chan : Nat) (isOpen : Bool) (win : Nat) :
    (startConn s port node chan isOpen win).mem = s.mem := by
  unfold startConn; split <;> simp

@[simp] theorem openTo_mem (s : State) (port : Nat) (node : Word) (chan : Nat) : (openTo s port node chan).mem = s.mem := by simp [openTo]
@[simp] theorem sendPeer_mem (s : State) (port : Nat) (node : Word) (chan : Nat) (x : PeerMsg) : (sendPeer s port node chan x).mem = s.mem := by
  fun_cases sendPeer <;> simp +zetaDelta

@[simp] theorem resultTo_mem (s : State) (r : HRec) (st : Status) (data : List Byte) : (resultTo s r st data).mem = s.mem := by simp [resultTo]
@[simp] theorem dropFrame_mem (s : State) : (dropFrame s).mem = s.mem := rfl
@[simp] theorem sendAck_mem (s : State) (c : Conn) : (sendAck s c).mem = s.mem := rfl

/-! ### Threads, teams and tasks that end -/

@[simp] theorem dropThreads_mem (s : State) (f : Thread → Bool) : (dropThreads s f).mem = s.mem := rfl
@[simp] theorem leaveAll_mem (s : State) (m : Nat × Nat × Nat) : (leaveAll s m).mem = s.mem := by simp [leaveAll]
@[simp] theorem cancelRecords_mem (s : State) (task : Nat) : (cancelRecords s task).mem = s.mem := rfl
@[simp] theorem discardRecords_mem (s : State) (task : Nat) : (discardRecords s task).mem = s.mem := rfl
@[simp] theorem roomChanged_mem (s : State) (p : Nat) : (roomChanged s p).mem = s.mem := by simp [roomChanged]
@[simp] theorem raiseProtocol_mem (s : State) : (raiseProtocol s).mem = s.mem := by simp [raiseProtocol]
@[simp] theorem finishThread_mem (s : State) : (finishThread s).mem = s.mem := by simp [finishThread]
@[simp] theorem closeTeam_mem (s : State) (u : Team) : (closeTeam s u).mem = s.mem := by simp [closeTeam]
@[simp] theorem recordEnd_mem (s : State) (u : Team) : (recordEnd s u).mem = s.mem := by unfold recordEnd; split <;> simp
@[simp] theorem renumber_mem (s : State) (u : Team) (rep : Nat) : (renumber s u rep).mem = s.mem := rfl
@[simp] theorem removeTeam_mem (s : State) (u : Team) : (removeTeam s u).mem = s.mem := rfl
@[simp] theorem unseat_mem (s : State) (u : Team) : (unseat s u).mem = s.mem := rfl
@[simp] theorem rebuild_mem (s : State) (primary winner loser under : Team) (pos : Nat) (blame : Bool) :
    (rebuild s primary winner loser under pos blame).mem = s.mem := by
  unfold rebuild
  simp only []
  (repeat' split) <;> simp

/-! ### Errors and tests -/

@[simp] theorem countCorrected_mem (s : State) : (countCorrected s).mem = s.mem := rfl
@[simp] theorem outputMismatch_mem (s : State) (st : Stream) : (outputMismatch s st).mem = s.mem := by simp [outputMismatch]
@[simp] theorem inFieldTest_mem (s : State) : (inFieldTest s).mem = s.mem := by fun_cases inFieldTest <;> simp +zetaDelta

/-! ### The scheduler -/

@[simp] theorem enterRun_mem (s : State) : (enterRun s).mem = s.mem := by simp [enterRun]
@[simp] theorem dispatchTeam_mem (s : State) (k : Task) (ix rep : Nat) (pl : Place) (mb : Vector Word 8) :
    (dispatchTeam s k ix rep pl mb).mem = s.mem := by
  simp [dispatchTeam]

@[simp] theorem dispatchTeams_mem (s : State) (k : Task) (ps : List (Nat × List Place)) : (dispatchTeams s k ps).mem = s.mem := by
  simp [dispatchTeams]

@[simp] theorem seatTeam_mem (s : State) (u : Team) (pl : Place) : (seatTeam s u pl).mem = s.mem := by
  unfold seatTeam
  simp only []
  split
  · simp
  · exact (foldl_mem (fun s t => by split <;> simp) _ _).trans (by simp)

@[simp] theorem raisePreempt_mem (s : State) (p subject : Nat) : (raisePreempt s p subject).mem = s.mem := by simp [raisePreempt]
@[simp] theorem afterNothing_mem (s : State) (p : Nat) (view : List Seen) : (afterNothing s p view).mem = s.mem := by
  unfold afterNothing; split <;> simp

theorem preemptMoot_mem {s t : State} {p raiser : Nat} (h : preemptMoot s p raiser = some t) : t.mem = s.mem := by
  unfold preemptMoot at h
  (repeat' split at h) <;> cases h <;> rfl

@[simp] theorem clearRestart_mem (s : State) (k : Task) : (clearRestart s k).mem = s.mem := by simp [clearRestart]
theorem commitFault_mem {s t : State} {u : Team} {t0 t1 : Option Nat} (h : commitFault s u t0 t1 = some t) : t.mem = s.mem := by
  unfold commitFault at h
  split at h
  · cases h
  · split at h
    · cases h
    · obtain ⟨ps, -, rfl⟩ := Option.map_eq_some_iff.mp h
      split
      · simp
      · simp
      · split
        · simp
        · exact foldl_mem (fun s x => by split <;> simp) _ _

theorem commitMove_mem {s t : State} {p id chip : Nat} (h : commitMove s p id chip = some t) : t.mem = s.mem := by
  unfold commitMove at h
  split at h
  · cases h
  · split at h
    · cases h
    · split at h
      · obtain ⟨cs, -, rfl⟩ := Option.map_eq_some_iff.mp h
        simp
      · cases h

@[simp] theorem pinnedWaits_mem (s : State) (u : Team) : (pinnedWaits s u).mem = s.mem := by unfold pinnedWaits; split <;> simp
@[simp] theorem builtinFault_mem (s : State) (u : Team) : (builtinFault s u).mem = s.mem := by
  unfold builtinFault
  split
  · next h => exact commitFault_mem h
  · simp

@[simp] theorem countRefuse_mem (s : State) (p : Nat) : (countRefuse s p).mem = s.mem := rfl
@[simp] theorem modRun_mem (s : State) (f : CueRun → CueRun) : (modRun s f).mem = s.mem := rfl
@[simp] theorem cueNextSlot_mem (s : State) : (cueNextSlot s).mem = s.mem := rfl
@[simp] theorem writeC_mem (s : State) (d : CReg) (v : Word32) : (writeC s d v).mem = s.mem := rfl
@[simp] theorem dropPending_mem (s : State) (p : Nat) (d : Pending) : (dropPending s p d).mem = s.mem := rfl
@[simp] theorem cutTeam_mem (s : State) (u : Team) : (cutTeam s u).mem = s.mem := by simp [cutTeam]
theorem seatStaged_mem {s t : State} {u : Team} (h : seatStaged s u = some t) : t.mem = s.mem := by
  obtain ⟨x, -, rfl⟩ := Option.map_eq_some_iff.mp h
  simp

@[simp] theorem freezeStaged_mem (s : State) (u : Team) : (freezeStaged s u).mem = s.mem := by unfold freezeStaged; split <;> simp
@[simp] theorem seatWaiting_mem (s : State) (id : Nat) : (seatWaiting s id).mem = s.mem := by
  unfold seatWaiting
  refine foldl_mem (fun s u => ?_) _ _
  simp only []
  split
  · exact (getD_mem fun _ h => seatStaged_mem h).trans (by simp)
  · simp

@[simp] theorem afterCut_mem (s : State) (u : Team) : (afterCut s u).mem = s.mem := by unfold afterCut; (repeat' split) <;> simp
@[simp] theorem serveTeam_mem (s : State) (team : Nat) : (serveTeam s team).mem = s.mem := by
  unfold serveTeam
  split
  · rfl
  · split
    · rfl
    · split
      · exact getD_mem fun _ h => seatStaged_mem h
      · (repeat' split) <;> simp

@[simp] theorem teamArrives_mem (s : State) (u : Team) : (teamArrives s u).mem = s.mem := by
  unfold teamArrives
  exact foldl_mem (fun s w => by split <;> simp) _ _

@[simp] theorem keepTrapImage_mem (s : State) (k : Task) (ix : Nat) : (keepTrapImage s k ix).mem = s.mem := by
  fun_cases keepTrapImage <;> simp +zetaDelta

/-! ### Records and collectives -/

@[simp] theorem endRecord_mem (s : State) (id code detail bytes faddr : Nat) : (endRecord s id code detail bytes faddr).mem = s.mem := rfl
@[simp] theorem noteServed_mem (s : State) (e p : Nat) : (noteServed s e p).mem = s.mem := rfl
@[simp] theorem sendAborts_mem (s : State) (nodes : List Word) (ports : List Nat) (rank : Nat) (a : CollAbort) :
    (sendAborts s nodes ports rank a).mem = s.mem := by
  simp [sendAborts]

@[simp] theorem nextRound_mem (s : State) (key : Word × Nat × Word) : (nextRound s key).mem = s.mem := rfl
@[simp] theorem sendMember_mem (s : State) (x : CollState) (rank : Nat) (m : PeerMsg) : (sendMember s x rank m).mem = s.mem := by simp [sendMember]
@[simp] theorem refuseColl_mem (s : State) (r : EngRec) (t : GroupTable) (code addr : Nat) : (refuseColl s r t code addr).mem = s.mem := by
  simp [refuseColl]

@[simp] theorem heardFrom_mem (s : State) (node epoch : Word) : (heardFrom s node epoch).mem = s.mem := rfl
@[simp] theorem takeAbort_mem (s : State) (a : CollAbort) : (takeAbort s a).mem = s.mem := by simp [takeAbort]

/-! ### Records of the host -/

@[simp] theorem rejectRec_mem (s : State) (conn : Nat) (raw : List Byte) (off : Nat) : (rejectRec s conn raw off).mem = s.mem := by simp [rejectRec]
@[simp] theorem takeRecord_mem (s : State) (conn : Nat) (raw data : List Byte) : (takeRecord s conn raw data).mem = s.mem := by
  unfold takeRecord; split <;> simp

@[simp] theorem takeRecords_mem (s : State) (conn n : Nat) (bs : List Byte) : (takeRecords s conn n bs).mem = s.mem := by
  fun_induction takeRecords <;> simp_all +zetaDelta

@[simp] theorem takeData_mem (s : State) (c : Conn) (bs : List Byte) : (takeData s c bs).mem = s.mem := by unfold takeData; split <;> simp
@[simp] theorem deliver_mem (s : State) (c : Conn) (m : Clovo) : (deliver s c m).mem = s.mem := by fun_cases deliver <;> simp +zetaDelta
@[simp] theorem compareFeed_mem (s : State) (m : Clovo) : (compareFeed s m).mem = s.mem := by simp [compareFeed]
@[simp] theorem cancelNote_mem (s : State) (conn : Nat) (raw : List Byte) : (cancelNote s conn raw).mem = s.mem := by simp [cancelNote]

/-! ### Partitions, images and debugging -/

@[simp] theorem wipePart_mem (s : State) (p : Nat) : (wipePart s p).mem = s.mem := rfl
@[simp] theorem installRecords_mem (s : State) (k : Task) (u : Team) (bs : List Byte) (status : EngStatus) :
    (installRecords s k u bs status).mem = s.mem := by
  simp [installRecords]

@[simp] theorem freezeTeams_mem (s : State) (p : Nat) : (freezeTeams s p).mem = s.mem := by
  unfold freezeTeams
  exact (foldl_mem (fun s u => by split <;> simp) _ _).trans (by simp)

@[simp] theorem importEnsemble_mem (s : State) (p : Nat) (bs : List Byte) (o : Nat) : (importEnsemble s p bs o).mem = s.mem := rfl
@[simp] theorem recountEnded_mem (s : State) (k : Task) (ix : Nat) : (recountEnded s k ix).mem = s.mem := rfl
@[simp] theorem importTeam_mem (s : State) (k : Task) (bs : List Byte) : (importTeam s k bs).mem = s.mem := by simp [importTeam]
@[simp] theorem imageInTeam_mem (s : State) (p : Nat) (bs : List Byte) : (imageInTeam s p bs).2.mem = s.mem := by
  unfold imageInTeam; (repeat' split) <;> simp

@[simp] theorem passBrk_mem (s : State) (t : Thread) : (passBrk s t).mem = s.mem := by unfold passBrk; split <;> simp
@[simp] theorem releaseTeam_mem (s : State) (u : Team) : (releaseTeam s u).mem = s.mem := by simp [releaseTeam]
@[simp] theorem stopStep_mem (s : State) (ts : List Thread) : (stopStep s ts).mem = s.mem := by simp [stopStep]
@[simp] theorem writeTeam_mem (s : State) (k : Task) (u : Team) (bs : List Byte) : (writeTeam s k u bs).mem = s.mem := by simp [writeTeam]

/-! ### Replicas -/

@[simp] theorem replicate_mem (s : State) (p : Nat) (d : Domain) (c : Commit) : (replicate s p d c).mem = s.mem := by unfold replicate; split <;> simp
@[simp] theorem failCommit_mem (s : State) (p : Nat) (d : Domain) (c : Commit) : (failCommit s p d c).mem = s.mem := rfl
@[simp] theorem keepReplica_mem (s : State) (node : Word) (m : Replica) : (keepReplica s node m).mem = s.mem := rfl
@[simp] theorem answerPeer_mem (s : State) (m : Clovo) (x : PeerMsg) : (answerPeer s m x).mem = s.mem := by simp [answerPeer]
@[simp] theorem takeAnswer_mem (s : State) (node : Word) (x : PartnerReply) : (takeAnswer s node x).mem = s.mem := by simp [takeAnswer]

/-! ### Starts and the tick -/

@[simp] theorem sealStep_mem (s : State) : (sealStep s).mem = s.mem := by fun_cases sealStep <;> simp +zetaDelta
@[simp] theorem sealWhole_mem (s : State) : (sealWhole s).mem = s.mem := by simp [sealWhole]
@[simp] theorem loadSealed_mem (s : State) : (loadSealed s).mem = s.mem := by simp [loadSealed]
@[simp] theorem applyConfig_mem (s : State) : (applyConfig s).mem = s.mem := by simp [applyConfig]
@[simp] theorem startTests_mem (s : State) (every : Bool) (failed : List Nat) : (startTests s every failed).mem = s.mem := by simp [startTests]
@[simp] theorem openModule_mem (s : State) : (openModule s).mem = s.mem := by simp [openModule]
@[simp] theorem startPoint_mem (s : State) (p : Nat) : (startPoint s p).mem = s.mem := by
  unfold startPoint
  simp only []
  split
  · rfl
  · simp only [journal_mem, modPart_mem]
    (repeat' split) <;> simp

@[simp] theorem thermalReplies_mem (s : State) : (thermalReplies s).mem = s.mem := by simp [thermalReplies]
@[simp] theorem noteUse_mem (s : State) (n : Nat) : (noteUse s n).mem = s.mem := rfl
@[simp] theorem noteIdle_mem (s : State) : (noteIdle s).mem = s.mem := rfl
@[simp] theorem tick_mem (s : State) : (tick s).mem = s.mem := by
  unfold tick
  split
  · rfl
  · simp only [mapThreads_mem]
    split <;> simp

/-- What `k` does keeps memory in its canonical form. -/
def KeepsWf (k : State → State) : Prop := ∀ s, Memory.wf s.mem = true → Memory.wf (k s).mem = true

@[simp] theorem wf_ite (c : Prop) [Decidable c] (a b : Cells) : Memory.wf (if c then a else b) = if c then Memory.wf a else Memory.wf b :=
  apply_ite ..

theorem foldl_wf {α : Type} {f : State → α → State} (h : ∀ s a, Memory.wf s.mem = true → Memory.wf (f s a).mem = true) (l : List α)
    {s : State} (w : Memory.wf s.mem = true) : Memory.wf (l.foldl f s).mem = true :=
  List.foldlRecOn (motive := fun s : State => Memory.wf s.mem = true) l f w fun s w a _ => h s a w

theorem ite_wf {c : Prop} [Decidable c] {a b : State} (ha : Memory.wf a.mem = true) (hb : Memory.wf b.mem = true) :
    Memory.wf (if c then a else b).mem = true := by
  split
  · exact ha
  · exact hb

section
variable {s : State} (w : Memory.wf s.mem = true)
include w

theorem writeCells_wf (p : Nat) (cells : List (Nat × Byte)) (owner : Option Nat) : Memory.wf (writeCells s p cells owner).mem = true := by
  unfold writeCells
  split
  · exact w
  · exact wf_foldl_setCell (fun c : Nat × Byte => c.1) (fun c => c.2) _ (by simpa using w)

theorem drainLine_wf (t : Thread) (l : WingsLine) : Memory.wf (drainLine s t l).mem = true := by
  have writes (x : State) (h : x.mem = s.mem) : Memory.wf (writeCells x t.part l.cells (some t.tid)).mem = true :=
    writeCells_wf (by rwa [h]) ..
  fun_cases drainLine <;> simp +zetaDelta [w, writes]

theorem drainLines_wf (tid : Nat) (held : Bool) : Memory.wf (drainLines s tid held).mem = true := by
  unfold drainLines
  split
  · exact w
  · exact foldl_wf (fun x l w => drainLine_wf w _ l) _ w

theorem promote_wf : Memory.wf (promote s).mem = true := by
  simp only [promote, releaseHeld_mem]
  exact drainLines_wf (by split <;> simpa using w) ..

theorem promoteIfRegion_wf : Memory.wf (promoteIfRegion s).mem = true := by
  unfold promoteIfRegion
  split
  · exact promote_wf w
  · exact w

theorem whenPromoted_wf {k : State → State} (hk : KeepsWf k) : Memory.wf (whenPromoted s k).mem = true := by
  unfold whenPromoted
  split
  · exact w
  · exact hk _ (promoteIfRegion_wf w)

theorem storeUnit_wf (ea : Word) (pa : Nat) (bs : List Byte) (region pz : Bool) (first : Option Nat) (marks : Nat) :
    ∀ t, storeUnit s ea pa bs region pz first marks = some t → Memory.wf t.mem = true := by
  fun_cases storeUnit <;> simp +zetaDelta [w, promote_wf w, writePhys_mem, wf_setCells]

theorem passAgreement_wf (t : Thread) : Memory.wf (passAgreement s t).mem = true := by
  simp [passAgreement, w, drainLines_wf w]

theorem leavePoint_wf (t : Thread) : Memory.wf (leavePoint s t).mem = true := by
  simp [leavePoint, passAgreement_wf w]

theorem drainRegion_wf (tid : Nat) : Memory.wf (drainRegion s tid).mem = true := by
  simp [drainRegion, drainLines_wf w]

/-! ### Prompt sections and recovery points -/

theorem writeCommitix_wf (p : Nat) (d : Domain) (sec n : Nat) : Memory.wf (writeCommitix s p d sec n).mem = true :=
  wf_setCells w _ _

theorem openPoint_wf (p : Nat) : Memory.wf (openPoint s p).2.mem = true := by
  unfold openPoint
  simp only []
  split
  · exact w
  · split <;> simp [w, writeSection_wf]

/-! ### Combinators -/

theorem withRegs_wf (rs : List Reg) {k : State → State} (hk : KeepsWf k) : Memory.wf (withRegs s rs k).mem = true := by
  unfold withRegs
  split
  · exact w
  · exact hk s w

theorem unlessHeld_wf {k : State → State} (hk : KeepsWf k) : Memory.wf (unlessHeld s k).mem = true := by
  unfold unlessHeld
  split
  · exact w
  · exact hk s w

theorem whenRequest_wf {k : State → State} (hk : KeepsWf k) : Memory.wf (whenRequest s k).mem = true := by
  unfold whenRequest
  split
  · exact w
  · exact hk s w

theorem whenSpill_wf {k : State → State} (hk : KeepsWf k) : Memory.wf (whenSpill s k).mem = true := by
  unfold whenSpill
  split
  · exact unlessHeld_wf w hk
  · split
    · exact hk s w
    · exact w

theorem withAddress_wf (kd : Kind) (ea : Word) (size : Nat) {k : Nat → Option Nat → State}
    (hk : ∀ pa pte, Memory.wf (k pa pte).mem = true) : Memory.wf (withAddress s kd ea size k).mem = true := by
  unfold withAddress
  split
  · exact hk _ _
  · simpa using w
  · simpa using w

theorem onThread_wf (tid : Nat) {k : State → State} (hk : KeepsWf k) : Memory.wf (onThread s tid k).mem = true := by
  unfold onThread
  split
  · next x h =>
    split
    · exact hk x (by rwa [focus_mem h])
    · exact w
  · exact w

theorem issueMark_wf (kind : MarkKind) (handler : Word) {k : State → State} (hk : KeepsWf k) :
    Memory.wf (issueMark s kind handler k).mem = true := by
  have kept (x : State) (h : x.mem = s.mem) : Memory.wf (k x).mem = true := hk x (by rwa [h])
  fun_cases issueMark <;> simp +zetaDelta [w]
  all_goals split <;> exact kept _ (by simp)

theorem paired_wf (req : List Nat) {perform : State → Word × State} {finish : Word → State → State}
    (hp : KeepsWf fun s => (perform s).2) (hf : ∀ v, KeepsWf (finish v)) : Memory.wf (paired s req perform finish).mem = true := by
  have performed {x : State} {r : Word × State} (hr : perform x = r) (hx : x.mem = s.mem) : Memory.wf r.2.mem = true := by
    rw [← hr]; exact hp x (by rwa [hx])
  fun_cases paired <;> simp +zetaDelta [w]
  case case1 => exact hf _ _ (hp s w)
  case case4 => exact hf _ _ w
  case case7 => exact hf _ _ w
  case case10 =>
    rename_i hr _ _
    exact hf _ _ (by simpa using performed hr rfl)

theorem agreeThen_wf {k : State → State} (hk : KeepsWf k) : Memory.wf (agreeThen s k).mem = true := by
  have point (x : State) (wx : Memory.wf x.mem = true) : Memory.wf (agreeThen.point k x).mem = true := by
    fun_cases agreeThen.point <;> simp [wx, hk _ wx]
  fun_cases agreeThen <;> simp +zetaDelta [w, hk _ w, point]

theorem ensembleRequest_wf (d : Reg) (req : List Nat) {perform : State → Word × State} (hp : KeepsWf fun s => (perform s).2) :
    Memory.wf (ensembleRequest d req perform s).mem = true :=
  whenPromoted_wf w fun _ w => paired_wf w _ hp fun _ _ w => by simpa using w

/-! ### Scalar and control instructions -/

theorem opRR_wf (d a b : Reg) (f : Word → Word → Word) : Memory.wf (opRR d a b f s).mem = true :=
  withRegs_wf w _ fun _ w => by simpa using w

theorem opR_wf (d a : Reg) (f : Word → Word) : Memory.wf (opR d a f s).mem = true :=
  withRegs_wf w _ fun _ w => by simpa using w

theorem branchIf_wf (a b : Reg) (o : BitVec 16) (f : Word → Word → Bool) : Memory.wf (branchIf a b o f s).mem = true :=
  withRegs_wf w _ fun _ w => by simpa using w

theorem branchQueue_wf (o : BitVec 16) (want : Bool) : Memory.wf (branchQueue s o want).mem = true := by simpa using w

/-! ### Loads -/

theorem issueLoad_wf (dst : LoadDst) (b : Reg) (o : BitVec 12) (size : Nat) (sgn : Bool) : Memory.wf (issueLoad s dst b o size sgn).mem = true := by
  refine withAddress_wf w _ _ _ fun pa _ => ?_
  split
  · simpa using w
  · exact whenRequest_wf w fun _ w => w

theorem loadH_wf (d b : Reg) (o : BitVec 12) (size : Nat) (sgn : Bool) : Memory.wf (loadH d b o size sgn s).mem = true :=
  withRegs_wf w _ fun _ w => unlessHeld_wf w fun _ w => issueLoad_wf w _ _ _ _ _

theorem loadQ_wf (q : BitVec 2) (b : Reg) (o : BitVec 12) (size : Nat) (sgn : Bool) : Memory.wf (loadQ q b o size sgn s).mem = true :=
  withRegs_wf w _ fun _ w => unlessHeld_wf w fun _ w => by
    split
    · exact w
    · exact issueLoad_wf w _ _ _ _ _

/-! ### Stores and transfers -/

theorem storeAddress_wf (b : Reg) (o : BitVec 12) (size : Nat) : Memory.wf (storeAddress b o size s).mem = true :=
  withRegs_wf w _ fun _ w => by
    simp only []
    split
    · exact w
    · exact withAddress_wf w _ _ _ fun _ pte => setDirty_wf w pte

theorem performStore_wf (a : SaqEntry) (v : Word) : Memory.wf (performStore s a v).mem = true := by
  unfold performStore
  split
  · exact w
  · next h => simpa using storeUnit_wf w _ _ _ _ _ _ _ _ h

theorem moveUnit_wf (x : Xfer) (u : XferUnit) : ∀ t, moveUnit s x u = some t → Memory.wf t.mem = true := by
  fun_cases moveUnit
  all_goals simp +zetaDelta [w]
  all_goals exact storeUnit_wf (setDirty_wf w u.pte) _ _ _ _ _ _ _

theorem moveSome_wf (x : Xfer) (us : List XferUnit) : Memory.wf (moveSome s x us).mem = true := by
  refine foldl_wf (fun y k w => ?_) _ (by simpa using w)
  split
  · cases h : moveUnit y x _ with
    | none => exact w
    | some t => exact moveUnit_wf w _ _ t h
  · exact w

omit w in
theorem translateUnits_mem (x : Xfer) (us : List (Word × Nat × Nat)) : (translateUnits s x us).2.2.mem = s.mem := by
  induction us generalizing s with
  | nil => rfl
  | cons u us ih =>
    have h := translateUnit_mem s x.kind.kind u.1 u.2.2
    unfold translateUnits
    split
    · next e =>
      rw [e] at h
      simp only []
      split <;> exact (ih ..).trans h
    · next e => rw [e] at h; exact (ih ..).trans h
    · next e => rw [e] at h; exact (ih ..).trans h

theorem startXfer_wf (x : Xfer) : Memory.wf (startXfer s x).mem = true := by
  have h := translateUnits_mem (s := s) x (xferUnits s s.thr x)
  unfold startXfer
  split
  · next t e =>
    have h : t.mem = s.mem := by simpa [e] using h
    simpa [h] using w
  · next us _ _ t e =>
    have h : t.mem = s.mem := by simpa [e] using h
    have w := moveSome_wf (s := t) (by rwa [h]) x us
    simp only []
    split <;> simpa using w

theorem issueXfer_wf (k : XferKind) (d a b : Reg) : Memory.wf (issueXfer k d a b s).mem = true :=
  withRegs_wf w _ fun _ w => unlessHeld_wf w fun _ w => by
    simp only []
    split
    · exact w
    · simpa using w
    · repeat' split
      · exact w
      · simpa using w
      · exact startXfer_wf (s := modThr _ _) w _
      · simpa using w
      · exact startXfer_wf (s := modThr _ _) w _

theorem moveUnits_wf (x : Xfer) (us : List XferUnit) : Memory.wf (moveUnits s x us).2.mem = true := by
  induction us generalizing s with
  | nil => exact w
  | cons u us ih =>
    unfold moveUnits
    (repeat' split)
    · exact w
    · exact w
    · next h => exact ih (moveUnit_wf w _ _ _ h)
    · exact w

/-! ### Atomics and releases -/

theorem performAtomic_wf (pa : Nat) (m : AtomReq) : Memory.wf (performAtomic s pa m).2.mem = true := by
  have dropped (c : Prop) [Decidable c] (t : Thread) (n : Nat) : Memory.wf (if c then dropShadowBytes s t pa n else s).mem = true := by
    simp [w]
  unfold performAtomic
  simp only []
  split
  · exact dropped _ _ _
  · simpa using writePhys_wf (setDirty_wf (dropped _ _ _) _) ..

theorem atomic_wf (op : AtomOp) (d a b : Reg) (c : Scope) (z : Bool) : Memory.wf (atomic op d a b c z s).mem = true :=
  withRegs_wf w _ fun _ w => unlessHeld_wf w fun _ w => withAddress_wf w _ _ _ fun _ _ =>
    ite_wf (by simpa using w) (whenRequest_wf w fun _ w => whenPromoted_wf w fun _ w => by simpa using w)

theorem performAtom_wf (q : LoadReq) (m : AtomReq) : Memory.wf (performAtom s q m).mem = true := by
  unfold performAtom
  simp only []
  split
  · split <;> simpa using w
  · split
    · simpa using w
    · split
      · exact w
      · simpa using performAtomic_wf w q.pa m

theorem release_wf (c : Scope) : Memory.wf (release c s).mem = true := by
  unfold release
  simp only []
  split
  · split <;> simpa using w
  · refine whenPromoted_wf w fun x w => ?_
    split <;> simpa using w

end

/-- The state that an answer carries, of a failure or of a success, has canonical memory. -/
def AnswersWf {α : Type} (st : α → State) : Except (Status × State) α → Prop
  | .error e => Memory.wf e.2.mem = true
  | .ok a => Memory.wf (st a).mem = true

theorem AnswersWf.state {t : State} (w : Memory.wf t.mem = true) : AnswersWf id (.ok t) := w

theorem AnswersWf.ite {α : Type} {st : α → State} {c : Prop} [Decidable c] {a b : Except (Status × State) α} (ha : AnswersWf st a)
    (hb : AnswersWf st b) : AnswersWf st (if c then a else b) := by
  split
  · exact ha
  · exact hb

theorem wf_snd {α : Type} {r : α × State} {a : α} {t : State} (w : Memory.wf r.2.mem = true) (h : r = (a, t)) : Memory.wf t.mem = true := by
  subst h; exact w

section
variable {s : State} (w : Memory.wf s.mem = true)
include w

/-! ### Virtual addresses -/

theorem readVirt_wf (p fuel va len : Nat) : ∀ r, readVirt s p fuel va len = .ok r → Memory.wf r.2.mem = true := by
  induction fuel generalizing s va len with
  | zero => rintro _ ⟨⟩; exact w
  | succ n ih =>
    unfold readVirt
    split
    · rintro _ ⟨⟩; exact w
    · simp only []
      split
      · rintro _ ⟨⟩
      · next h =>
        split
        · rintro _ ⟨⟩
        · next h' =>
          rintro _ ⟨⟩
          exact (ih (reach_wf w h) _ _ _ h' :)

theorem readRange_wf {p va len : Nat} {bs : List Byte} {t : State} (h : readRange s p va len = .ok (bs, t)) : Memory.wf t.mem = true :=
  readVirt_wf w _ _ _ _ _ h

theorem releaseCopy_wf (p : Nat) (k : KImage) : Memory.wf (releaseCopy s p k).mem = true := by
  have cleared (l : List Nat) : Memory.wf (l.foldl (fun s a => setLeaf s p a fun _ => 0) s).mem = true :=
    foldl_wf (fun _ a w => setLeaf_wf w p a _) l w
  unfold releaseCopy
  exact ite_wf w (by simpa using cleared _)

theorem addVirt_wf (p va : Nat) (v : Word) : Memory.wf (addVirt s p va v).mem = true := by
  unfold addVirt
  split
  · next h => exact addDword_wf (reach_wf w h) _ _ _
  · simpa using w

/-! ### Completion of records -/

theorem completionActions_wf (raw : List Byte) (conn : Nat) (st : Status) : Memory.wf (completionActions s raw conn st).mem = true := by
  have written (a : Nat) (bs : List Byte) : Memory.wf (writeRange s (rPart raw) a bs).2.mem = true := writeRange_wf w _ _ _
  unfold completionActions
  simp only []
  have status (c d : Prop) [Decidable c] [Decidable d] (a : Nat) (bs : List Byte) :
      Memory.wf (if c then if d then (writeRange s (rPart raw) a bs).2 else logError (writeRange s (rPart raw) a bs).2 a else s).mem = true :=
    ite_wf (ite_wf (writeRange_wf w _ _ _) (writeRange_wf w _ _ _)) w
  split
  · simp only [replyTo_mem]; exact ite_wf (addVirt_wf (status _ _ _ _) _ _ _) (status _ _ _ _)
  · exact ite_wf (addVirt_wf (status _ _ _ _) _ _ _) (status _ _ _ _)

theorem finishRec_wf (id : Nat) (st : Status) : Memory.wf (finishRec s id st).mem = true := by
  unfold finishRec
  split
  · exact w
  · exact completionActions_wf (by simpa using w) _ _ _

theorem completeEngine_wf (r : EngRec) (code detail bytes faddr : Nat) : Memory.wf (completeEngine s r code detail bytes faddr).mem = true := by
  have uli (c : Prop) [Decidable c] (x : State) (f : Thread → Thread) (wx : Memory.wf x.mem = true) :
      Memory.wf (if c then mapThreads x f else x).mem = true := ite_wf wx wx
  have written (x : State) (a : Nat) (bs : List Byte) (wx : Memory.wf x.mem = true) :
      Memory.wf (if (writeRange x r.part a bs).1 == 32 then (writeRange x r.part a bs).2 else logError (writeRange x r.part a bs).2 a).mem = true :=
    ite_wf (writeRange_wf wx _ _ _) (writeRange_wf wx _ _ _)
  unfold completeEngine
  simp only []
  refine uli _ _ _ (ite_wf (addVirt_wf ?_ _ _ _) ?_)
  · exact ite_wf (written _ _ _ (by simpa using w)) (by simpa using w)
  · exact ite_wf (written _ _ _ (by simpa using w)) (by simpa using w)

theorem debugDone_wf (r : HRec) (st : Status) (data : List Byte) : Memory.wf (debugDone s r st data).mem = true :=
  finishRec_wf (by simpa using w) _ _

theorem refuseUnstated_wf (rec : Nat) : Memory.wf (refuseUnstated s rec).mem = true :=
  finishRec_wf (s := (fresh s).2) w _ _

/-! ### Commits of pages -/

theorem writeFrame_wf (p : Nat) (h : Shadow) : Memory.wf (writeFrame s p h).mem = true := by
  simpa [writeFrame] using writeCells_wf w p h.cells none

theorem remapFrame_wf (p : Nat) (h : Shadow) (va ea e : Nat) : Memory.wf (remapFrame s p h va ea e).2.mem = true := by
  have framed : Memory.wf (writeFrame (takeFrame s).2 p (h.movedTo (takeFrame s).1)).mem = true := writeFrame_wf (by simpa using w) _ _
  simp only [remapFrame, modPart_mem, shootDown_mem]
  exact wf_setCells framed _ _

theorem commitFrame_wf (m : List (Nat × Nat)) (p : Nat) (h : Shadow) : Memory.wf (commitFrame (s, m) p h).1.mem = true := by
  unfold commitFrame
  split
  · exact writeFrame_wf w _ _
  · split
    · exact remapFrame_wf w _ _ _ _ _
    · exact writeFrame_wf w _ _

theorem foldl_fst_wf {α β : Type} {f : State × β → α → State × β} (h : ∀ x a, Memory.wf x.1.mem = true → Memory.wf (f x a).1.mem = true)
    (l : List α) (b : β) : Memory.wf (l.foldl f (s, b)).1.mem = true :=
  List.foldlRecOn (motive := fun x : State × β => Memory.wf x.1.mem = true) l f w fun x wx a _ => h x a wx

theorem commitPages_wf (k : Task) : Memory.wf (commitPages s k).mem = true :=
  foldl_fst_wf w (fun _ _ w => foldl_fst_wf w (fun _ _ w => foldl_fst_wf w (fun _ _ w => commitFrame_wf w _ _ _) _ _) _ _) _ _

/-! ### Task queues and scheduling decisions -/

theorem readDeps_wf (id n : Nat) : Memory.wf (readDeps s id n).mem = true := by
  induction n generalizing s with
  | zero => exact w
  | succ n ih =>
    unfold readDeps
    split
    · exact w
    · split
      · simpa using w
      · split
        · simpa using w
        · next h =>
          have w := reach_wf w h
          split
          · exact ih (by simpa using w)
          · simpa using w

theorem advanceQueue_wf (p q : Nat) : Memory.wf (advanceQueue s p q).mem = true := by
  unfold advanceQueue
  split
  · exact w
  · split
    · exact w
    · exact ite_wf w (readDeps_wf (s := modTask _ _ _) w _ _)

theorem deliverNotice_wf (n : Notice) : ∀ t, deliverNotice s n = some t → Memory.wf t.mem = true := by
  unfold deliverNotice
  split
  · split
    · rintro _ ⟨⟩; exact w
    · split <;> rintro _ ⟨⟩ <;> exact w
  · rintro _ ⟨⟩
    split
    · exact w
    · split
      · exact w
      · split
        · exact ite_wf (readDeps_wf (s := modTask _ _ _) w _ _) w
        · exact w
  · split
    · rintro _ ⟨⟩; exact w
    · split
      · rintro _ ⟨⟩; exact w
      · split
        · rintro _ ⟨⟩
        · rintro _ ⟨⟩; exact finishRec_wf w _ _

theorem commitDispatch_wf (p id : Nat) (t0 t1 : Option Nat) : ∀ r, commitDispatch s p id t0 t1 = some r → Memory.wf r.2.mem = true := by
  fun_cases commitDispatch
  all_goals rintro _ ⟨⟩
  · exact w
  · simpa using advanceQueue_wf (s := dispatchTeams s _ _) (by simpa using w) _ _

theorem builtinDispatch_wf (p : Nat) (view : List Seen) : Memory.wf (builtinDispatch s p view).mem = true := by
  unfold builtinDispatch
  split
  · exact w
  · split
    · next h => exact commitDispatch_wf w _ _ _ _ _ h
    · next h => simpa using commitDispatch_wf w _ _ _ _ _ h
    · simpa using w

theorem stage_wf (p : Nat) (k : Task) (u : Team) : Memory.wf (stage s p k u).mem = true := by
  unfold stage
  split
  · exact w
  · exact ite_wf w (ite_wf w (advanceQueue_wf (by simpa using w) _ _))

theorem stopPicked_wf (p raiser : Nat) (u : Team) : Memory.wf (stopPicked s p raiser u).mem = true := by
  unfold stopPicked
  refine ite_wf w ?_
  simp only []
  split
  · exact stage_wf (by simpa using w) _ _ _
  · simpa using w

theorem builtinPreempt_wf (p raiser : Nat) : Memory.wf (builtinPreempt s p raiser).mem = true := by
  unfold builtinPreempt
  simp only []
  split
  · split
    · exact stopPicked_wf w _ _ _
    · exact w
  · split
    · exact w
    · split
      · exact stopPicked_wf w _ _ _
      · exact ite_wf w w

theorem builtin_wf (p kind raiser : Nat) (view : List Seen) : Memory.wf (builtin s p kind raiser view).mem = true := by
  unfold builtin
  split
  · exact builtinDispatch_wf w _ _
  · split
    · next h => rwa [preemptMoot_mem h]
    · exact builtinPreempt_wf w _ _
  · split
    · simpa using w
    · exact w
  · exact w

theorem startDecision_wf (p kind raiser : Nat) (cands : List Cand) : Memory.wf (startDecision s p kind raiser cands).mem = true := by
  unfold startDecision
  simp only []
  split
  · exact builtin_wf (by simpa using w) _ _ _ _
  · exact ite_wf (builtin_wf (by simpa using w) _ _ _ _) (by simpa using w)

theorem commitRun_wf (p : Nat) : Memory.wf (commitRun s p).mem = true := by
  have idle : Memory.wf (modPart s p fun q => { q with run := CueRun.idle, cueStat := { q.cueStat with consec := 0 } }).mem = true := w
  unfold commitRun
  generalize modPart s p (fun q => { q with run := CueRun.idle, cueStat := { q.cueStat with consec := 0 } }) = y at idle
  have refuse (k r : Nat) (view : List Seen) : Memory.wf (builtin (countRefuse y p) p k r view).mem = true := 
    builtin_wf (by simpa using idle) _ _ _ _
  simp only []
  split
  · split
    · simpa using idle
    · split
      · exact refuse _ _ _
      · split
        · next h => exact commitDispatch_wf idle _ _ _ _ _ h
        · next h => simpa using commitDispatch_wf idle _ _ _ _ _ h
        · exact refuse _ _ _
  · split
    · next h => rwa [preemptMoot_mem h]
    · split
      · exact idle
      · split
        · exact ite_wf (stopPicked_wf idle _ _ _) (refuse _ _ _)
        · exact refuse _ _ _
  · split
    · split
      · simpa using idle
      · exact idle
    · refine ite_wf (refuse _ _ _) ?_
      split
      · exact refuse _ _ _
      · split
        · next h => rwa [commitFault_mem h]
        · exact refuse _ _ _
  · refine foldl_wf (fun x c wx => ?_) _ idle
    split
    · exact wx
    · split
      · next h => rwa [commitMove_mem h]
      · exact wx

theorem overrun_wf : Memory.wf (overrun s).mem = true := by
  unfold overrun
  exact builtin_wf (by simpa using w) _ _ _ _

end

section
variable {s : State} (w : Memory.wf s.mem = true)
include w

/-! ### The ends of tasks -/

theorem closeTask_wf (k : Task) (st : Status) : Memory.wf (closeTask s k st).mem = true := by
  unfold closeTask
  simp only []
  refine ite_wf ?_ (advanceQueue_wf ?_ _ _)
  all_goals
    rw [roomChanged_mem]
    exact releaseCopy_wf (completionActions_wf (by simpa using w) _ _ _) _ _

/-! ### The Stagehands' copies and collectives -/

theorem readAhead_wf (c : CopyShape) (p n i fuel : Nat) (l : List (Byte × Bool)) : Memory.wf (readAhead c p n i fuel s l).2.2.mem = true := by
  induction fuel generalizing s l with
  | zero => exact w
  | succ fuel ih =>
    unfold readAhead
    split
    · exact w
    · simp only []
      split
      · exact w
      · split
        · exact w
        · next h => exact ih (reachNow_wf w h) _

theorem copyRun_wf (c : CopyShape) (p fuel i e : Nat) (l : List (Byte × Bool)) : Memory.wf (copyRun c p fuel s i e l).2.2.2.mem = true := by
  induction fuel generalizing s i l with
  | zero => exact w
  | succ fuel ih =>
    have ahead (n : Nat) : Memory.wf (readAhead c p n i 66 s l).2.2.mem = true := readAhead_wf w _ _ _ _ _ _
    unfold copyRun
    split
    · exact w
    · simp only []
      split
      · exact ahead _
      · split
        · exact ahead _
        · next h =>
          have reached := reachNow_wf (ahead _) h
          have written (pa : Nat) (bs : List Byte) (q : Bool) := writePhys_wf reached (some p) pa bs none
          split
          · exact reached
          · split
            · simpa using written _ _ true
            · exact ih (by simpa using written _ _ true) _ _

theorem firmwareSegment_wf : Memory.wf (firmwareSegment s).mem = true := by
  unfold firmwareSegment
  exact ite_wf (zeroFirst_wf w) (by simpa using w)

theorem performSegment_wf (r : EngRec) : Memory.wf (performSegment s r).mem = true := by
  have run (f i e : Nat) (l : List (Byte × Bool)) (x : Nat × List (Byte × Bool) × Option Nat × State)
      (h : copyRun (copyShape r.words) r.part f s i e l = x) : Memory.wf x.2.2.2.mem = true := by
    rw [← h]; exact copyRun_wf w _ _ _ _ _ _
  unfold performSegment
  simp only []
  split
  · split
    · next h => simpa using reach_wf w h
    · simpa using w
  · refine ite_wf (by simpa using w) (ite_wf (by simpa using w) ?_)
    split
    · next h => simpa using run _ _ _ _ _ h
    · next h => exact ite_wf (by simpa using run _ _ _ _ _ h) (by simpa using run _ _ _ _ _ h)

theorem firstHole_wf (p : Nat) (k : Kind) (fuel va len : Nat) : Memory.wf (firstHole s p k fuel va len).2.mem = true := by
  induction fuel generalizing s va len with
  | zero => exact w
  | succ n ih =>
    unfold firstHole
    split
    · exact w
    · simp only []
      split
      · simpa using w
      · next h => exact ih (reach_wf w h) _ _

theorem finishColl_wf (r : EngRec) (x : CollState) : Memory.wf (finishColl s r x).mem = true := by
  unfold finishColl
  simp only []
  refine ite_wf (by simpa using w) ?_
  split
  · next h => simpa using wf_snd (firstHole_wf w _ _ _ _ _) h
  · next h =>
    have w := wf_snd (firstHole_wf w _ _ _ _ _) h
    simp only [endRecord_mem]
    rw [foldl_mem fun y e => by split <;> simp]
    exact writeRange_wf w _ _ _

theorem takeFrame1_wf (r : EngRec) (x : CollState) (f : CollFrame) : Memory.wf (takeFrame1 s r x f).mem = true := by
  unfold takeFrame1
  simp only []
  exact ite_wf (finishColl_wf (by simpa using w) _ _) (by simpa using w)

theorem takeWaiting_wf (id fuel : Nat) : Memory.wf (takeWaiting s id fuel).mem = true := by
  induction fuel generalizing s with
  | zero => exact w
  | succ n ih =>
    unfold takeWaiting
    (repeat' split)
    · exact w
    · exact w
    · exact w
    · exact ih (takeFrame1_wf (by simpa using w) _ _ _)

theorem readEntries_wf (p g n i : Nat) : Memory.wf (readEntries s p g n i).2.mem = true := by
  induction n generalizing s i with
  | zero => exact w
  | succ n ih =>
    unfold readEntries
    split
    · simpa using w
    · next h => exact ih (readRange_wf w h) _

theorem takeCollFrame_wf (f : CollFrame) : Memory.wf (takeCollFrame s f).mem = true := by
  have heard : Memory.wf (heardFrom s f.node f.epoch).mem = true := by simpa using w
  unfold takeCollFrame
  refine ite_wf heard ?_
  split
  · exact takeFrame1_wf heard _ _ _
  · exact ite_wf heard heard

/-! ### Kernel images and launches -/

theorem mapBytes_wf (p va flags : Nat) (bs : List Byte) : Memory.wf (mapBytes s p va flags bs).mem = true :=
  foldl_wf (fun _ _ w => wf_setCells (mapPage_wf (by simpa using w) _ _ _) _ _) _ w

theorem installImage_wf (p : Nat) (bs : List Byte) : Memory.wf (installImage s p bs).2.mem = true :=
  mapBytes_wf (mapBytes_wf (mapBytes_wf (by simpa using w) _ _ _ _) _ _ _ _) _ _ _ _

theorem imageFor_wf (p addr : Nat) : AnswersWf (·.2) (imageFor s p addr) := by
  unfold imageFor
  split
  · exact w
  · split
    · simpa [AnswersWf] using w
    · next h =>
      have w := readRange_wf w h
      split
      · exact w
      · split
        · simpa [AnswersWf] using w
        · next h =>
          have w := readRange_wf w h
          split
          · exact w
          · next bs t _ =>
            have w : Memory.wf (installImage t p bs).2.mem = true := installImage_wf w p bs
            simp only []
            split
            · exact w
            · split
              · exact releaseCopy_wf (by simpa using w) _ _
              · exact w

theorem launchTables_wf (raw : List Byte) : AnswersWf (·.2.2) (launchTables s raw) := by
  have mailboxes (c : Prop) [Decidable c] (a n : Nat) (r : List Byte × State)
      (h : (if c then .ok ([], s) else readRange s (rPart raw) a n) = .ok r) : Memory.wf r.2.mem = true := by
    split at h
    · cases h; exact w
    · exact readRange_wf w h
  unfold launchTables
  simp only []
  split
  · simpa [AnswersWf] using w
  · next h =>
    have w := mailboxes _ _ _ _ h
    split
    · simpa [AnswersWf] using w
    · next h =>
      have w := readRange_wf w h
      split <;> exact w

theorem partTask_wf (r : HRec) (raw : List Byte) : AnswersWf (·.2) (partTask s r raw) := by
  have h := launchTables_wf w raw
  unfold partTask
  split
  · next e => rwa [e] at h
  · next e =>
    rw [e] at h
    have h' := imageFor_wf h (rPart raw) (fieldOf raw 0x20 8)
    split
    · next e => rwa [e] at h'
    · next e => rwa [e] at h'

theorem reserveParts_wf (r : HRec) (l : List (List Byte)) : AnswersWf id (reserveParts s r l) := by
  induction l generalizing s with
  | nil => exact w
  | cons raw l ih =>
    have h := partTask_wf w r raw
    unfold reserveParts
    split
    · next e => rwa [e] at h
    · next k t e =>
      rw [e] at h
      have h : Memory.wf t.mem = true := h
      refine AnswersWf.ite h ?_
      split
      · exact h
      · exact ih (by simpa using h)

theorem commitParts_wf (r : HRec) (parts : List (Task × List (Nat × List Place))) : Memory.wf (commitParts s r parts).mem = true :=
  finishRec_wf (foldl_wf (fun _ _ w => by simpa using w) _ (by simpa using w)) _ _

theorem endTroupe_wf (rec : Nat) (st : Status) : Memory.wf (endTroupe s rec st).mem = true :=
  finishRec_wf (foldl_wf (fun _ _ w => by simpa using releaseCopy_wf w _ _) _ (by simpa using w)) _ _

theorem tryTroupe_wf (rec : Nat) : Memory.wf (tryTroupe s rec).mem = true := by
  unfold tryTroupe
  split
  · next r t _ _ =>
    have h := reserveParts_wf (s := { s with troupe := some { t with parts := t.parts.filter (standing s) } }) w r
      (unreserved r (t.parts.filter (standing s)))
    simp only []
    split
    · next e => rw [e] at h; exact endTroupe_wf h _ _
    · next x e =>
      rw [e] at h
      have h : Memory.wf x.mem = true := h
      split
      · exact ite_wf (commitParts_wf h _ _) h
      · exact h
  · exact w

end

section
variable {s : State} (w : Memory.wf s.mem = true)
include w

/-! ### Copies of the host -/

theorem hostReach_wf (p : Nat) (k : Kind) (va n : Nat) : ∀ r, hostReach s p k va n = some r → Memory.wf r.2.mem = true := by
  have copied : Memory.wf ((copyOnTouch s p k va).getD s).mem = true := by
    cases h : copyOnTouch s p k va with
    | none => exact w
    | some t => exact copyOnTouch_wf w h
  unfold hostReach
  split
  · simp only []
    split
    · split
      · rintro _ ⟨⟩
        cases k
        · exact copied
        · exact setDirty_wf copied _
      · rintro _ ⟨⟩
    · rintro _ ⟨⟩
  · exact fun _ h => reach_wf w h

theorem hostWrite_wf (p fuel va : Nat) (bs : List Byte) (done : Nat) : Memory.wf (hostWrite p fuel s va bs done).2.mem = true := by
  induction fuel generalizing s va bs done with
  | zero => exact w
  | succ n ih =>
    unfold hostWrite
    split
    · exact w
    · simp only []
      split
      · exact w
      · next h => exact ih (writePhys_wf (hostReach_wf w _ _ _ _ _ h) ..) _ _ _

theorem hostRead_wf (p fuel va len : Nat) : Memory.wf (hostRead p fuel s va len).2.mem = true := by
  induction fuel generalizing s va len with
  | zero => exact w
  | succ n ih =>
    unfold hostRead
    split
    · exact w
    · simp only []
      split
      · exact w
      · next h =>
        have w := hostReach_wf w _ _ _ _ _ h
        split
        · exact w
        · exact ih w _ _

omit w in
@[simp] theorem results_mem (r : HRec) (st : Status) (n : Nat) (bs : List Byte) : (results s r st n bs).mem = s.mem := by
  fun_induction results <;> simp_all

theorem hostTake_wf (r : HRec) : Memory.wf (hostTake s r).mem = true := by
  unfold hostTake
  simp only []
  refine ite_wf (ite_wf (finishRec_wf (by simpa using w) _ _) (by simpa using w)) (ite_wf (finishRec_wf w _ _) ?_)
  exact ite_wf (ite_wf (finishRec_wf (hostWrite_wf w _ _ _ _ _) _ _) (by simpa using hostWrite_wf w _ _ _ _ _))
    (finishRec_wf (by simpa using hostWrite_wf w _ _ _ _ _) _ _)

theorem hostGive_wf (r : HRec) : Memory.wf (hostGive s r).mem = true := by
  unfold hostGive
  simp only []
  refine ite_wf (finishRec_wf (by simpa using w) _ _) (ite_wf (finishRec_wf w _ _) (finishRec_wf ?_ _ _))
  rw [results_mem]
  exact ite_wf (hostRead_wf w _ _ _ _) (by simpa using hostRead_wf w _ _ _ _)

/-! ### Stopping and starting the module -/

theorem loseWork_wf : Memory.wf (loseWork s).mem = true := by
  simp only [loseWork]
  exact foldl_wf (fun _ _ w => releaseCopy_wf w _ _) _ (by simpa using w)

theorem stopModule_wf : Memory.wf (stopModule s).mem = true := by
  unfold stopModule
  exact scramble_wf (foldl_wf (fun _ _ w => settleDomain_wf w _) _ (loseWork_wf w)) _

omit w in
theorem coldState_wf : Memory.wf (coldState s).mem = true := by
  rw [coldState]
  exact reset_wf

omit w in
theorem coldStart_wf (ok : Bool) (failed : List Nat) : Memory.wf (coldStart ok failed s).mem = true := by
  have cold : Memory.wf (coldState s).mem = true := coldState_wf
  simp [coldStart, cold]

/-! ### Ranges and images of partitions -/

theorem setOwner_wf (p va len : Nat) (device : Bool) : Memory.wf (setOwner s p va len device).mem = true :=
  foldl_wf (fun _ _ w => setLeaf_wf w _ _ _) _ w

theorem writeImage_wf (p va len : Nat) (bs : List Byte) : Memory.wf (writeImage s p va len bs).2.mem = true := by
  unfold writeImage
  split
  · exact w
  · exact writeRange_wf w _ _ _

theorem readImage_wf {p va len : Nat} {bs : List Byte} {t : State} (h : readImage s p va len = .ok (bs, t)) : Memory.wf t.mem = true := by
  unfold readImage at h
  split at h
  · cases h
  · next e => exact readRange_wf (readRange_wf w e) h

theorem importTask_wf (p conn : Nat) (bs : List Byte) (o : Nat) : AnswersWf id (importTask s p conn bs o) := by
  have h := imageFor_wf w p (fieldOf ((bs.drop o).take 128) 0x20 8)
  unfold importTask
  simp only []
  split
  · next e => rwa [e] at h
  · next e => rw [e] at h; exact h

theorem importTasks_wf (p conn : Nat) (bs : List Byte) (l : List Nat) : AnswersWf id (importTasks p conn bs l s) := by
  induction l generalizing s with
  | nil => exact w
  | cons o l ih =>
    have h := importTask_wf w p conn bs o
    unfold importTasks
    split
    · next e => rwa [e] at h
    · next e => rw [e] at h; exact ih h

theorem importPart_wf (p conn : Nat) (bs : List Byte) : AnswersWf id (importPart s p conn bs) := by
  have h := importTasks_wf (s := modPart s p fun q => importParams q bs) w p conn bs (taskOffsets bs (fieldOf bs 0x18 4) 128).1
  unfold importPart
  simp only []
  split
  · exact w
  · next t e =>
    rw [e] at h
    have h : Memory.wf t.mem = true := h
    have ensembles : Memory.wf ((ensembleOffsets bs (fieldOf bs 0x1C 4) (taskOffsets bs (fieldOf bs 0x18 4) 128).2).1.foldl
        (fun s o => importEnsemble s p bs o) t).mem = true := by simpa using h
    have queues : Memory.wf ((List.range 64).foldl (fun s q => advanceQueue s p q) _).mem = true :=
      foldl_wf (fun _ _ w => advanceQueue_wf w _ _) (List.range 64) ensembles
    exact AnswersWf.state queues

theorem imageInPart_wf (p conn : Nat) (bs : List Byte) : Memory.wf (imageInPart s p conn bs).2.mem = true := by
  have h := importPart_wf w p conn bs
  unfold imageInPart
  split
  · exact w
  · split
    · exact w
    · split
      · next e => rw [e] at h; exact h
      · next e => rw [e] at h; exact h

theorem noTeam_wf (r : HRec) : Memory.wf (noTeam s r).mem = true := debugDone_wf w _ _ _

theorem endHandler_wf (r : HRec) : Memory.wf (endHandler s r).mem = true := by
  unfold endHandler
  exact ite_wf w (debugDone_wf w _ _ _)

/-! ### Recovery points -/

theorem endCommits_wf (p : Nat) (st : Status) : Memory.wf (endCommits s p st).mem = true :=
  foldl_wf (fun _ _ w => finishRec_wf w _ _) _ w

theorem finishCommit_wf (p : Nat) (d : Domain) (c : Commit) : Memory.wf (finishCommit s p d c).mem = true := by
  unfold finishCommit
  rw [replicate_mem]
  exact writeCommitix_wf (by simpa using w) _ _ _ _

theorem restorePrompt_wf (p : Nat) (d : Domain) (seq pbix : Nat) : Memory.wf (restorePrompt s p d seq pbix).2.mem = true := by
  have cleared (l : List Nat) : Memory.wf (l.foldl (fun s k => writeSection s p d (seq + k) allOnes64 0 allOnes64) s).mem = true :=
    foldl_wf (fun _ _ w => writeSection_wf w _ _ _ _ _ _) l w
  unfold restorePrompt
  simp only []
  split <;> exact writeSection_wf (cleared _) _ _ _ _ _ _

theorem restoreFrom_wf (p : Nat) (d : Domain) (t : Nat) (torn : Bool) : Memory.wf (restoreFrom s p d t torn).mem = true := by
  simp only [restoreFrom, journal_mem, modPart_mem]
  refine restorePrompt_wf ?_ _ _ _ _
  rw [modPart_mem]
  exact foldl_wf (fun _ _ w => putGranule_wf w _ _) _ w

theorem restoreFetched_wf (r : HRec) (d : Domain) (m : Replica) : Memory.wf (restoreFetched s r d m).mem = true := by
  unfold restoreFetched
  simp only []
  refine ite_wf (finishRec_wf w _ _) (ite_wf (finishRec_wf w _ _) (ite_wf (finishRec_wf (by simpa using w) _ _) (finishRec_wf ?_ _ _)))
  simpa using restoreFrom_wf w _ _ _ _

theorem endRestore_wf (r : HRec) : Memory.wf (endRestore s r).mem = true := by
  unfold endRestore
  split
  · exact ite_wf w (restoreFetched_wf w _ _ _)
  · exact w

theorem takeReplica_wf (m : Clovo) (x : Replica) : Memory.wf (takeReplica s m x).mem = true := by
  unfold takeReplica
  split
  · exact w
  · split
    · exact endRestore_wf (by simpa using w) _
    · exact ite_wf (by simpa using w) (by simpa using w)

end

/-! ### Results -/

/-- A result, where there is one, has canonical memory. -/
def LeavesWf : Result → Prop
  | .next t => Memory.wf t.mem = true
  | _ => True

theorem LeavesWf.next {t : State} (w : Memory.wf t.mem = true) : LeavesWf (.next t) := w

theorem LeavesWf.ite {c : Prop} [Decidable c] {a b : Result} (ha : LeavesWf a) (hb : LeavesWf b) : LeavesWf (if c then a else b) := by
  split
  · exact ha
  · exact hb

section
variable {s : State} (w : Memory.wf s.mem = true)
include w

/-! ### Combinators of the operations of the cue, of records and of messages -/

theorem cueOp_leavesWf (cost spent steps : Nat) {k : State → State} (hk : KeepsWf k) : LeavesWf (cueOp s cost spent steps k) := by
  unfold cueOp
  exact LeavesWf.next (ite_wf w (ite_wf (overrun_wf w) (hk _ (by simpa using w))))

theorem cueAlu_leavesWf (d : CReg) (v : State → Word32) (cost : Nat) : LeavesWf (cueAlu d v s cost) :=
  cueOp_leavesWf w _ _ _ fun _ w => by simpa using w

theorem cueBranch_leavesWf (c : State → Bool) (i : BitVec 5) : LeavesWf (cueBranch c i s) :=
  cueOp_leavesWf w _ _ _ fun _ w => by simpa using w

theorem startRec_leavesWf (id kind : Nat) (op : Option Nat) {k : HRec → State → State} (hk : ∀ r, KeepsWf (k r)) :
    LeavesWf (startRec s id kind op k) := by
  unfold startRec
  refine LeavesWf.next ?_
  split
  · exact w
  · exact ite_wf w (ite_wf (by simpa using w) (hk _ _ (by simpa using w)))

theorem startCkpt_leavesWf (rec op : Nat) {k : HRec → State → State} (hk : ∀ r, KeepsWf (k r)) : LeavesWf (startCkpt s rec op k) := by
  unfold startCkpt
  exact .ite (startRec_leavesWf w _ _ _ hk) w

theorem unlessWriteHeld_leavesWf (rec va len : Nat) {k : Unit → Result} (hk : LeavesWf (k ())) : LeavesWf (unlessWriteHeld s rec va len k) := by
  unfold unlessWriteHeld
  split
  · exact w
  · exact .ite w hk

theorem whenQuiet_leavesWf (rec : Nat) {k : Unit → Result} (hk : LeavesWf (k ())) : LeavesWf (whenQuiet s rec k) := by
  unfold whenQuiet
  split
  · exact .ite w hk
  · exact hk

theorem clovoIn_leavesWf (m : Clovo) {k : State → State} (hk : KeepsWf k) : LeavesWf (clovoIn s m k) := by
  unfold clovoIn
  exact LeavesWf.next (ite_wf w (ite_wf (by simpa using w) (ite_wf w (hk s w))))

theorem dataIn_leavesWf (m : Clovo) {k : Conn → State → State} (hk : ∀ c, KeepsWf (k c)) : LeavesWf (dataIn m s k) :=
  clovoIn_leavesWf w m fun s w => by
    simp only []
    split
    · simpa using w
    · next c _ =>
      refine ite_wf (ite_wf (by simpa using w) ?_) (ite_wf (by simpa using w) (by simpa using w))
      have taken := hk c s w
      split <;> simpa using taken

theorem peerIn_leavesWf (m : Clovo) (chan : Nat) {k : State → State} (hk : KeepsWf k) : LeavesWf (peerIn m chan s k) :=
  dataIn_leavesWf w m fun _ s w => ite_wf (hk s w) w

/-! ### Issue -/

theorem issueEngine_wf (mk : Wide → Instr) (k : Kinds) (f : Wide) (qx fmtOk : Bool) (op : Option (Byte × Word)) (room : Bool)
    (push : Cmd → Thread → Thread) : Memory.wf (issueEngine s mk k f qx fmtOk op room push).mem = true := by
  unfold issueEngine
  refine ite_wf (by simpa using w) (ite_wf (by simpa using w) (withRegs_wf w _ fun s w => ite_wf (by simpa using w) ?_))
  split
  · simpa using w
  · exact ite_wf (by simpa using w) (by simpa using w)

theorem issueVector_leavesWf (mk : Wide → Instr) (k : Kinds) (f : Wide) (fmtOk qx : Bool) : LeavesWf (issueVector mk k f fmtOk s qx) :=
  issueEngine_wf w ..

theorem issueMatrix_leavesWf (mk : Wide → Instr) (k : Kinds) (f : Wide) (fmtOk : Bool) (op : Option (Byte × Word)) (qx : Bool) :
    LeavesWf (issueMatrix mk k f fmtOk op s qx) :=
  issueEngine_wf w ..

theorem setShape_wf (i : Instr) (new : Word) (d : Option Reg) (ok : Bool) : Memory.wf (setShape s i new d ok).mem = true := by
  unfold setShape
  refine ite_wf (by simpa using w) ?_
  cases d <;> simpa using w

theorem readSys_wf (d : Reg) (n : Nat) (i : Instr) : Memory.wf (readSys d n i s).mem = true := by
  unfold readSys
  refine ite_wf (by simpa using w) (withRegs_wf w _ fun s w => ?_)
  refine ite_wf ?_ (ite_wf ?_ (by simpa using w)) <;> exact paired_wf w _ (fun _ w => w) fun _ _ w => by simpa using w

theorem sendRecord_wf (d : Reg) (eng : Nat) (l : List Word) : Memory.wf (sendRecord d eng l s).mem = true :=
  agreeThen_wf w fun s w => paired_wf w _ (fun s w => by simpa using w) fun v s w => by simpa using w

theorem startSwait_wf (d : Reg) (req : List Nat) (pa : Nat) (ea want : Word) : Memory.wf (startSwait d req pa ea want s).mem = true := by
  unfold startSwait
  refine ite_wf ?_ (by simpa using w)
  exact paired_wf (by simpa using w) _ (fun _ w => w) fun _ _ w => by simpa using w

theorem drainRegions_wf : Memory.wf (drainRegions s).mem = true := by
  unfold drainRegions
  refine ite_wf (ite_wf (by simpa using drainRegion_wf w _) w) ?_
  split
  · exact w
  · have drained (a b : Nat) : Memory.wf (settleLate (drainRegion (drainRegion s a) b)).mem = true := by
      simpa using drainRegion_wf (drainRegion_wf w a) b
    have closed : KeepsWf closeRegion := fun _ w => by simpa using w
    refine ite_wf w (ite_wf ?_ (drained _ _))
    exact onThread_wf (onThread_wf (by simpa using drained _ _) _ closed) _ closed

end

/-! ### Commands of the engines -/

/-- A command of an engine that ends its work has left memory as it was. -/
def CmdOut.KeepsMem (m : Cells) : CmdOut → Prop
  | .done t => t.mem = m
  | _ => True

@[simp] theorem CmdOut.keepsMem_done {m : Cells} {t : State} : (CmdOut.done t).KeepsMem m ↔ t.mem = m := Iff.rfl
@[simp] theorem CmdOut.keepsMem_tile (m : Cells) (o : TileOut) : (CmdOut.tile o).KeepsMem m := trivial
@[simp] theorem CmdOut.keepsMem_fault (m : Cells) (c : Byte) (a : Word) : (CmdOut.fault c a).KeepsMem m := trivial
@[simp] theorem CmdOut.keepsMem_wait (m : Cells) : CmdOut.wait.KeepsMem m := trivial

theorem withExtent_keepsMem {m : Cells} {k : Extent → CmdOut} (s : State) (c : Cmd) (spa : Word) (len : Nat) (hk : ∀ x, (k x).KeepsMem m) :
    (withExtent s c spa len k).KeepsMem m := by
  unfold withExtent
  (repeat' split) <;> simp [hk]

@[simp] theorem vldTile_keepsMem (s : State) (c : Cmd) (f : Wide) : (vldTile s c f).KeepsMem s.mem := by
  fun_cases vldTile <;> simp +zetaDelta
@[simp] theorem vstTile_keepsMem (s : State) (c : Cmd) (f : Wide) : (vstTile s c f).KeepsMem s.mem := by
  fun_cases vstTile <;> simp +zetaDelta
@[simp] theorem vldacTile_keepsMem (s : State) (c : Cmd) (f : Wide) : (vldacTile s c f).KeepsMem s.mem := by
  fun_cases vldacTile <;> simp +zetaDelta
@[simp] theorem pstTile_keepsMem (s : State) (c : Cmd) (f : Wide) : (pstTile s c f).KeepsMem s.mem := by
  fun_cases pstTile <;> simp +zetaDelta
@[simp] theorem pldTile_keepsMem (s : State) (c : Cmd) (f : Wide) : (pldTile s c f).KeepsMem s.mem := by
  fun_cases pldTile <;> simp +zetaDelta
@[simp] theorem tintTile_keepsMem (s : State) (c : Cmd) (f : Wide) : (tintTile s c f).KeepsMem s.mem := by
  fun_cases tintTile <;> simp +zetaDelta
@[simp] theorem tloadTile_keepsMem (s : State) (c : Cmd) (f : Wide) : (tloadTile s c f).KeepsMem s.mem := by
  fun_cases tloadTile <;> simp +zetaDelta

theorem performVector_keepsMem (s : State) (c : Cmd) : (performVector s c).KeepsMem s.mem := by
  unfold performVector
  split <;> simp

theorem loadWeights_keepsMem (s : State) (c : Cmd) (spa : Word) (len : Nat) (fmt : LatchFmt) :
    (loadWeights s c spa len fmt).KeepsMem s.mem :=
  withExtent_keepsMem s c spa len fun _ => rfl

theorem mmacTile_keepsMem (s : State) (c : Cmd) (f : Wide) (e : CheckErr) :
    (mmacTile s c f e).1.KeepsMem s.mem ∧ (mmacTile s c f e).2.mem = s.mem := by
  unfold mmacTile
  simp only []
  (repeat' split) <;> simp

theorem performMatrix_keepsMem (s : State) (c : Cmd) (e : CheckErr) :
    (performMatrix s c e).1.KeepsMem s.mem ∧ (performMatrix s c e).2.mem = s.mem := by
  unfold performMatrix
  split
  case h_6 => exact mmacTile_keepsMem ..
  all_goals simp [loadWeights_keepsMem]

section
variable {s : State} (w : Memory.wf s.mem = true)
include w

/-! ### Instructions of the two streams -/

theorem execJal_leavesWf (d : Reg) (o : BitVec 21) : LeavesWf (execJal d o s) :=
  withRegs_wf w _ fun _ w => by simpa using w

theorem execJalr_leavesWf (d a : Reg) : LeavesWf (execJalr d a s) :=
  withRegs_wf w _ fun _ w => ite_wf (by simpa using w) (by simpa using w)

theorem execMbrd_leavesWf (d : Reg) (k : BitVec 3) : LeavesWf (execMbrd d k s) :=
  withRegs_wf w _ fun _ w => by simpa using w

theorem execMbput_leavesWf (k : BitVec 3) (a b : Reg) : LeavesWf (execMbput k a b s) :=
  withRegs_wf w _ fun _ w => by
    refine ite_wf (by simpa using w) (ite_wf (by simpa using w) ?_)
    split <;> simpa using w

theorem execRotrd_leavesWf (d : Reg) : LeavesWf (execRotrd d s) := withRegs_wf w _ fun _ w => by simpa using w

theorem execRotwr_leavesWf (a : Reg) : LeavesWf (execRotwr a s) := withRegs_wf w _ fun _ w => by simpa using w

theorem execLoop_leavesWf (l : BitVec 2) (src : Bool) (r : Reg) (n : BitVec 10) : LeavesWf (execLoop l src r n s) :=
  withRegs_wf w _ fun _ w => ite_wf (by simpa using w) (by simpa using w)

theorem execSdq_leavesWf (a : Reg) : LeavesWf (execSdq a s) := withRegs_wf w _ fun _ w => ite_wf (by simpa using w) (by simpa using w)

theorem execQpop_leavesWf (d : Reg) (q : BitVec 2) : LeavesWf (execQpop d q s) :=
  withRegs_wf w _ fun _ w => by split <;> simpa using w

theorem execXqput_leavesWf (a : Reg) : LeavesWf (execXqput a s) := withRegs_wf w _ fun _ w => ite_wf (by simpa using w) (by simpa using w)

theorem execXqget_leavesWf (d : Reg) : LeavesWf (execXqget d s) :=
  withRegs_wf w _ fun _ w => by split <;> simpa using w

theorem execBqput_leavesWf (a : Reg) : LeavesWf (execBqput a s) := withRegs_wf w _ fun _ w => ite_wf (by simpa using w) (by simpa using w)

theorem execMark_leavesWf : LeavesWf (execMark s) := issueMark_wf w _ _ fun _ w => w

theorem execSpld_leavesWf (d : Reg) (o : BitVec 9) : LeavesWf (execSpld d o s) :=
  withRegs_wf w _ fun _ w => whenSpill_wf w fun _ w => by simpa using w

theorem execSpst_leavesWf (d : Reg) (o : BitVec 9) : LeavesWf (execSpst d o s) :=
  withRegs_wf w _ fun _ w => whenSpill_wf w fun _ w => by simpa using w

theorem execAcq_leavesWf (c : Scope) : LeavesWf (execAcq c s) := by
  unfold execAcq
  refine LeavesWf.next ?_
  repeat' split
  all_goals simpa using w

theorem execPush_leavesWf (d a : Reg) (e : BitVec 6) : LeavesWf (execPush d a e s) :=
  withRegs_wf w _ fun s w => by
    simp only []
    split
    · simpa using w
    · refine ite_wf (withAddress_wf w _ _ _ fun _ _ => ?_) ?_ <;>
        exact ite_wf (withAddress_wf w _ _ _ fun _ _ => sendRecord_wf w _ _ _) (sendRecord_wf w _ _ _)

theorem execSwait_leavesWf (d a b : Reg) : LeavesWf (execSwait d a b s) :=
  withRegs_wf w _ fun s w => by
    have answered (v : Word) : Memory.wf (paired s [5, (readReg s a).toNat, (readReg s b).toNat] (fun s => (v, s)) (finishSwait d)).mem = true :=
      paired_wf w _ (fun _ w => w) fun _ _ w => by simpa using w
    have first : Memory.wf (execSwait.first d [5, (readReg s a).toNat, (readReg s b).toNat] (readReg s a) (readReg s b) s).mem = true :=
      withAddress_wf w _ _ _ fun _ _ => ite_wf (by simpa using w) (ite_wf (answered 0) (startSwait_wf (by simpa using w) _ _ _ _ _))
    split
    · refine ite_wf (by simpa using w) (ite_wf first ?_)
      split
      · exact answered _
      · exact ite_wf (answered 0) (by simpa using w)
    · exact first

theorem execSsig_leavesWf (d a b : Reg) : LeavesWf (execSsig d a b s) :=
  withRegs_wf w _ fun _ w => withAddress_wf w _ _ _ fun _ _ => ite_wf (by simpa using w) (whenPromoted_wf w fun _ w => by
    split
    · simpa using w
    · exact ite_wf (by simpa using w) (agreeThen_wf w fun _ w =>
        paired_wf w _ (fun _ w => performAtomic_wf w _ _) fun _ _ w => by simpa using w))

theorem execSrd_leavesWf (d a : Reg) : LeavesWf (execSrd d a s) :=
  withRegs_wf w _ fun _ w => withAddress_wf w _ _ _ fun _ _ => ite_wf (by simpa using w)
    (paired_wf w _ (fun _ w => w) fun _ _ w => by simpa using w)

theorem execUret_leavesWf : LeavesWf (execUret s) := LeavesWf.next (ite_wf (by simpa using w) (by simpa using w))

theorem execUimask_leavesWf (d a : Reg) : LeavesWf (execUimask d a s) := withRegs_wf w _ fun _ w => by simpa using w

theorem execEcreate_leavesWf (d : Reg) : LeavesWf (execEcreate d s) :=
  withRegs_wf w _ fun _ w => ensembleRequest_wf w _ _ fun _ w => by simpa using w

theorem execEjoin_leavesWf (d a : Reg) : LeavesWf (execEjoin d a s) :=
  withRegs_wf w _ fun _ w => ensembleRequest_wf w _ _ fun _ w => by simpa using w

theorem execEleave_leavesWf (d a : Reg) : LeavesWf (execEleave d a s) :=
  withRegs_wf w _ fun _ w => ensembleRequest_wf w _ _ fun _ w => by simpa using w

theorem execEquery_leavesWf (d a b : Reg) : LeavesWf (execEquery d a b s) :=
  withRegs_wf w _ fun _ w => ensembleRequest_wf w _ _ fun _ w => w

theorem execEbar_leavesWf (d a : Reg) : LeavesWf (execEbar d a s) :=
  withRegs_wf w _ fun _ w => by
    split
    · exact ite_wf (by simpa using w) (by simpa using w)
    · refine whenPromoted_wf w fun _ w => ?_
      split
      · simpa using w
      · exact agreeThen_wf w fun _ w => paired_wf w _ (fun _ w => by simpa using w) fun _ _ w => by simpa using w

theorem execSysrdSigv_leavesWf (d : Reg) : LeavesWf (execSysrdSigv d s) := LeavesWf.next (ite_wf (readSys_wf w _ _ _) (by simpa using w))

theorem execSysrdSigs_leavesWf (d : Reg) : LeavesWf (execSysrdSigs d s) := LeavesWf.next (ite_wf (readSys_wf w _ _ _) (by simpa using w))

theorem execSyswr_leavesWf (a : Reg) (n : BitVec 12) : LeavesWf (execSyswr a n s) :=
  LeavesWf.next (ite_wf (by simpa using w) (withRegs_wf w _ fun _ w =>
    ite_wf (by simpa using w) (ite_wf (by simpa using w) (ite_wf (by simpa using w) (by simpa using w)))))

theorem execSyswrHeapWindow_leavesWf (a : Reg) (n : BitVec 2) : LeavesWf (execSyswrHeapWindow a n s) :=
  withRegs_wf w _ fun _ w => ite_wf (by simpa using w) (ite_wf (by simpa using w) (by simpa using w))

theorem execBrk_leavesWf (n : BitVec 12) : LeavesWf (execBrk n s) := LeavesWf.next (ite_wf (by simpa using w) (by simpa using w))

theorem execEret_leavesWf : LeavesWf (execEret s) :=
  LeavesWf.next (ite_wf (by simpa using w) (ite_wf (by simpa using w) (ite_wf (by simpa using w) (by simpa using w))))

theorem execCro_leavesWf (o : BitVec 12) : LeavesWf (execCro o s) :=
  LeavesWf.next (ite_wf (by simpa using w) (ite_wf (by simpa using w) (ite_wf (by simpa using w) (issueMark_wf w _ _ fun _ w => w))))

theorem execCrc_leavesWf : LeavesWf (execCrc s) := by
  unfold execCrc
  refine LeavesWf.next ?_
  have unwound {k : State} (hk : Memory.wf k.mem = true) : Memory.wf (match dueUnwind s.thr with
      | some c => unwind s c
      | none => k).mem = true := by
    split
    · simpa using w
    · exact hk
  simp only []
  split
  · exact unwound (ite_wf (by simpa using w) (ite_wf (ite_wf (by simpa using w) (by simpa using w)) (by simpa using w)))
  · exact unwound (by simpa using w)
  · exact unwound (by simpa using w)
  · exact unwound (by simpa using w)
  · exact ite_wf (by simpa using w) (ite_wf (by simpa using w) (issueMark_wf w _ _ fun _ w => by simpa using w))

theorem execSigchk_leavesWf : LeavesWf (execSigchk s) := agreeThen_wf w fun _ w => by simpa using w

theorem execRpopen_leavesWf (d : Reg) : LeavesWf (execRpopen d s) :=
  withRegs_wf w _ fun _ w => whenPromoted_wf w fun _ w => paired_wf w _ (fun _ w => openPoint_wf w _) fun _ _ w => by simpa using w

theorem execRpcommit_leavesWf (d a : Reg) : LeavesWf (execRpcommit d a s) :=
  withRegs_wf w _ fun _ w => whenPromoted_wf w fun _ w => by
    split
    · simpa using w
    · exact paired_wf w _ (fun _ w => by simpa using w) fun _ _ w => by simpa using w

theorem execRpwait_leavesWf (d a : Reg) (par : Bool) : LeavesWf (execRpwait d a par s) :=
  withRegs_wf w _ fun _ w => ite_wf (by simpa using w) (ite_wf (by simpa using w) (by simpa using w))

theorem execLocq_leavesWf (d a : Reg) (n : Bool) : LeavesWf (execLocq d a n s) :=
  withRegs_wf w _ fun _ w => paired_wf w _ (fun _ w => by simpa using w) fun _ _ w => by simpa using w

theorem execHalt_leavesWf : LeavesWf (execHalt s) := by
  unfold execHalt
  refine LeavesWf.next ?_
  split
  · exact ite_wf (by simpa using w) (ite_wf (by simpa using w) w)
  · exact w

theorem execWfi_leavesWf : LeavesWf (execWfi s) := LeavesWf.next (ite_wf (by simpa using w) (by simpa using w))

theorem execShp_leavesWf (f : Wide) : LeavesWf (execShp f s) := LeavesWf.next (ite_wf (by simpa using w) (setShape_wf w _ _ _ _))

theorem execShpr_leavesWf (f : Wide) : LeavesWf (execShpr f s) :=
  LeavesWf.next (ite_wf (by simpa using w) (withRegs_wf w _ fun _ w => setShape_wf w _ _ _ _))

end

section
variable {s : State} (w : Memory.wf s.mem = true)
include w

/-! ### Events of the threads and their engines -/

theorem execStorePairing_leavesWf (tid : Nat) : LeavesWf (execStorePairing tid s) :=
  onThread_wf w _ fun _ w => by
    split
    · exact w
    · exact performStore_wf w _ _

theorem execTileTransferCompletion_leavesWf (tid : Nat) : LeavesWf (execTileTransferCompletion tid s) :=
  onThread_wf w _ fun s w => by
    refine ite_wf w ?_
    split
    next k keeps s hk =>
    have w := wf_snd (by simpa using w) hk
    split
    · exact w
    · next x _ =>
      split
      next now later s hu =>
      have w := wf_snd (by split <;> simpa using w) hu
      split
      next left s hm =>
      have w := wf_snd (moveUnits_wf w _ _) hm
      simp only []
      split <;> simpa using w

theorem execLoadReturn_leavesWf (tid : Nat) : LeavesWf (execLoadReturn tid s) :=
  onThread_wf w _ fun _ w => by
    repeat' split
    · exact w
    · simpa using w
    · exact performAtom_wf w _ _

theorem execSemaphorePoll_leavesWf (tid : Nat) : LeavesWf (execSemaphorePoll tid s) := LeavesWf.next (ite_wf w (by simpa using w))

theorem execUliDelivery_leavesWf (tid : Nat) : LeavesWf (execUliDelivery tid s) := by
  unfold execUliDelivery
  refine LeavesWf.next ?_
  split <;> simpa using w

theorem execWingsDrain_leavesWf (tid : Nat) : LeavesWf (execWingsDrain tid s) :=
  onThread_wf w _ fun _ w => by
    refine ite_wf (by simpa using w) ?_
    split
    · simpa using w
    · exact drainRegions_wf (by simpa using w)

theorem execVectorCommand_leavesWf (tid : Nat) (e : CheckErr) : LeavesWf (execVectorCommand tid e s) :=
  onThread_wf w _ fun s w => by
    split
    · exact w
    · next c rest _ =>
      refine ite_wf w (ite_wf (by simpa using w) ?_)
      have kept : (performVector (ranVector (modThr s settleP)) c).KeepsMem s.mem := by
        simpa using performVector_keepsMem (ranVector (modThr s settleP)) c
      split
      · simpa using w
      · simpa using w
      · next h =>
        rw [h, CmdOut.keepsMem_done] at kept
        simpa [kept] using w
      · exact ite_wf (by simpa using w) (by simpa using w)

theorem execMatrixCommand_leavesWf (tid : Nat) (e : CheckErr) : LeavesWf (execMatrixCommand tid e s) :=
  onThread_wf w _ fun s w => by
    split
    · exact w
    · next c rest _ =>
      refine ite_wf w (ite_wf (by simpa using w) ?_)
      obtain ⟨kept, left⟩ : (performMatrix (ranMatrix s) c e).1.KeepsMem s.mem ∧ (performMatrix (ranMatrix s) c e).2.mem = s.mem := by
        simpa using performMatrix_keepsMem (ranMatrix s) c e
      split
      · simpa using w
      · next _ _ t h =>
        have left : t.mem = s.mem := by rwa [h] at left
        simpa [left] using w
      · next h =>
        rw [h, CmdOut.keepsMem_done] at kept
        simpa [kept] using w
      · simpa using w

theorem execQueueProtocolError_leavesWf (tid : Nat) : LeavesWf (execQueueProtocolError tid s) :=
  onThread_wf w _ fun _ w => ite_wf (by simpa using w) w

theorem execTrapEntry_leavesWf (tid : Nat) : LeavesWf (execTrapEntry tid s) :=
  onThread_wf w _ fun _ w => by
    split
    · exact ite_wf w (ite_wf (by simpa using w) (by simpa using w))
    · split
      · exact ite_wf (by simpa using w) w
      · exact w

theorem execPageWalk_leavesWf (tid : Nat) : LeavesWf (execPageWalk tid s) :=
  onThread_wf w _ fun _ w => by
    split
    · exact w
    · simp only []
      split <;> simpa using w

theorem execPageFaultResolve_leavesWf (tid : Nat) : LeavesWf (execPageFaultResolve tid s) :=
  onThread_wf w _ fun s w => by
    split
    · exact w
    · next f rest _ =>
      simp only []
      split
      · next h => exact resolveFault_wf (s := modThr s fun t => { t with pf := rest }) w h
      · simpa using w

theorem execThreadEnd_leavesWf (tid : Nat) : LeavesWf (execThreadEnd tid s) :=
  onThread_wf w _ fun _ w => by
    refine ite_wf w (ite_wf (by simpa using w) (ite_wf (by simpa using w) ?_))
    split
    · simpa using w
    · exact w
    · exact ite_wf (by simpa using w) (by simpa using w)

theorem execTeamEnd_leavesWf (team : Nat) : LeavesWf (execTeamEnd team s) := by
  unfold execTeamEnd
  refine LeavesWf.next ?_
  split
  · exact w
  · refine ite_wf w ?_
    split
    · simpa using w
    · exact ite_wf w (ite_wf (by simpa using w) (by simpa using w))

theorem execAgreementPoint_leavesWf (tid : Nat) : LeavesWf (execAgreementPoint tid s) :=
  onThread_wf w _ fun _ w => by
    refine ite_wf w (ite_wf (ite_wf (leavePoint_wf w _) w) ?_)
    split
    · refine ite_wf w ?_
      split <;> simpa using w
    · split
      · exact w
      · refine ite_wf w (ite_wf (ite_wf ?_ w) (by simpa using w))
        simpa using leavePoint_wf (leavePoint_wf w _) _

theorem execAgreementTimeout_leavesWf (tid : Nat) : LeavesWf (execAgreementTimeout tid s) :=
  onThread_wf w _ fun _ w => by
    refine ite_wf w ?_
    split
    · exact w
    · exact ite_wf w (by simpa using w)

theorem execVote_leavesWf (team : Nat) : LeavesWf (execVote team s) := by
  unfold execVote
  refine LeavesWf.next ?_
  split
  · exact w
  · refine ite_wf w ?_
    split
    · exact w
    · refine ite_wf (ite_wf (by simpa using w) (by simpa using w)) (ite_wf w ?_)
      simp only []
      split
      · simpa using w
      · split <;> simpa using w

/-! ### Errors of the machine -/

theorem raiseUpset_wf (tid : Nat) (use : ArrayUse) : Memory.wf (raiseUpset s tid use).mem = true :=
  onThread_wf w _ fun _ w => by
    simp only []
    split
    · exact ite_wf (by simpa using w) w
    all_goals
      split
      · exact ite_wf (by simpa using w) w
      · exact w

theorem execEccError_leavesWf (e : EccWhere) : LeavesWf (execEccError e s) := by
  unfold execEccError
  refine LeavesWf.next ?_
  split
  · exact ite_wf (by simpa using w) (ite_wf w w)
  · exact ite_wf (by simpa using w) (by simpa using w)
  · exact ite_wf (by simpa using w) (ite_wf w (by simpa using w))
  · exact ite_wf (by simpa using w) (raiseUpset_wf w _ _)
  · exact ite_wf (by simpa using w) (onThread_wf w _ fun _ w => ite_wf (by simpa using w) w)
  · simpa using w
  · exact w
  · exact onThread_wf w _ fun _ w => by simpa using w

theorem execScoreHalving_leavesWf : LeavesWf (execScoreHalving s) := LeavesWf.next (ite_wf w w)

theorem execInFieldTest_leavesWf : LeavesWf (execInFieldTest s) :=
  LeavesWf.next (ite_wf w (ite_wf (by simpa using w) w))

theorem execInFieldTestDone_leavesWf (core : Nat) (pass : Bool) : LeavesWf (execInFieldTestDone core pass s) := by
  unfold execInFieldTestDone
  refine LeavesWf.next (ite_wf w ?_)
  simp only []
  split <;> simpa using w

theorem execSemaphoreNotice_leavesWf (pa : Nat) : LeavesWf (execSemaphoreNotice pa s) := by
  unfold execSemaphoreNotice
  refine LeavesWf.next (ite_wf w ?_)
  split
  next s' hp =>
  have w' := wf_snd (by simpa using w) hp
  split
  · exact w
  · next x _ =>
    cases h : deliverNotice { s' with notices := s'.notices.eraseIdx x.2 } x.1 with
    | none => exact w
    | some t => exact deliverNotice_wf (s := { s' with notices := s'.notices.eraseIdx x.2 }) w' _ t h

end

section
variable {s : State} (w : Memory.wf s.mem = true)
include w

/-! ### The cue -/

theorem execCuePfx_leavesWf (i : BitVec 11) : LeavesWf (execCuePfx i s) := cueOp_leavesWf w _ _ _ fun _ w => by simpa using w

theorem execCueEach_leavesWf (d : CReg) (sel : Bool) (i : BitVec 5) : LeavesWf (execCueEach d sel i s) :=
  cueOp_leavesWf w _ _ _ fun _ w => ite_wf (by simpa using w) (by simpa using w)

theorem execCueNext_leavesWf (d : CReg) : LeavesWf (execCueNext d s) :=
  cueOp_leavesWf w _ _ _ fun _ w => ite_wf (by simpa using w) (by simpa using w)

theorem execCuePick_leavesWf (a : CReg) : LeavesWf (execCuePick a s) := cueOp_leavesWf w _ _ _ fun _ w => by simpa using w

theorem execCuePlace_leavesWf (a : CReg) : LeavesWf (execCuePlace a s) := cueOp_leavesWf w _ _ _ fun _ w => by simpa using w

theorem execCueDeny_leavesWf (n : BitVec 5) : LeavesWf (execCueDeny n s) :=
  cueOp_leavesWf w _ _ _ fun _ w => by
    simp only []
    split
    · simpa using w
    · split <;> simpa using w
    · simpa using w

theorem execCueStop_leavesWf : LeavesWf (execCueStop s) := cueOp_leavesWf w _ _ _ fun _ w => commitRun_wf w _

/-! ### The scheduler -/

theorem execDispatch_leavesWf (part : Nat) : LeavesWf (execDispatch part s) := by
  unfold execDispatch
  refine LeavesWf.next ?_
  split
  · exact w
  · exact ite_wf (by simpa using w) (startDecision_wf (by simpa using w) _ _ _ _)

theorem execPreempt_leavesWf (part : Nat) : LeavesWf (execPreempt part s) := by
  unfold execPreempt
  refine LeavesWf.next ?_
  split
  · exact w
  · exact startDecision_wf (by simpa using w) _ _ _ _

theorem execFault_leavesWf (part : Nat) : LeavesWf (execFault part s) := by
  unfold execFault
  refine LeavesWf.next ?_
  split
  · exact w
  · simp only []
    split
    · simpa using w
    · split
      · simpa using w
      · exact ite_wf (by simpa using w) (startDecision_wf (ite_wf (by simpa using w) (by simpa using w)) _ _ _ _)

theorem execRebalance_leavesWf (part : Nat) : LeavesWf (execRebalance part s) := by
  unfold execRebalance
  refine LeavesWf.next ?_
  split
  · exact w
  · exact startDecision_wf (by simpa using w) _ _ _ _

theorem execRebalPeriod_leavesWf (part : Nat) : LeavesWf (execRebalPeriod part s) := LeavesWf.next (ite_wf (by simpa using w) w)

theorem execStarveTimeout_leavesWf (part : Nat) : LeavesWf (execStarveTimeout part s) := by
  unfold execStarveTimeout
  refine LeavesWf.next ?_
  simp only []
  split
  · exact w
  · exact ite_wf (by simpa using w) w

/-! ### Teams and tasks -/

theorem execStop_leavesWf (team : Nat) : LeavesWf (execStop team s) := by
  unfold execStop
  refine LeavesWf.next ?_
  split
  · exact w
  · exact ite_wf w w

theorem execStopComplete_leavesWf (team : Nat) : LeavesWf (execStopComplete team s) := by
  unfold execStopComplete
  refine LeavesWf.next ?_
  split
  · exact w
  · exact ite_wf w (by simpa using w)

theorem execTeamResume_leavesWf (team : Nat) : LeavesWf (execTeamResume team s) := LeavesWf.next (by simpa using w)

theorem execMoveMessage_leavesWf (team : Nat) : LeavesWf (execMoveMessage team s) := by
  unfold execMoveMessage
  refine LeavesWf.next ?_
  split
  · exact w
  · refine ite_wf w ?_
    simp only []
    split <;> simpa using w

theorem execTaskEnd_leavesWf (task : Nat) : LeavesWf (execTaskEnd task s) := by
  unfold execTaskEnd
  refine LeavesWf.next ?_
  split
  · exact w
  · split
    · exact ite_wf (closeTask_wf (commitPages_wf w _) _ _) w
    · have keeps : ∀ (s : State) (u : Team), (modTeam s u.id fun u => match u.status with
          | .resident | .stopping => { u with status := .stopping, stopFor := .discard, dbgHalt := false }
          | _ => u).mem = s.mem := fun _ _ => rfl
      exact ite_wf (by simpa [keeps] using w) (ite_wf w (closeTask_wf (by simpa using w) _ _))
    · exact w

/-! ### The Stagehand and collectives -/

theorem execStagehandSegment_leavesWf (rec : Nat) : LeavesWf (execStagehandSegment rec s) := by
  unfold execStagehandSegment
  refine LeavesWf.next ?_
  split
  · exact ite_wf (firmwareSegment_wf (by simpa using w)) w
  · exact ite_wf w (performSegment_wf (by simpa using w) _)

theorem execRecordCompletion_leavesWf (rec : Nat) : LeavesWf (execRecordCompletion rec s) := by
  unfold execRecordCompletion
  refine LeavesWf.next ?_
  split
  · exact w
  · refine ite_wf (ite_wf w (completeEngine_wf w _ _ _ _ _)) ?_
    split
    · exact ite_wf (finishColl_wf w _ _) w
    · exact w

theorem execCollectiveRecordStart_leavesWf (rec : Nat) : LeavesWf (execCollectiveRecordStart rec s) := by
  unfold execCollectiveRecordStart
  refine LeavesWf.next ?_
  split
  · exact w
  · refine ite_wf w ?_
    simp only []
    split
    · simpa using w
    next head s hh =>
    have w := readRange_wf w hh
    refine ite_wf (by simpa using readEntries_wf w _ _ _ _) ?_
    split
    · simpa using readEntries_wf w _ _ _ _
    next entries s he =>
    have w := readRange_wf (readEntries_wf w _ _ _ _) he
    refine ite_wf (by simpa using w) ?_
    split
    · rw [refuseColl_mem]
      split <;> simp only [firstHole_wf, w]
    · split
      · simp only [refuseColl_mem, logMalformed_mem]
        split <;> simp only [firstHole_wf, w]
      · next bs s hb =>
        have w : Memory.wf s.mem = true := by
          refine readRange_wf ?_ hb
          split <;> simp only [firstHole_wf, w]
        exact takeWaiting_wf (by simpa using w) _ _

theorem execCollectiveFrame_leavesWf (x : Clovo × CollFrame) : LeavesWf (execCollectiveFrame x s) :=
  peerIn_leavesWf w _ _ fun _ w => takeCollFrame_wf w _

theorem execHoldFrame_leavesWf (m : Clovo) (epoch : Word) : LeavesWf (execHoldFrame m epoch s) :=
  peerIn_leavesWf w _ _ fun _ w => by simpa using w

theorem execHoldTimer_leavesWf (rec : Nat) : LeavesWf (execHoldTimer rec s) := by
  unfold execHoldTimer
  refine LeavesWf.next ?_
  split
  · exact w
  · split
    · exact w
    · exact ite_wf (by simpa using w) w

theorem execCollectiveTimeout_leavesWf (rec : Nat) : LeavesWf (execCollectiveTimeout rec s) := by
  unfold execCollectiveTimeout
  refine LeavesWf.next ?_
  split
  · exact w
  · split
    · exact w
    · exact ite_wf (by simpa using w) w

theorem execCollectiveAbort_leavesWf (x : Clovo × CollAbort) : LeavesWf (execCollectiveAbort x s) :=
  peerIn_leavesWf w _ _ fun _ w => by simpa using w

/-! ### Connections and frames -/

theorem execClovoData_leavesWf (m : Clovo) : LeavesWf (execClovoData m s) :=
  dataIn_leavesWf w m fun _ _ w => ite_wf (by simpa using w) w

theorem execClovoAck_leavesWf (m : Clovo) : LeavesWf (execClovoAck m s) :=
  clovoIn_leavesWf w m fun _ w => by
    split
    · simpa using w
    · simp only []
      split
      · exact ite_wf (by simpa using w) (by simpa using w)
      · simpa using w

theorem execClovoNakOrder_leavesWf (m : Clovo) : LeavesWf (execClovoNakOrder m s) :=
  clovoIn_leavesWf w m fun _ w => by split <;> simpa using w

theorem execClovoNakFull_leavesWf (m : Clovo) : LeavesWf (execClovoNakFull m s) :=
  clovoIn_leavesWf w m fun _ w => by split <;> simpa using w

theorem execRetryExpiry_leavesWf (conn : Nat) : LeavesWf (execRetryExpiry conn s) := by
  unfold execRetryExpiry
  refine LeavesWf.next ?_
  split
  · exact w
  · exact ite_wf (by simpa using w) w

theorem execAckTimer_leavesWf (conn : Nat) : LeavesWf (execAckTimer conn s) := by
  unfold execAckTimer
  refine LeavesWf.next ?_
  split
  · exact w
  · exact ite_wf (by simpa using w) w

theorem execRetransmitTimeout_leavesWf (conn : Nat) : LeavesWf (execRetransmitTimeout conn s) := by
  unfold execRetransmitTimeout
  refine LeavesWf.next ?_
  split
  · exact w
  · exact ite_wf (by simpa using w) w

theorem execConnectionLost_leavesWf (conn : Nat) : LeavesWf (execConnectionLost conn s) := by
  unfold execConnectionLost
  refine LeavesWf.next ?_
  split
  · exact w
  · exact ite_wf (by simpa using w) w

theorem execClovoOpen_leavesWf (m : Clovo) : LeavesWf (execClovoOpen m s) :=
  clovoIn_leavesWf w m fun _ w => ite_wf (by simpa using w) (ite_wf (by simpa using w) (by simpa using w))

theorem execClovoOpenack_leavesWf (m : Clovo) : LeavesWf (execClovoOpenack m s) :=
  clovoIn_leavesWf w m fun _ w => by
    split
    · exact ite_wf w (by simpa using w)
    · simpa using w

theorem execClovoClose_leavesWf (m : Clovo) : LeavesWf (execClovoClose m s) :=
  clovoIn_leavesWf w m fun _ w => by split <;> simpa using w

theorem execArpRequest_leavesWf (port : Nat) (ip : BitVec 32) : LeavesWf (execArpRequest port ip s) :=
  LeavesWf.next (ite_wf (by simpa using w) w)

theorem execNeighbourSolicitation_leavesWf (port : Nat) (ip : BitVec 128) : LeavesWf (execNeighbourSolicitation port ip s) :=
  LeavesWf.next (ite_wf (by simpa using w) w)

theorem execUnsupportedFrame_leavesWf (f : WireFrame) : LeavesWf (execUnsupportedFrame f s) :=
  LeavesWf.next (ite_wf (by simpa using w) w)

end

section
variable {s : State} (w : Memory.wf s.mem = true)
include w

/-! ### Work of the host -/

theorem execLaunch_leavesWf (rec : Nat) : LeavesWf (execLaunch rec s) :=
  startRec_leavesWf w _ _ _ fun r s w => by
    simp only []
    have tables := launchTables_wf w r.raw
    split
    · next e =>
      rw [e] at tables
      exact finishRec_wf tables _ _
    next mbtab deps s e =>
    rw [e] at tables
    have image := imageFor_wf (s := s) tables r.part (fieldOf r.raw 0x20 8)
    split
    · next e =>
      rw [e] at image
      exact finishRec_wf image _ _
    next k s e =>
    rw [e] at image
    have w : Memory.wf s.mem = true := image
    exact ite_wf (finishRec_wf w _ _) (advanceQueue_wf (by simpa using w) _ _)

theorem execTroupe_leavesWf (rec : Nat) : LeavesWf (execTroupe rec s) := by
  unfold execTroupe
  split
  · exact LeavesWf.next (ite_wf (tryTroupe_wf w _) w)
  · refine startRec_leavesWf w _ _ _ fun r s w => ?_
    split
    · exact finishRec_wf (by simpa using w) _ _
    · next h =>
      have w := readRange_wf w h
      exact ite_wf (finishRec_wf w _ _) (tryTroupe_wf (by simpa using w) _)

theorem execTroupeTwaitExpiry_leavesWf (rec : Nat) : LeavesWf (execTroupeTwaitExpiry rec s) := by
  unfold execTroupeTwaitExpiry
  refine LeavesWf.next ?_
  split
  · exact ite_wf (endTroupe_wf w _ _) w
  · exact w

theorem execWait_leavesWf (rec : Nat) : LeavesWf (execWait rec s) :=
  startRec_leavesWf w _ _ _ fun r s w => by
    simp only []
    split
    · exact finishRec_wf (by simpa using w) _ _
    · next h =>
      have w := reach_wf w h
      exact ite_wf (finishRec_wf w _ _) (by simpa using w)

theorem execSignal_leavesWf (rec : Nat) : LeavesWf (execSignal rec s) :=
  unlessWriteHeld_leavesWf w _ _ _ (startRec_leavesWf w _ _ _ fun r s w => by
    simp only []
    split
    · exact finishRec_wf (by simpa using w) _ _
    · next h => exact finishRec_wf (addDword_wf (reach_wf w h) _ _ _) _ _)

theorem execHostCopy_leavesWf (rec : Nat) : LeavesWf (execHostCopy rec s) := by
  unfold execHostCopy
  split
  · exact LeavesWf.next (ite_wf w (hostTake_wf w _))
  · exact unlessWriteHeld_leavesWf w _ _ _ (startRec_leavesWf w _ _ _ fun r s w => ite_wf (hostTake_wf w _) (hostGive_wf w _))

theorem execCueLoad_leavesWf (rec : Nat) : LeavesWf (execCueLoad rec s) :=
  startRec_leavesWf w _ _ _ fun r s w => by
    split
    · exact finishRec_wf (by simpa using w) _ _
    · next h =>
      have w := readRange_wf w h
      split
      · exact finishRec_wf w _ _
      · exact finishRec_wf (by simpa using w) _ _

theorem execCueSwap_leavesWf (rec : Nat) : LeavesWf (execCueSwap rec s) :=
  startRec_leavesWf w _ _ _ fun r s w => ite_wf (finishRec_wf w _ _) (finishRec_wf (by simpa using w) _ _)

theorem execPartCreate_leavesWf (rec : Nat) : LeavesWf (execPartCreate rec s) :=
  startRec_leavesWf w _ _ _ fun r s w => by
    split
    · exact finishRec_wf w _ _
    · exact finishRec_wf (by simpa using w) _ _

theorem execPartDestroy_leavesWf (rec : Nat) : LeavesWf (execPartDestroy rec s) :=
  startRec_leavesWf w _ _ _ fun r s w => by
    refine finishRec_wf (foldl_wf (fun _ _ w => ?_) _ (by simpa using w)) _ _
    simpa using releaseCopy_wf w _ _

theorem execRangeAcquire_leavesWf (rec : Nat) : LeavesWf (execRangeAcquire rec s) :=
  startRec_leavesWf w _ _ _ fun r s w =>
    ite_wf (finishRec_wf (by simpa using setOwner_wf w _ _ _ _) _ _) (refuseUnstated_wf w _)

theorem execRangeRelease_leavesWf (rec : Nat) : LeavesWf (execRangeRelease rec s) := by
  unfold execRangeRelease
  simp only []
  split
  · exact LeavesWf.next (ite_wf (ite_wf w (finishRec_wf w _ _)) w)
  · refine startRec_leavesWf w _ _ _ fun r s w => ite_wf ?_ (refuseUnstated_wf w _)
    have owned : Memory.wf (shootDown (setOwner s r.part (fieldOf r.raw 0x20 8) (fieldOf r.raw 0x28 8) false) r.part
        (fieldOf r.raw 0x20 8) (fieldOf r.raw 0x28 8)).mem = true := by simpa using setOwner_wf w _ _ _ _
    exact ite_wf owned (finishRec_wf owned _ _)

theorem execConnSet_leavesWf (rec : Nat) : LeavesWf (execConnSet rec s) := by
  unfold execConnSet
  refine .ite w (startRec_leavesWf w _ _ _ fun r s w => ?_)
  simp only []
  split
  · exact finishRec_wf w _ _
  · exact ite_wf (finishRec_wf (by simpa using w) _ _) w

theorem execCircuitLit_leavesWf (dieA dieB : Nat) : LeavesWf (execCircuitLit dieA dieB s) := by
  unfold execCircuitLit
  refine LeavesWf.next ?_
  split
  · exact w
  · refine ite_wf w ?_
    simp only []
    split
    · exact finishRec_wf (by simpa using w) _ _
    · exact w

/-! ### Debug records -/

theorem execReadCuestat_leavesWf (rec : Nat) : LeavesWf (execReadCuestat rec s) :=
  startRec_leavesWf w _ _ _ fun _ _ w => debugDone_wf w _ _ _

theorem execReadSchedstat_leavesWf (rec : Nat) : LeavesWf (execReadSchedstat rec s) :=
  startRec_leavesWf w _ _ _ fun _ _ w => debugDone_wf w _ _ _

theorem execDswap_leavesWf (rec : Nat) : LeavesWf (execDswap rec s) :=
  startRec_leavesWf w _ _ _ fun _ _ w => debugDone_wf (by simpa using w) _ _ _

theorem execReadAttestation_leavesWf (rec : Nat) : LeavesWf (execReadAttestation rec s) :=
  startRec_leavesWf w _ _ _ fun _ _ w => debugDone_wf w _ _ _

theorem execQset_leavesWf (rec : Nat) : LeavesWf (execQset rec s) :=
  startRec_leavesWf w _ _ _ fun _ _ w => debugDone_wf (by simpa using w) _ _ _

theorem execPstate_leavesWf (rec : Nat) : LeavesWf (execPstate rec s) :=
  startRec_leavesWf w _ _ _ fun r s w => by
    refine ite_wf (debugDone_wf (by simpa using w) _ _ _) ?_
    simp only []
    exact scramble_wf (debugDone_wf w _ _ _) _

theorem execCfgwrite_leavesWf (rec : Nat) : LeavesWf (execCfgwrite rec s) :=
  startRec_leavesWf w _ _ _ fun r s w => by
    split
    · exact debugDone_wf (by simpa using w) _ _ _
    · next h =>
      have w := readRange_wf w h
      exact ite_wf (debugDone_wf (by simpa using w) _ _ _) (debugDone_wf (by simpa using w) _ _ _)

theorem execRestartModule_leavesWf (rec : Nat) : LeavesWf (execRestartModule rec s) :=
  startRec_leavesWf w _ _ _ fun r s w => by
    simp only []
    exact stopModule_wf (debugDone_wf w _ _ _)

theorem execHandler_leavesWf (rec : Nat) : LeavesWf (execHandler rec s) := by
  unfold execHandler
  split
  · exact LeavesWf.next (ite_wf (endHandler_wf w _) w)
  · refine startRec_leavesWf w _ _ _ fun r s w => ?_
    simp only []
    split
    · exact debugDone_wf (by simpa using w) _ _ _
    · refine endHandler_wf ?_ _
      rw [modPart_mem, shootDown_mem]
      exact foldl_wf (fun _ _ w => setLeaf_wf w _ _ _) _ w

theorem execAttach_leavesWf (rec : Nat) : LeavesWf (execAttach rec s) :=
  startRec_leavesWf w _ _ _ fun _ _ w => debugDone_wf (by simpa using w) _ _ _

theorem execDetach_leavesWf (rec : Nat) : LeavesWf (execDetach rec s) :=
  startRec_leavesWf w _ _ _ fun _ _ w => debugDone_wf (by simpa using w) _ _ _

theorem execDebugHalt_leavesWf (rec : Nat) : LeavesWf (execDebugHalt rec s) :=
  startRec_leavesWf w _ _ _ fun r s w => by
    split
    · exact noTeam_wf w _
    · exact debugDone_wf (by simpa using w) _ _ _

theorem execDebugResume_leavesWf (rec : Nat) : LeavesWf (execDebugResume rec s) :=
  startRec_leavesWf w _ _ _ fun r s w => by
    split
    · exact noTeam_wf w _
    · exact ite_wf (debugDone_wf (by simpa using w) _ _ _) (noTeam_wf w _)

theorem execDebugStep_leavesWf (rec : Nat) : LeavesWf (execDebugStep rec s) := by
  unfold execDebugStep
  split
  · exact LeavesWf.next (ite_wf w (ite_wf (noTeam_wf w _) (ite_wf (debugDone_wf (by simpa using w) _ _ _) w)))
  · refine startRec_leavesWf w _ _ _ fun r s w => ?_
    split
    · exact noTeam_wf w _
    · exact ite_wf (noTeam_wf w _) (by simpa using w)

theorem execStepTimeout_leavesWf (rec : Nat) : LeavesWf (execStepTimeout rec s) := by
  unfold execStepTimeout
  refine LeavesWf.next ?_
  split
  · exact w
  · exact ite_wf (debugDone_wf (by simpa using w) _ _ _) w

theorem execDebugRead_leavesWf (rec : Nat) : LeavesWf (execDebugRead rec s) :=
  whenQuiet_leavesWf w _ (unlessWriteHeld_leavesWf w _ _ _ (startRec_leavesWf w _ _ _ fun r s w => by
    split
    · exact noTeam_wf w _
    · split
      · exact noTeam_wf w _
      · split
        next h => exact debugDone_wf (wf_snd (writeImage_wf w _ _ _ _) h) _ _ _))

theorem execDebugWrite_leavesWf (rec : Nat) : LeavesWf (execDebugWrite rec s) :=
  whenQuiet_leavesWf w _ (startRec_leavesWf w _ _ _ fun r s w => by
    split
    · exact noTeam_wf w _
    split
    · exact noTeam_wf w _
    split
    · exact debugDone_wf (by simpa using w) _ _ _
    next h =>
    have w := readImage_wf w h
    simp only []
    split
    · exact debugDone_wf w _ _ _
    · exact debugDone_wf (by simpa using w) _ _ _
    · exact noTeam_wf w _)

theorem execTrapimg_leavesWf (rec : Nat) : LeavesWf (execTrapimg rec s) :=
  unlessWriteHeld_leavesWf w _ _ _ (startRec_leavesWf w _ _ _ fun r s w => by
    split
    · exact noTeam_wf w _
    · split
      next h => exact debugDone_wf (wf_snd (writeImage_wf w _ _ _ _) h) _ _ _)

/-! ### Images of partitions -/

theorem execPartFreeze_leavesWf (rec : Nat) : LeavesWf (execPartFreeze rec s) := by
  unfold execPartFreeze
  split
  · exact LeavesWf.next (ite_wf (finishRec_wf w _ _) w)
  · exact startRec_leavesWf w _ _ _ fun r s w =>
      ite_wf (finishRec_wf w _ _) (ite_wf (finishRec_wf (by simpa using w) _ _) (by simpa using w))

theorem execPartResume_leavesWf (rec : Nat) : LeavesWf (execPartResume rec s) :=
  startRec_leavesWf w _ _ _ fun _ _ w => ite_wf (finishRec_wf (by simpa using w) _ _) (finishRec_wf w _ _)

theorem execImageOut_leavesWf (rec : Nat) : LeavesWf (execImageOut rec s) :=
  unlessWriteHeld_leavesWf w _ _ _ (startRec_leavesWf w _ _ _ fun r s w => by
    refine ite_wf (finishRec_wf w _ _) ?_
    split
    · exact finishRec_wf w _ _
    · exact finishRec_wf (writeImage_wf w _ _ _ _) _ _)

theorem execImageIn_leavesWf (rec : Nat) : LeavesWf (execImageIn rec s) :=
  startRec_leavesWf w _ _ _ fun r s w => by
    refine ite_wf (finishRec_wf w _ _) ?_
    split
    · exact finishRec_wf (by simpa using w) _ _
    next h =>
    have w := readImage_wf w h
    split
    · exact finishRec_wf w _ _
    · split
      next h =>
        refine finishRec_wf (wf_snd ?_ h) _ _
        split
        · exact imageInPart_wf w _ _ _
        · simpa using w

/-! ### Recovery points -/

theorem execCkptOpen_leavesWf (rec : Nat) : LeavesWf (execCkptOpen rec s) :=
  startCkpt_leavesWf w _ _ fun _ _ w => finishRec_wf (openPoint_wf w _) _ _

theorem execDomain_leavesWf (rec : Nat) : LeavesWf (execDomain rec s) :=
  startCkpt_leavesWf w _ _ fun r s w => by
    refine ite_wf (finishRec_wf w _ _) ?_
    simp only []
    split
    · exact finishRec_wf w _ _
    · exact finishRec_wf (by simpa using w) _ _

theorem execPartner_leavesWf (rec : Nat) : LeavesWf (execPartner rec s) :=
  startCkpt_leavesWf w _ _ fun r s w => by
    split
    · exact finishRec_wf w _ _
    · exact ite_wf (finishRec_wf (by simpa using w) _ _)
        (ite_wf (finishRec_wf (by simpa using w) _ _) (finishRec_wf (by simpa using w) _ _))

theorem execJread_leavesWf (rec : Nat) : LeavesWf (execJread rec s) :=
  unlessWriteHeld_leavesWf w _ _ _ (startCkpt_leavesWf w _ _ fun r s w => by
    split
    · exact finishRec_wf w _ _
    · exact finishRec_wf (writeRange_wf w _ _ _) _ _)

theorem execCommitEnd_leavesWf (part : Nat) (ok : Bool) : LeavesWf (execCommitEnd part ok s) := by
  unfold execCommitEnd
  refine LeavesWf.next (ite_wf w ?_)
  split
  · exact endCommits_wf (by simpa using w) _ _
  · split
    · exact w
    · exact ite_wf w (ite_wf (endCommits_wf (finishCommit_wf w _ _ _) _ _) (endCommits_wf (by simpa using w) _ _))

theorem execStallEnd_leavesWf (part : Nat) : LeavesWf (execStallEnd part s) := by
  unfold execStallEnd
  refine LeavesWf.next ?_
  split <;> simpa using w

theorem execCkptCommit_leavesWf (rec : Nat) : LeavesWf (execCkptCommit rec s) := by
  unfold execCkptCommit
  split
  · exact LeavesWf.next (ite_wf w (finishRec_wf w _ _))
  · exact startRec_leavesWf w _ _ _ fun _ _ w => ite_wf (by simpa using w) (finishRec_wf w _ _)

theorem execRestore_leavesWf (rec : Nat) : LeavesWf (execRestore rec s) := by
  unfold execRestore
  split
  · exact endRestore_wf w _
  · split
    · exact w
    · refine .ite w (startCkpt_leavesWf w _ _ fun r s w => ite_wf (finishRec_wf w _ _) ?_)
      split
      · exact finishRec_wf w _ _
      · refine ite_wf ?_ ?_
        · split
          · exact finishRec_wf w _ _
          · exact finishRec_wf (restoreFrom_wf w _ _ _ _) _ _
        · split
          · exact finishRec_wf w _ _
          · simpa using w

theorem execReplicaSegments_leavesWf (x : Clovo × Replica) : LeavesWf (execReplicaSegments x s) :=
  peerIn_leavesWf w _ _ fun _ w => takeReplica_wf w _ _

theorem execPartnerAck_leavesWf (m : Clovo) (x : PartnerReply) : LeavesWf (execPartnerAck m x s) :=
  peerIn_leavesWf w _ _ fun _ w => by simpa using w

theorem execPartnerFetch_leavesWf (m : Clovo) (part : Nat) (seq : Word) : LeavesWf (execPartnerFetch m part seq s) :=
  peerIn_leavesWf w _ _ fun _ w => by
    refine ite_wf w ?_
    split <;> simpa using w

/-! ### Power, starts and temperature -/

theorem execPs1Entry_leavesWf : LeavesWf (execPs1Entry s) := LeavesWf.next (ite_wf w w)

omit w in
theorem execPowerRemoved_leavesWf (s : State) : LeavesWf (execPowerRemoved s) := coldState_wf (s := s)

theorem execPowerOn_leavesWf : LeavesWf (execPowerOn s) := LeavesWf.next (ite_wf w w)

theorem execWarmStart_leavesWf (ok : Bool) (failed : List Nat) : LeavesWf (execWarmStart ok failed s) := by
  unfold execWarmStart
  refine LeavesWf.next (ite_wf w (ite_wf (coldStart_wf _ _) ?_))
  simpa using w

theorem execColdStart_leavesWf (ok : Bool) (failed : List Nat) : LeavesWf (execColdStart ok failed s) :=
  LeavesWf.next (ite_wf w (coldStart_wf _ _))

theorem execDieReset_leavesWf (die : Nat) : LeavesWf (execDieReset die s) := LeavesWf.next (ite_wf w (stopModule_wf w))

theorem execThermalHot_leavesWf (die : Nat) : LeavesWf (execThermalHot die s) := LeavesWf.next (ite_wf w w)

theorem execThermalClear_leavesWf : LeavesWf (execThermalClear s) := LeavesWf.next (ite_wf (by simpa using w) w)

theorem execThermalTrip_leavesWf (die : Nat) : LeavesWf (execThermalTrip die s) := by
  unfold execThermalTrip
  refine LeavesWf.next (ite_wf w ?_)
  have lost : Memory.wf (loseWork (if filterOn s then thermalReplies s else s)).mem = true :=
    loseWork_wf (ite_wf (by simpa using w) w)
  simp only []
  exact scramble_wf (by simpa using lost) _

theorem execThermalCooled_leavesWf : LeavesWf (execThermalCooled s) := LeavesWf.next (ite_wf w w)

end

theorem LeavesWf.ofMem {s t : State} (w : Memory.wf s.mem = true) (h : t.mem = s.mem) : LeavesWf (.next t) := by
  rw [← h] at w
  exact w

/-- Every instruction, event and operation of the cue leaves memory in its canonical form. -/
theorem exec_leavesWf {s : State} (w : Memory.wf s.mem = true) (i : Instr) : LeavesWf (exec i s) := by
  delta exec
  cases i with
  | add | sub | and | or | xor | andn | shl | shr | sra | min | max | minu | maxu | mul | mulh | mulhu | mulhsu | div | divu | rem | remu | seq |
  sne | slt | sltu | sle | sleu => exact opRR_wf w ..
  | clz | ctz | popc | mov | addi | andi | ori | xori | shli | shri | srai | slti | sltiu | seqi | movi | movk => exact opR_wf w ..
  | beq | bne | blt | bge => exact branchIf_wf w ..
  | bqt | bqf => exact branchQueue_wf w ..
  | jalr => exact execJalr_leavesWf w ..
  | mbrd => exact execMbrd_leavesWf w ..
  | mbput => exact execMbput_leavesWf w ..
  | rotrd => exact execRotrd_leavesWf w ..
  | rotwr => exact execRotwr_leavesWf w ..
  | jal => exact execJal_leavesWf w ..
  | loop => exact execLoop_leavesWf w ..
  | ldb | ldbu | ldh | ldhu | ldw | ldwu | ldd => exact loadH_wf w ..
  | lqb | lqbu | lqh | lqhu | lqw | lqwu | lqd => exact loadQ_wf w ..
  | sab | sah | saw | sad => exact storeAddress_wf w ..
  | qpop => exact execQpop_leavesWf w ..
  | sdq => exact execSdq_leavesWf w ..
  | xqput => exact execXqput_leavesWf w ..
  | xqget => exact execXqget_leavesWf w ..
  | bqput => exact execBqput_leavesWf w ..
  | tld | tst | gth | sct => exact issueXfer_wf w ..
  | spld => exact execSpld_leavesWf w ..
  | spst => exact execSpst_leavesWf w ..
  | amadd | ammin | ammax | amand | amor | amxor | amswp | amcas => exact atomic_wf w ..
  | rel | fence => exact release_wf w ..
  | acq c => exact execAcq_leavesWf w c
  | push => exact execPush_leavesWf w ..
  | swait => exact execSwait_leavesWf w ..
  | ssig => exact execSsig_leavesWf w ..
  | srd => exact execSrd_leavesWf w ..
  | ecreate => exact execEcreate_leavesWf w ..
  | ejoin => exact execEjoin_leavesWf w ..
  | eleave => exact execEleave_leavesWf w ..
  | equery => exact execEquery_leavesWf w ..
  | ebar => exact execEbar_leavesWf w ..
  | uimask => exact execUimask_leavesWf w ..
  | sysrd | sysrdTrapInfo => exact readSys_wf w ..
  | sysrdSigv => exact execSysrdSigv_leavesWf w ..
  | sysrdSigs => exact execSysrdSigs_leavesWf w ..
  | syswr => exact execSyswr_leavesWf w ..
  | syswrHeapWindow => exact execSyswrHeapWindow_leavesWf w ..
  | trap => exact .ofMem w (raise_mem ..)
  | cro => exact execCro_leavesWf w ..
  | locq => exact execLocq_leavesWf w ..
  | brk => exact execBrk_leavesWf w ..
  | rpopen => exact execRpopen_leavesWf w ..
  | rpcommit => exact execRpcommit_leavesWf w ..
  | rpwait => exact execRpwait_leavesWf w ..
  | vadd | vsub | vmul | vfma | vfms | vmin | vmax | vabs | vneg | vaddsat | vsubsat | vceq | vcne | vclt | vcle | vcgt | vcge | pand | por | pxor |
  pnot | pset | vand | vor | vxor | vandn | vnot | vshl | vshr | vsra | vshli | vshri | vsrai | vrsumr | vrsumc | vrmaxr | vrmaxc | vrminr | vrminc
  | vbcast | vtrans | vperm | vshuf | vcomp | vexpd | vsel | vmov | vmovi | vld | vst | vldac | pst | pld | cvt | cvtsr | rng | tint | tload =>
  exact issueVector_leavesWf w ..
  | shp => exact execShp_leavesWf w ..
  | shpr => exact execShpr_leavesWf w ..
  | mwld | mwldq | mclr | mswap | mcks | mmac => exact issueMatrix_leavesWf w ..
  | cuePfx => exact execCuePfx_leavesWf w ..
  | cueMov | cueLi | cueAdd | cueAddi | cueSub | cueAnd | cueOr | cueXor | cueShl | cueShr | cueSlt | cueSeq | cueMul | cueMin | cueMax | cueVget |
  cueCget | cueVglob => exact cueAlu_leavesWf w ..
  | cueBeq | cueBne | cueBlt | cueBge | cueJmp => exact cueBranch_leavesWf w ..
  | cueEach => exact execCueEach_leavesWf w ..
  | cueNext => exact execCueNext_leavesWf w ..
  | cuePick => exact execCuePick_leavesWf w ..
  | cuePlace => exact execCuePlace_leavesWf w ..
  | cueDeny => exact execCueDeny_leavesWf w ..
  | vectorCommand => exact execVectorCommand_leavesWf w ..
  | matrixCommand => exact execMatrixCommand_leavesWf w ..
  | loadReturn => exact execLoadReturn_leavesWf w ..
  | storePairing => exact execStorePairing_leavesWf w ..
  | tileTransferCompletion => exact execTileTransferCompletion_leavesWf w ..
  | wingsDrain => exact execWingsDrain_leavesWf w ..
  | queueProtocolError => exact execQueueProtocolError_leavesWf w ..
  | uliDelivery => exact execUliDelivery_leavesWf w ..
  | trapEntry => exact execTrapEntry_leavesWf w ..
  | semaphoreNotice => exact execSemaphoreNotice_leavesWf w ..
  | semaphorePoll => exact execSemaphorePoll_leavesWf w ..
  | pageWalk => exact execPageWalk_leavesWf w ..
  | pageFaultResolve => exact execPageFaultResolve_leavesWf w ..
  | threadEnd => exact execThreadEnd_leavesWf w ..
  | teamEnd => exact execTeamEnd_leavesWf w ..
  | taskEnd => exact execTaskEnd_leavesWf w ..
  | agreementPoint => exact execAgreementPoint_leavesWf w ..
  | vote => exact execVote_leavesWf w ..
  | dispatch => exact execDispatch_leavesWf w ..
  | preempt => exact execPreempt_leavesWf w ..
  | fault => exact execFault_leavesWf w ..
  | rebalance => exact execRebalance_leavesWf w ..
  | stop => exact execStop_leavesWf w ..
  | stopComplete => exact execStopComplete_leavesWf w ..
  | teamResume => exact execTeamResume_leavesWf w ..
  | moveMessage => exact execMoveMessage_leavesWf w ..
  | stagehandSegment => exact execStagehandSegment_leavesWf w ..
  | recordCompletion => exact execRecordCompletion_leavesWf w ..
  | collectiveRecordStart => exact execCollectiveRecordStart_leavesWf w ..
  | illegalInstruction => exact .ofMem w (raiseHere_mem ..)
  | agreementTimeout => exact execAgreementTimeout_leavesWf w ..
  | rebalPeriod => exact execRebalPeriod_leavesWf w ..
  | starveTimeout => exact execStarveTimeout_leavesWf w ..
  | collectiveFrame => exact execCollectiveFrame_leavesWf w ..
  | holdFrame => exact execHoldFrame_leavesWf w ..
  | holdTimer => exact execHoldTimer_leavesWf w ..
  | collectiveTimeout => exact execCollectiveTimeout_leavesWf w ..
  | collectiveAbort => exact execCollectiveAbort_leavesWf w ..
  | scrub | wakeWrite | firmwareMailboxMessage | greenRoom => exact w
  | eccError => exact execEccError_leavesWf w ..
  | clovoData => exact execClovoData_leavesWf w ..
  | clovoAck => exact execClovoAck_leavesWf w ..
  | clovoNakOrder => exact execClovoNakOrder_leavesWf w ..
  | clovoNakFull => exact execClovoNakFull_leavesWf w ..
  | retryExpiry => exact execRetryExpiry_leavesWf w ..
  | clovoOpen => exact execClovoOpen_leavesWf w ..
  | clovoOpenack => exact execClovoOpenack_leavesWf w ..
  | clovoClose => exact execClovoClose_leavesWf w ..
  | ackTimer => exact execAckTimer_leavesWf w ..
  | retransmitTimeout => exact execRetransmitTimeout_leavesWf w ..
  | connectionLost => exact execConnectionLost_leavesWf w ..
  | arpRequest => exact execArpRequest_leavesWf w ..
  | neighbourSolicitation => exact execNeighbourSolicitation_leavesWf w ..
  | unsupportedFrame => exact execUnsupportedFrame_leavesWf w ..
  | launch => exact execLaunch_leavesWf w ..
  | troupe => exact execTroupe_leavesWf w ..
  | troupeTwaitExpiry => exact execTroupeTwaitExpiry_leavesWf w ..
  | wait => exact execWait_leavesWf w ..
  | signal => exact execSignal_leavesWf w ..
  | hostCopy => exact execHostCopy_leavesWf w ..
  | cueLoad => exact execCueLoad_leavesWf w ..
  | cueSwap => exact execCueSwap_leavesWf w ..
  | partCreate => exact execPartCreate_leavesWf w ..
  | partDestroy => exact execPartDestroy_leavesWf w ..
  | rangeAcquire => exact execRangeAcquire_leavesWf w ..
  | rangeRelease => exact execRangeRelease_leavesWf w ..
  | ckptOpen => exact execCkptOpen_leavesWf w ..
  | domain => exact execDomain_leavesWf w ..
  | restore => exact execRestore_leavesWf w ..
  | partner => exact execPartner_leavesWf w ..
  | jread => exact execJread_leavesWf w ..
  | ckptCommit => exact execCkptCommit_leavesWf w ..
  | commitEnd => exact execCommitEnd_leavesWf w ..
  | stallEnd => exact execStallEnd_leavesWf w ..
  | replicaSegments => exact execReplicaSegments_leavesWf w ..
  | partnerAck => exact execPartnerAck_leavesWf w ..
  | partFreeze => exact execPartFreeze_leavesWf w ..
  | partResume => exact execPartResume_leavesWf w ..
  | imageOut => exact execImageOut_leavesWf w ..
  | imageIn => exact execImageIn_leavesWf w ..
  | connSet => exact execConnSet_leavesWf w ..
  | circuitLit => exact execCircuitLit_leavesWf w ..
  | readCuestat => exact execReadCuestat_leavesWf w ..
  | readSchedstat => exact execReadSchedstat_leavesWf w ..
  | dswap => exact execDswap_leavesWf w ..
  | readAttestation => exact execReadAttestation_leavesWf w ..
  | qset => exact execQset_leavesWf w ..
  | pstate => exact execPstate_leavesWf w ..
  | cfgwrite => exact execCfgwrite_leavesWf w ..
  | restartModule => exact execRestartModule_leavesWf w ..
  | handler => exact execHandler_leavesWf w ..
  | attach => exact execAttach_leavesWf w ..
  | detach => exact execDetach_leavesWf w ..
  | debugHalt => exact execDebugHalt_leavesWf w ..
  | debugResume => exact execDebugResume_leavesWf w ..
  | debugStep => exact execDebugStep_leavesWf w ..
  | stepTimeout => exact execStepTimeout_leavesWf w ..
  | debugRead => exact execDebugRead_leavesWf w ..
  | debugWrite => exact execDebugWrite_leavesWf w ..
  | trapimg => exact execTrapimg_leavesWf w ..
  | coldStart => exact execColdStart_leavesWf w ..
  | warmStart => exact execWarmStart_leavesWf w ..
  | dieReset => exact execDieReset_leavesWf w ..
  | thermalHot => exact execThermalHot_leavesWf w ..
  | thermalTrip => exact execThermalTrip_leavesWf w ..
  | inFieldTestDone => exact execInFieldTestDone_leavesWf w ..
  | partnerFetch => exact execPartnerFetch_leavesWf w ..
  | mark => exact execMark_leavesWf w ..
  | uret => exact execUret_leavesWf w ..
  | eret => exact execEret_leavesWf w ..
  | crc => exact execCrc_leavesWf w ..
  | sigchk => exact execSigchk_leavesWf w ..
  | halt => exact execHalt_leavesWf w ..
  | yield => exact .ofMem w (complete_mem ..)
  | wfi => exact execWfi_leavesWf w ..
  | ps1Entry => exact execPs1Entry_leavesWf w ..
  | powerOn => exact execPowerOn_leavesWf w ..
  | powerRemoved => exact execPowerRemoved_leavesWf s
  | thermalClear => exact execThermalClear_leavesWf w ..
  | thermalCooled => exact execThermalCooled_leavesWf w ..
  | inFieldTest => exact execInFieldTest_leavesWf w ..
  | scoreHalving => exact execScoreHalving_leavesWf w ..
  | cueStop => exact execCueStop_leavesWf w ..

theorem issueTurn_mem (s : State) (tid : Nat) (st : Stream) : (issueTurn s tid st).2.mem = s.mem := by
  unfold issueTurn
  split
  · rfl
  · next x h =>
    have kept := focus_mem h
    split
    · simp only []
      split <;> simpa using kept
    · rfl

theorem takeTurn_mem (s : State) (t : Turn) : (takeTurn s t).2.mem = s.mem := by
  cases t with
  | event e => rfl
  | issue tid st => exact issueTurn_mem s tid st
  | cue p => rfl

theorem select_mem (s : State) : (select s).2.mem = s.mem := by
  unfold select
  split
  · exact takeTurn_mem _ _
  · simp only []
    split
    · exact takeTurn_mem _ _
    · rfl

theorem andTick_leavesWf {r : Result} (h : LeavesWf r) : LeavesWf (andTick r) := by
  cases r with
  | next t => exact .ofMem h (tick_mem t)
  | fault | refused => trivial

theorem step_leavesWf {s : State} (w : Memory.wf s.mem = true) : LeavesWf (step s) := by
  have w : Memory.wf (select s).2.mem = true := by rwa [select_mem]
  unfold step
  split
  · next i t h => exact andTick_leavesWf (exec_leavesWf (wf_snd w h) i)
  · next t h => exact .ite trivial (.ofMem (wf_snd w h) (tick_mem t))

/-- Settles O60: a step leaves memory in canonical form, whichever turn is taken, since every instruction does (`exec_leavesWf`) and
neither the choice of a turn nor the tick of the clock touches memory. -/
theorem stepKeepsMemoryCanonical : Obligations.StepKeepsMemoryCanonical := by
  intro s t w h
  have left := step_leavesWf (s := s) w
  rwa [h] at left

end Sys2Proof.Machine
end

section
/-!
O26: the deadlock of R26 and the end of a thread. What raising queue protocol error leaves is said by the laws of traps (`raise_entered`,
`raise_access`); what is new here is that a thread which leaves its ensembles is in none of them (R31).
-/
namespace Sys2Proof.Machine

/-- An event of the thread whose context is selected runs there (log 3). -/
theorem onThread_selected {s : State} (live : s.thr.live = true) (resident : s.thr.resident = true) (k : State → State) :
    onThread s s.thr.tid k = k s := by
  simp [onThread, focus, live, resident]

/-! ### Queue protocol error (R26) -/

theorem raiseProtocol_entered {s : State} (can : CanEnter s) (clear : s.thr.trap = none) (running : s.thr.ex.ended = false) :
    Entered s (raiseProtocol s) .execute 0x10 s.thr.ex.pc 0 := by
  unfold raiseProtocol
  rw [running]
  exact raise_entered can clear 0x10 _ _ _ rfl

theorem raiseProtocol_waits {s : State} (clear : s.thr.trap = none) (ended : s.thr.ex.ended = true) :
    raiseProtocol s = modThr s fun t =>
      { t with trap := some { stream := .access, cause := 0x10, tpc := s.thr.ax.pc, taddr := 0 }, countOff := true } := by
  unfold raiseProtocol
  rw [ended, if_pos rfl, raise_access s 0x10 _ _ _ rfl]
  simp [modThr, clear, Thread.st]

theorem exec_queueProtocolError (tid : Nat) (s : State) : exec (.queueProtocolError tid) s = execQueueProtocolError tid s := rfl

theorem queueProtocolDeadlock : Sys2Proof.Claims.QueueProtocolDeadlock := by
  intro s live resident running clear counting long deadlock issues free
  have raised : exec (.queueProtocolError s.thr.tid) s = .next (raiseProtocol s) := by
    rw [exec_queueProtocolError, execQueueProtocolError, onThread_selected live resident]
    simp [long, deadlock, live, resident, running, counting, issues, free]
  refine ⟨fun executes can => ⟨_, raised, raiseProtocol_entered can clear executes⟩, fun ended => ?_⟩
  rw [raised, raiseProtocol_waits clear ended]

/-! ### Leaving the ensembles (R31) -/

@[simp] theorem settle_has (e : Ensemble) (m : Nat × Nat × Nat) : e.settle.has m = e.has m := by
  simp only [Ensemble.settle, Ensemble.has]
  split <;> simp [Function.comp_def]

/-- An ensemble that still has the member is another one, which nothing has happened to. -/
theorem leaveEnsemble_keeps {s : State} {slot : Nat} {m : Nat × Nat × Nat} {e : Ensemble} (here : e ∈ (leaveEnsemble s slot m).ensembles)
    (has : e.has m = true) : e ∈ s.ensembles ∧ e.slot ≠ slot := by
  simp only [leaveEnsemble, modEnsemble, List.mem_filter, List.mem_map] at here
  obtain ⟨⟨x, old, rfl⟩, -⟩ := here
  by_cases other : x.slot = slot
  · rw [if_pos (by simpa using other), settle_has] at has
    simp [Ensemble.has] at has
  · rw [if_neg (by simpa using other)]
    exact ⟨old, other⟩

theorem leaveEnsembles_keeps {m : Nat × Nat × Nat} {e : Ensemble} (has : e.has m = true) (l : List Ensemble) {s : State}
    (here : e ∈ (l.foldl (fun s x => leaveEnsemble s x.slot m) s).ensembles) : e ∈ s.ensembles ∧ ∀ x ∈ l, e.slot ≠ x.slot := by
  induction l generalizing s with
  | nil => exact ⟨here, by simp⟩
  | cons x l ih =>
    obtain ⟨left, others⟩ := ih here
    obtain ⟨old, other⟩ := leaveEnsemble_keeps left has
    exact ⟨old, List.forall_mem_cons.mpr ⟨other, others⟩⟩

/-- Who leaves every ensemble is a member of none. -/
theorem leaveAll_has (s : State) (m : Nat × Nat × Nat) : ∀ e ∈ (leaveAll s m).ensembles, e.has m = false := by
  refine fun e here => Bool.eq_false_iff.mpr fun has => ?_
  obtain ⟨old, others⟩ := leaveEnsembles_keeps has _ here
  exact others e (List.mem_filter.mpr ⟨old, has⟩) rfl

/-! ### The end of a thread (R28, R366) -/

theorem threadDone_ended {t : Thread} (done : threadDone t = true) : t.ex.ended = true ∧ t.trap = none := by
  simp only [threadDone, Bool.and_eq_true, Option.isNone_iff_eq_none, and_assoc] at done
  obtain ⟨-, -, -, ended, -, -, -, -, -, -, clear, -⟩ := done
  exact ⟨ended, clear⟩

theorem finishThread_ensembles {s : State} (single : s.thr.sys.tstat.pclass ≠ 2) :
    (finishThread s).ensembles = (leaveAll (lineUp s) (memberOf s.thr)).ensembles := by
  have own : ¬ (((lineUp s).thr.sys.tstat.pclass == 2) = true) := by simpa [lineUp] using single
  simp only [finishThread, if_neg own]
  rfl

theorem exec_threadEnd (tid : Nat) (s : State) : exec (.threadEnd tid) s = execThreadEnd tid s := rfl

theorem threadEnds : Sys2Proof.Claims.ThreadEnds := by
  intro s live resident done
  obtain ⟨ended, clear⟩ := threadDone_ended done
  simp only [exec_threadEnd, execThreadEnd, onThread_selected live resident, done]
  refine ⟨fun empty single => ?_, fun empty paired replica => ⟨fun waits => ?_, fun agreed => ?_⟩, fun left => ?_⟩
  · refine ⟨finishThread s, by simpa [empty] using fun paired => absurd paired single, rfl, rfl, rfl, finishThread_mem s, ?_⟩
    rw [finishThread_ensembles single]
    exact leaveAll_has _ _
  · have other : s.thr.rep ≠ 2 := by omega
    simp [empty, paired, waits, other, Thread.atAgreement]
  · exact ⟨finishThread s, by simp [empty, paired, agreed], rfl, rfl, rfl, finishThread_mem s⟩
  · simp [left, raiseProtocol_waits clear ended]

/-- Settles O26: the deadlock of R26 and a queue that is not empty at the end raise queue protocol error; else the thread ends, under P2 once
it has agreed. -/
theorem threadsEnd : Obligations.ThreadsEnd := ⟨queueProtocolDeadlock, threadEnds⟩

end Sys2Proof.Machine
end

section
/-!
O28: the ends of teams and tasks. After the work has been removed, records complete, copies are released and queues go on; none of that brings a
task, a team or a thread back, which is said of each function once, through what it leaves of the roster (the lemmas `foo_roster`).
-/
namespace Sys2Proof.Machine

/-! ### Requests to the Stage Manager (R309) -/

/-- They change nothing but the partitions. -/
theorem raiseFaults_outside (s : State) (p : Nat) : raiseFaults s p = { s with parts := (raiseFaults s p).parts } :=
  List.foldlRecOn (motive := fun t : State => t = { s with parts := t.parts }) _ _ rfl fun t ht _ _ => by
    rw [ht]
    rfl

theorem roomChanged_outside (s : State) (p : Nat) : roomChanged s p = { s with parts := (roomChanged s p).parts } := by
  unfold roomChanged
  rw [raiseFaults_outside]
  rfl

theorem roomChanged_tasks (s : State) (p : Nat) : (roomChanged s p).tasks = s.tasks := by rw [roomChanged_outside]
theorem roomChanged_threads (s : State) (p : Nat) : (roomChanged s p).threads = s.threads := by rw [roomChanged_outside]; rfl

/-! ### Threads and tasks that change -/

theorem mem_threads_dropThreads {s : State} {gone : Thread → Bool} {x : Thread} (here : x ∈ (dropThreads s gone).threads)
    (live : x.live = true) : gone x = false := by
  obtain rfl | rest := List.mem_cons.mp here
  · by_cases left : gone s.thr = true
    · simp [dropThreads, left, Thread.blank] at live
    · simp [dropThreads, left]
  · simpa using (List.mem_filter.mp rest).2

theorem findTask_modTask (s : State) (id : Nat) (f : Task → Task) (keeps : ∀ k, (f k).id = k.id) :
    findTask (modTask s id f) id = (findTask s id).map f := by
  have same : ((fun k : Task => k.id == id) ∘ fun k => if k.id == id then f k else k) = fun k => k.id == id := by
    funext k
    by_cases named : k.id = id <;> simp [named, keeps]
  simp only [findTask, modTask, List.find?_map, same]
  exact Option.map_congr fun k found => if_pos (List.find?_some found)

theorem mem_insertNat {l : List Nat} {a b : Nat} : b ∈ insertNat l a ↔ b = a ∨ b ∈ l := by
  induction l with
  | nil => simp [insertNat]
  | cons k l ih =>
    unfold insertNat
    split
    · simp
    · split
      · next same => simp [eq_of_beq same]
      · simp [ih, or_left_comm]

/-! ### The end of a team (R28) -/

/-- The task when it has counted the team, and keeps its mailboxes. -/
def Task.counted (k : Task) (u : Team) : Task := { k with endedTeams := insertNat k.endedTeams u.ix, mbs := k.mbs.set u.ix u.mb }

theorem closeTeam_tasks (s : State) (u : Team) : (closeTeam s u).tasks = (modTask s u.task fun k => k.counted u).tasks := by
  simp only [closeTeam, roomChanged_tasks]
  rfl

theorem closeTeam_threads {s : State} {u : Team} (here : u ∈ s.teams) {x : Thread} (left : x ∈ (closeTeam s u).threads) (live : x.live = true) :
    x.team ≠ u.id := by
  simp only [closeTeam, roomChanged_threads] at left
  have others := mem_threads_dropThreads left live
  simp only [List.any_eq_false, beq_iff_eq] at others
  exact fun same => others u (by simp [replicasOf, here]) same.symm

theorem findTask_closeTeam (s : State) (u : Team) : findTask (closeTeam s u) u.task = (findTask s u.task).map fun k => k.counted u :=
  (congrArg (List.find? fun k : Task => k.id == u.task) (closeTeam_tasks s u)).trans (findTask_modTask s u.task _ (by simp [Task.counted]))

theorem exec_teamEnd (n : Nat) (s : State) : exec (.teamEnd n) s = execTeamEnd n s := rfl

theorem teamEnds : Sys2Proof.Claims.TeamEnds := by
  intro s u k found resident first ended single task
  have here : u ∈ s.teams := List.mem_of_find?_eq_some found
  have alone : s.teams.find? (fun w => w.task == u.task && w.ix == u.ix && w.rep == 1) = none := by
    rw [List.find?_eq_none]
    intro w hw second
    simp only [Bool.and_eq_true, beq_iff_eq] at second
    obtain ⟨⟨sameTask, sameIx⟩, replica⟩ := second
    rw [single w hw sameTask sameIx, first] at replica
    omega
  refine ⟨closeTeam s u, k.counted u, ?_, by rw [findTask_closeTeam, task]; rfl, mem_insertNat.mpr (.inl rfl), rfl,
    fun n old => mem_insertNat.mpr (.inr old), closeTeam_mem s u, fun x => closeTeam_threads here⟩
  simp only [exec_teamEnd, execTeamEnd, found, resident, ended, first, alone]
  rfl

/-! ### Who is in the module -/

/-- The tasks, teams and threads that are there: the tasks' numbers, the task of each team, and of each thread whether it is one and of which
task. -/
def State.roster (s : State) : List Nat × List Nat × List (Bool × Nat) :=
  (s.tasks.map (·.id), s.teams.map (·.task), s.threads.map fun x => (x.live, x.task))

/-- Nothing of the task is in the module. -/
def TaskGone (s : State) (id : Nat) : Prop :=
  (∀ j ∈ s.tasks, j.id ≠ id) ∧ (∀ u ∈ s.teams, u.task ≠ id) ∧ ∀ x ∈ s.threads, x.live = true → x.task ≠ id

theorem taskGone_iff_roster {s : State} {id : Nat} :
    TaskGone s id ↔ id ∉ s.roster.1 ∧ id ∉ s.roster.2.1 ∧ (true, id) ∉ s.roster.2.2 := by
  simp [TaskGone, State.roster]

theorem TaskGone.of_roster {s t : State} {id : Nat} (gone : TaskGone s id) (same : t.roster = s.roster) : TaskGone t id := by
  rwa [taskGone_iff_roster, same, ← taskGone_iff_roster]

theorem foldl_roster {α : Type} {f : State → α → State} (keeps : ∀ s a, (f s a).roster = s.roster) (l : List α) (s : State) :
    (l.foldl f s).roster = s.roster :=
  List.foldlRecOn (motive := fun t : State => t.roster = s.roster) l f rfl fun _ same _ _ => (keeps _ _).trans same

@[simp] theorem ite_roster (c : Prop) [Decidable c] (a b : State) : (if c then a else b).roster = if c then a.roster else b.roster := apply_ite ..

theorem ite_roster_eq {c : Prop} [Decidable c] {a b s : State} (ha : a.roster = s.roster) (hb : b.roster = s.roster) :
    (if c then a else b).roster = s.roster := by
  split
  · exact ha
  · exact hb

@[simp] theorem logError_roster (s : State) (n : Nat) : (logError s n).roster = s.roster := rfl
@[simp] theorem modConn_roster (s : State) (id : Nat) (f : Conn → Conn) : (modConn s id f).roster = s.roster := rfl
@[simp] theorem unarm_roster (s : State) (tid : Nat) : (unarm s tid).roster = s.roster := rfl
@[simp] theorem roomChanged_roster (s : State) (p : Nat) : (roomChanged s p).roster = s.roster := by rw [roomChanged_outside]; rfl
@[simp] theorem writePhys_roster (s : State) (p : Option Nat) (pa : Nat) (bs : List Byte) (owner : Option Nat) :
    (writePhys s p pa bs owner).roster = s.roster := by rw [writePhys_frame]; rfl
@[simp] theorem addDword_roster (s : State) (p pa : Nat) (v : Word) : (addDword s p pa v).roster = s.roster := writePhys_roster ..
@[simp] theorem setDirty_roster (s : State) (pte : Option Nat) : (setDirty s pte).roster = s.roster := by rw [setDirty_frame]; rfl
@[simp] theorem setLeaf_roster (s : State) (p va : Nat) (f : Nat → Nat) : (setLeaf s p va f).roster = s.roster := by unfold setLeaf; split <;> rfl
@[simp] theorem logMalformed_roster (s : State) (p va : Nat) : (logMalformed s p va).roster = s.roster := by unfold logMalformed; split <;> rfl

theorem modTask_roster (s : State) (id : Nat) {f : Task → Task} (keeps : ∀ k, (f k).id = k.id) : (modTask s id f).roster = s.roster := by
  have same (k : Task) : (if k.id == id then f k else k).id = k.id := by split <;> simp [keeps]
  simp only [State.roster, State.threads, modTask, List.map_map, Function.comp_def, same]

theorem modTid_roster (s : State) (tid : Nat) {f : Thread → Thread} (keeps : ∀ t, (f t).live = t.live ∧ (f t).task = t.task) :
    (modTid s tid f).roster = s.roster := by
  have same (t : Thread) : ((if t.tid == tid then f t else t).live, (if t.tid == tid then f t else t).task) = (t.live, t.task) := by
    split <;> simp [keeps]
  simp only [State.roster, State.threads, modTid, mapThreads, List.map_cons, List.map_map, Function.comp_def, same]

@[simp] theorem endTask_roster (s : State) (task code detail : Nat) : (endTask s task code detail).roster = s.roster :=
  modTask_roster s task fun k => by split <;> rfl

@[simp] theorem rereadWaits_roster (s : State) (p va len : Nat) : (rereadWaits s p va len).roster = s.roster := by
  refine foldl_roster (fun t tid => ?_) _ s
  exact (modTid_roster _ tid (by simp)).trans (unarm_roster t tid)

@[simp] theorem shootDown_roster (s : State) (p va len : Nat) : (shootDown s p va len).roster = s.roster := rereadWaits_roster ..

/-! ### Pages (R280, R284) -/

theorem frameNext_roster (s : State) (f : Nat) : ({ s with frameNext := f } : State).roster = s.roster := rfl
theorem framePool_roster (s : State) (l : List (Nat × Nat)) : ({ s with framePool := l } : State).roster = s.roster := rfl

@[simp] theorem takeFrame_roster (s : State) : (takeFrame s).2.roster = s.roster := by
  unfold takeFrame
  simp only []
  split
  · exact framePool_roster s _
  · exact frameNext_roster s _

@[simp] theorem takeFor_roster (s : State) (p : Nat) : (takeFor s p).2.roster = s.roster := takeFrame_roster s
@[simp] theorem takeTable_roster (s : State) (p : Nat) : (takeTable s p).2.roster = s.roster := takeFrame_roster s

@[simp] theorem nextTable_roster (s : State) (p table ix : Nat) : (nextTable s p table ix).2.roster = s.roster := by
  unfold nextTable
  simp only []
  split
  · rfl
  · exact takeTable_roster s p

@[simp] theorem mapPage_roster (s : State) (p va leaf : Nat) : (mapPage s p va leaf).roster = s.roster := by
  unfold mapPage
  simp only []
  split
  · exact (nextTable_roster ..).trans ((nextTable_roster ..).trans ((nextTable_roster ..).trans ((nextTable_roster ..).trans (takeTable_roster s p))))
  · exact (nextTable_roster ..).trans ((nextTable_roster ..).trans ((nextTable_roster ..).trans (nextTable_roster ..)))

theorem demandMap_roster {s t : State} {p va : Nat} (h : demandMap s p va = some t) : t.roster = s.roster := by
  unfold demandMap at h
  split at h
  · cases h; exact (mapPage_roster ..).trans (takeFor_roster s p)
  · cases h

theorem copyOnTouch_roster {s t : State} {p va : Nat} {k : Kind} (h : copyOnTouch s p k va = some t) : t.roster = s.roster := by
  unfold copyOnTouch at h
  split at h
  · split at h
    · cases h; rfl
    · cases h
  · cases h

theorem resolveFault_roster {s t : State} {p va : Nat} {k : Kind} (h : resolveFault s p k va = some t) : t.roster = s.roster := by
  unfold resolveFault at h
  split at h
  · cases h; rfl
  · split at h
    · next mapped => cases h; exact demandMap_roster mapped
    · exact copyOnTouch_roster h

theorem reachNow_roster {s t : State} {p : Nat} {k : Kind} {va n pa : Nat} (h : reachNow s p k va n = some (pa, t)) : t.roster = s.roster := by
  unfold reachNow at h
  split at h
  · cases h
    cases k with
    | store => exact setDirty_roster ..
    | load => rfl
  · cases h

theorem reach_roster {s t : State} {p : Nat} {k : Kind} {va n pa : Nat} (h : reach s p k va n = some (pa, t)) : t.roster = s.roster := by
  unfold reach at h
  split at h
  · next now => cases h; exact reachNow_roster now
  · split at h
    · cases h
    · next resolved => exact (reachNow_roster h).trans ((resolveFault_roster resolved).trans (logMalformed_roster ..))

theorem writeVirt_roster (s : State) (p fuel va : Nat) (bs : List Byte) (done : Nat) : (writeVirt s p fuel va bs done).2.roster = s.roster := by
  induction fuel generalizing s va bs done with
  | zero => rfl
  | succ n ih =>
    unfold writeVirt
    split
    · rfl
    · simp only []
      split
      · exact logMalformed_roster ..
      · next reached => exact (ih ..).trans ((writePhys_roster ..).trans (reach_roster reached))

@[simp] theorem writeRange_roster (s : State) (p va : Nat) (bs : List Byte) : (writeRange s p va bs).2.roster = s.roster := writeVirt_roster ..

@[simp] theorem addVirt_roster (s : State) (p va : Nat) (v : Word) : (addVirt s p va v).roster = s.roster := by
  unfold addVirt
  split
  · next reached => exact (addDword_roster ..).trans (reach_roster reached)
  · simp

/-! ### Messages and completions (R332, R336) -/

@[simp] theorem transmit_roster (s : State) (id i : Nat) : (transmit s id i).roster = s.roster := by
  unfold transmit
  split
  · rfl
  · simp [foldl_roster (f := fun s m => send s (Conn.dataOut _ _ m)) (fun _ _ => rfl)]

@[simp] theorem sendData_roster (s : State) (id : Nat) (payload : Payload) : (sendData s id payload).roster = s.roster := by
  unfold sendData
  split <;> simp

@[simp] theorem replyTo_roster (s : State) (conn : Nat) (payload : List Byte) : (replyTo s conn payload).roster = s.roster := by
  unfold replyTo
  split
  · rfl
  · split <;> simp

@[simp] theorem completionActions_roster (s : State) (raw : List Byte) (conn : Nat) (st : Status) :
    (completionActions s raw conn st).roster = s.roster := by
  simp [completionActions]

@[simp] theorem releaseCopy_roster (s : State) (p : Nat) (k : KImage) : (releaseCopy s p k).roster = s.roster := by
  have cleared (l : List Nat) : (l.foldl (fun s a => setLeaf s p a fun _ => 0) s).roster = s.roster := foldl_roster (fun _ _ => setLeaf_roster ..) l s
  unfold releaseCopy
  exact ite_roster_eq rfl ((shootDown_roster ..).trans (cleared _))

/-! ### Task queues (R36, R37) -/

theorem readDeps_roster (s : State) (id n : Nat) : (readDeps s id n).roster = s.roster := by
  induction n generalizing s with
  | zero => rfl
  | succ n ih =>
    unfold readDeps
    split
    · rfl
    · split
      · exact modTask_roster s id fun _ => rfl
      · split
        · simp
        · next reached =>
          rw [← reach_roster reached]
          split
          · exact (ih _).trans (modTask_roster _ id fun _ => rfl)
          · exact modTask_roster _ id fun _ => rfl

@[simp] theorem advanceQueue_roster (s : State) (p q : Nat) : (advanceQueue s p q).roster = s.roster := by
  unfold advanceQueue
  split
  · rfl
  · split
    · rfl
    · simp [readDeps_roster, modTask_roster]

/-! ### The end of a task (R28, R370, R382) -/

theorem closeTask_gone (s : State) (k : Task) (st : Status) : TaskGone (closeTask s k st) k.id := by
  unfold closeTask
  extract_lets frames t members left dropped ended removed completed
  have gone : TaskGone removed k.id := by
    refine ⟨fun j here => ?_, fun u here => ?_, fun x here live => ?_⟩
    · simpa using (List.mem_filter.mp here).2
    · simpa using (List.mem_filter.mp here).2
    · have here : x ∈ dropped.threads := here
      simpa using mem_threads_dropThreads here live
  exact gone.of_roster (by simp [completed])

/-- Teams that have been told one by one to be otherwise than resident: one that still is has not been told, and is as it was. -/
theorem foldl_modTeam_resident {f : Team → Team} (stops : ∀ v, (f v).status ≠ .resident)
    (l : List Team) {s : State} {u : Team} (here : u ∈ (l.foldl (fun s w => modTeam s w.id f) s).teams) (resident : u.status = .resident) :
    u ∈ s.teams ∧ ∀ w ∈ l, u.id ≠ w.id := by
  induction l generalizing s with
  | nil => exact ⟨here, by simp⟩
  | cons w l ih =>
    obtain ⟨left, others⟩ := ih here
    obtain ⟨v, old, same⟩ := List.mem_map.mp left
    by_cases told : v.id = w.id
    · rw [if_pos (by simpa using told)] at same
      exact absurd resident (same ▸ stops v)
    · rw [if_neg (by simpa using told)] at same
      subst same
      exact ⟨old, List.forall_mem_cons.mpr ⟨told, others⟩⟩

theorem exec_taskEnd (n : Nat) (s : State) : exec (.taskEnd n) s = execTaskEnd n s := rfl

theorem taskEnds : Sys2Proof.Claims.TaskEnds := by
  intro s k found free
  simp only [exec_taskEnd, execTaskEnd, found]
  refine ⟨fun running all => ?_, fun code detail ending stopped => ?_, fun code detail ending standing => ?_⟩
  · simp only [running]
    exact ⟨_, congrArg _ (if_pos (by simp [all, free])), closeTask_gone _ k _⟩
  · have idle : ((s.teams.filter fun u => u.task == k.id).any fun u => u.status == .resident || u.status == .stopping) = false := by
      simp only [List.any_eq_false, List.mem_filter]
      rintro u ⟨here, own⟩
      simpa using stopped u here (by simpa using own)
    simp only [ending, idle, free]
    exact ⟨_, rfl, closeTask_gone _ k _⟩
  · have busy : ((s.teams.filter fun u => u.task == k.id).any fun u => u.status == .resident || u.status == .stopping) = true := by
      obtain ⟨u, here, own, resident⟩ := standing
      exact List.any_eq_true.mpr ⟨u, List.mem_filter.mpr ⟨here, by simpa using own⟩, by simp [resident]⟩
    simp only [ending]
    refine ⟨_, congrArg _ (if_pos busy), ?_, fun u here own resident => ?_⟩
    · refine foldl_mem (fun _ _ => ?_) _ s
      rfl
    · obtain ⟨old, others⟩ := foldl_modTeam_resident (fun v => by split <;> simp_all) _ here resident
      exact others u (List.mem_filter.mpr ⟨old, by simpa using own⟩) rfl

/-- Settles O28: the end of a team is counted by its task and drops its threads; a task that completes leaves nothing of itself in the module
(`closeTask_gone`), and one that is being ended first tells its resident teams to stop (`foldl_modTeam_resident`). -/
theorem teamsAndTasksEnd : Obligations.TeamsAndTasksEnd := ⟨teamEnds, taskEnds⟩

end Sys2Proof.Machine
end

section
/-!
O56 and O57: decoding and encoding. What each field of R47 and R49 reads from a word put together by its format comes first; with it the
tables of `decodeRaw` and `decodeCueRaw` give back every instruction, one argument for each format.
-/
namespace Sys2Proof

/-! ### Fields of the formats (R47, R49) -/

section
variable (m : BitVec 6) (d a b : BitVec 5) (fn : BitVec 11)

theorem fD_rr : fD (rr m d a b fn) = d := by
  unfold fD rr
  repeat rw [BitVec.extractLsb'_append_eq_of_le (by decide)]
  exact BitVec.extractLsb'_append_eq_right

theorem fA_rr : fA (rr m d a b fn) = a := by
  unfold fA rr
  repeat rw [BitVec.extractLsb'_append_eq_of_le (by decide)]
  exact BitVec.extractLsb'_append_eq_right

theorem fB_rr : fB (rr m d a b fn) = b := by
  unfold fB rr
  rw [BitVec.extractLsb'_append_eq_of_le (by decide)]
  exact BitVec.extractLsb'_append_eq_right

theorem fFn_rr : fFn (rr m d a b fn) = fn := BitVec.extractLsb'_append_eq_right

theorem extract_rr {start len : Nat} (inFn : start + len ≤ 11) : (rr m d a b fn).extractLsb' start len = fn.extractLsb' start len :=
  BitVec.extractLsb'_append_eq_of_add_le inFn

theorem getLsbD_rr {i : Nat} (inFn : i < 11) : (rr m d a b fn).getLsbD i = fn.getLsbD i :=
  BitVec.getLsbD_append.trans (if_pos inFn)

end

section
variable (m : BitVec 6) (d a : BitVec 5) (i : BitVec 16)

theorem fD_ri : fD (ri m d a i) = d := by
  unfold fD ri
  repeat rw [BitVec.extractLsb'_append_eq_of_le (by decide)]
  exact BitVec.extractLsb'_append_eq_right

theorem fA_ri : fA (ri m d a i) = a := by
  unfold fA ri
  rw [BitVec.extractLsb'_append_eq_of_le (by decide)]
  exact BitVec.extractLsb'_append_eq_right

theorem fImm_ri : fImm (ri m d a i) = i := BitVec.extractLsb'_append_eq_right

end

section
variable (m : BitVec 6) (d : BitVec 5) (o : BitVec 21)

theorem fD_jl : fD (jl m d o) = d := by
  unfold fD jl
  rw [BitVec.extractLsb'_append_eq_of_le (by decide)]
  exact BitVec.extractLsb'_append_eq_right

theorem extract_jl : (jl m d o).extractLsb' 0 21 = o := BitVec.extractLsb'_append_eq_right

end

section
variable (m : BitVec 6) (l : BitVec 2) (s : Bool) (r : BitVec 5) (n : BitVec 10)

theorem level_lp : (lp m l s r n).extractLsb' 24 2 = l := by
  unfold lp
  repeat rw [BitVec.extractLsb'_append_eq_of_le (by decide)]
  exact BitVec.extractLsb'_append_eq_right

theorem source_lp : (lp m l s r n).getLsbD 23 = s := by
  unfold lp
  repeat rw [BitVec.getLsbD_append, if_neg (by decide)]
  rw [BitVec.getLsbD_append, if_pos (by decide), BitVec.getLsbD_ofBool]
  rfl

theorem register_lp : (lp m l s r n).extractLsb' 18 5 = r := by
  unfold lp
  repeat rw [BitVec.extractLsb'_append_eq_of_le (by decide)]
  exact BitVec.extractLsb'_append_eq_right

theorem length_lp : (lp m l s r n).extractLsb' 8 10 = n := by
  unfold lp
  rw [BitVec.extractLsb'_append_eq_of_le (by decide)]
  exact BitVec.extractLsb'_append_eq_right

end

section
variable (m : BitVec 6) (d b : BitVec 5) (k : BitVec 4) (o : BitVec 12)

theorem fD_am : fD (am m d b k o) = d := by
  unfold fD am
  repeat rw [BitVec.extractLsb'_append_eq_of_le (by decide)]
  exact BitVec.extractLsb'_append_eq_right

theorem fA_am : fA (am m d b k o) = b := by
  unfold fA am
  repeat rw [BitVec.extractLsb'_append_eq_of_le (by decide)]
  exact BitVec.extractLsb'_append_eq_right

theorem fKind_am : fKind (am m d b k o) = k := by
  unfold fKind am
  rw [BitVec.extractLsb'_append_eq_of_le (by decide)]
  exact BitVec.extractLsb'_append_eq_right

theorem fOff_am : fOff (am m d b k o) = o := BitVec.extractLsb'_append_eq_right

theorem extract_am : (am m d b k o).extractLsb' 0 9 = o.extractLsb' 0 9 := BitVec.extractLsb'_append_eq_of_add_le (by decide)

end

/-! Format SY is format AM with major 0x2F. -/

section
variable (d a : BitVec 5) (k : BitVec 4) (n : BitVec 12)

theorem fD_sy : fD (sy d a k n) = d := fD_am ..
theorem fA_sy : fA (sy d a k n) = a := fA_am ..
theorem fKind_sy : fKind (sy d a k n) = k := fKind_am ..
theorem fOff_sy : fOff (sy d a k n) = n := fOff_am ..

theorem flag_sy (f : Bool) : (sy d a k (0#11 ++ BitVec.ofBool f)).getLsbD 0 = f :=
  BitVec.getLsbD_append.trans (by cases f <;> rfl)

end

section
variable (m : BitVec 6) (fn : BitVec 5) (f : Wide)

theorem fFn5_wide0 : fFn5 (wide0 m fn f) = fn := BitVec.extractLsb'_append_eq_right

theorem zm_wide1 : (wide1 f).getLsbD 22 = f.zm := by
  unfold wide1
  repeat rw [BitVec.getLsbD_append, if_neg (by decide)]
  rw [BitVec.getLsbD_append, if_pos (by decide), BitVec.getLsbD_ofBool]
  rfl

theorem wideOf_wide : wideOf (wide0 m fn f) (wide1 f) = f := by
  unfold wideOf
  rw [zm_wide1]
  unfold wide0 wide1
  congr 1
  case e_pred =>
    repeat rw [BitVec.extractLsb'_append_eq_of_le (by decide)]
    exact BitVec.extractLsb'_eq_self
  all_goals
    repeat rw [BitVec.extractLsb'_append_eq_of_le (by decide)]
    exact BitVec.extractLsb'_append_eq_right

end

/-! ### Instructions and their words -/

/-- The words of an instruction are as long as their first word says (R45), and the table gives back the instruction. -/
def RoundTrips (i : Instr) : Prop :=
  match encode i with
  | .one w => twoWords w = false ∧ ∀ w1, decodeRaw w w1 = some i
  | .two w w1 => twoWords w = true ∧ decodeRaw w w1 = some i
  | .half h => decodeCueRaw h = some i
  | .none => True

theorem RoundTrips.one {i : Instr} {w : Word32} {m : BitVec 6} (e : encode i = .one w) (major : fMaj w = m) (short : decide (0x30 ≤ m.toNat) = false)
    (raw : ∀ w1, decodeRaw w w1 = some i) : RoundTrips i := by
  rw [RoundTrips, e]
  exact ⟨by rw [twoWords_fMaj, major, short], raw⟩

theorem RoundTrips.wide {i : Instr} {m : BitVec 6} {fn : BitVec 5} {f : Wide} (e : encode i = wideWords m fn f) (long : decide (0x30 ≤ m.toNat) = true)
    (raw : ∀ w w1, fMaj w = m → fFn5 w = fn → wideOf w w1 = f → decodeRaw w w1 = some i) : RoundTrips i := by
  rw [RoundTrips, e]
  exact ⟨by rw [twoWords_fMaj, fMaj_wide0, long], raw _ _ (fMaj_wide0 ..) (fFn5_wide0 ..) (wideOf_wide ..)⟩

theorem RoundTrips.half {i : Instr} {h : BitVec 16} (e : encode i = .half h) (raw : decodeCueRaw h = some i) : RoundTrips i := by
  rw [RoundTrips, e]
  exact raw

/-! ### SCOPE and the other fields of FN (R58) -/

section
variable (m : BitVec 6) (d a b : BitVec 5) (c : Scope)

theorem fScope_rr {fn : BitVec 11} (code : fn.extractLsb' 8 3 = scopeCode c) : fScope (rr m d a b fn) = some c := by
  unfold fScope
  rw [extract_rr _ _ _ _ _ (by decide), code]
  cases c <;> rfl

theorem fScope_atomic (z : Bool) (k : BitVec 3) : fScope (rr m d a b (scopeCode c ++ 0#4 ++ BitVec.ofBool z ++ k)) = some c := by
  refine fScope_rr m d a b c ?_
  repeat rw [BitVec.extractLsb'_append_eq_of_le (by decide)]
  exact BitVec.extractLsb'_eq_self

theorem size_atomic (z : Bool) (k : BitVec 3) : (rr m d a b (scopeCode c ++ 0#4 ++ BitVec.ofBool z ++ k)).getLsbD 3 = z := by
  rw [getLsbD_rr _ _ _ _ _ (by decide), BitVec.getLsbD_append, if_neg (by decide), BitVec.getLsbD_append, if_pos (by decide), BitVec.getLsbD_ofBool]
  rfl

theorem kind_atomic (z : Bool) (k : BitVec 3) : (rr m d a b (scopeCode c ++ 0#4 ++ BitVec.ofBool z ++ k)).extractLsb' 0 3 = k :=
  (extract_rr _ _ _ _ _ (by decide)).trans BitVec.extractLsb'_append_eq_right

theorem fScope_fence (k : BitVec 2) : fScope (rr m d a b (scopeCode c ++ 0#6 ++ k)) = some c := by
  refine fScope_rr m d a b c ?_
  repeat rw [BitVec.extractLsb'_append_eq_of_le (by decide)]
  exact BitVec.extractLsb'_eq_self

theorem kind_fence (k : BitVec 2) : (rr m d a b (scopeCode c ++ 0#6 ++ k)).extractLsb' 0 2 = k :=
  (extract_rr _ _ _ _ _ (by decide)).trans BitVec.extractLsb'_append_eq_right

end

/-! ### Major 0x2F (R59, R207) -/

theorem RoundTrips.system {i : Instr} {d a : BitVec 5} {k : BitVec 4} {n : BitVec 12} (e : encode i = .one (sy d a k n))
    (raw : decodeSystem (sy d a k n) = some i) : RoundTrips i := by
  refine .one e (fMaj_sy ..) rfl fun _ => ?_
  rw [decodeRaw, fMaj_sy]
  exact raw

theorem not_sysrdOwnRow {st : Stream} {d : Reg} {n : BitVec 12} (wf : wellFormed st (.sysrd d n) = true) : sysrdOwnRow n = false := by
  have wf : (if sysregOk st n && !sysrdOwnRow n then both st [d] else some .systemRegister).isNone = true := wf
  cases own : sysrdOwnRow n with
  | false => rfl
  | true => simp only [own, Bool.not_true, Bool.and_false, Bool.false_eq_true, if_false, Option.isNone_some] at wf

theorem not_syswrOwnRow {st : Stream} {a : Reg} {n : BitVec 12} (wf : wellFormed st (.syswr a n) = true) : syswrOwnRow n = false := by
  have wf : (if sysregOk st n && !syswrOwnRow n then both st [a] else some .systemRegister).isNone = true := wf
  cases own : syswrOwnRow n with
  | false => rfl
  | true => simp only [own, Bool.not_true, Bool.and_false, Bool.false_eq_true, if_false, Option.isNone_some] at wf

theorem roundTrips_sysrd {d : Reg} {n : BitVec 12} (own : sysrdOwnRow n = false) : RoundTrips (.sysrd d n) := by
  refine .system rfl ?_
  simp only [decodeSystem, fKind_sy, fOff_sy, fD_sy]
  split
  · cases own
  · cases own
  · cases own
  · cases own
  · rfl

theorem roundTrips_syswr {a : Reg} {n : BitVec 12} (own : syswrOwnRow n = false) : RoundTrips (.syswr a n) := by
  refine .system rfl ?_
  simp only [decodeSystem, fKind_sy, fOff_sy, fA_sy]
  split
  · cases own
  · cases own
  · cases own
  · rfl

theorem roundTrips_sysrdTrapInfo (d : Reg) (n : BitVec 1) : RoundTrips (.sysrdTrapInfo d n) := by
  refine .system rfl ?_
  rw [decodeSystem, fKind_sy, fOff_sy, fD_sy]
  obtain rfl | rfl := BitVec.eq_zero_or_eq_one n <;> rfl

theorem roundTrips_syswrHeapWindow {st : Stream} {a : Reg} {n : BitVec 2} (wf : wellFormed st (.syswrHeapWindow a n) = true) :
    RoundTrips (.syswrHeapWindow a n) := by
  have other : n ≠ 3#2 := by rintro rfl; exact Bool.false_ne_true wf
  have named : n = 0#2 ∨ n = 1#2 ∨ n = 2#2 := by clear wf; decide +revert
  refine .system rfl ?_
  rw [decodeSystem, fKind_sy, fOff_sy, fA_sy]
  obtain rfl | rfl | rfl := named <;> rfl

/-! ### Fields of the cue halfwords (R239) -/

section
variable (m : BitVec 5) (d a b : BitVec 3) (i : BitVec 5)

theorem cueD_immediate : (m ++ d ++ a ++ i).extractLsb' 8 3 = d := by
  repeat rw [BitVec.extractLsb'_append_eq_of_le (by decide)]
  exact BitVec.extractLsb'_append_eq_right

theorem cueA_immediate : (m ++ d ++ a ++ i).extractLsb' 5 3 = a := by
  rw [BitVec.extractLsb'_append_eq_of_le (by decide)]
  exact BitVec.extractLsb'_append_eq_right

theorem cueI_immediate : (m ++ d ++ a ++ i).extractLsb' 0 5 = i := BitVec.extractLsb'_append_eq_right

theorem cueD_registers : (m ++ d ++ a ++ 0#2 ++ b).extractLsb' 8 3 = d := by
  repeat rw [BitVec.extractLsb'_append_eq_of_le (by decide)]
  exact BitVec.extractLsb'_append_eq_right

theorem cueA_registers : (m ++ d ++ a ++ 0#2 ++ b).extractLsb' 5 3 = a := by
  repeat rw [BitVec.extractLsb'_append_eq_of_le (by decide)]
  exact BitVec.extractLsb'_append_eq_right

theorem cueB_registers : (m ++ d ++ a ++ 0#2 ++ b).extractLsb' 0 3 = b := BitVec.extractLsb'_append_eq_right

theorem cueD_each (s : Bool) : (m ++ d ++ 0#2 ++ BitVec.ofBool s ++ i).extractLsb' 8 3 = d := by
  repeat rw [BitVec.extractLsb'_append_eq_of_le (by decide)]
  exact BitVec.extractLsb'_append_eq_right

theorem cueS_each (s : Bool) : (m ++ d ++ 0#2 ++ BitVec.ofBool s ++ i).getLsbD 5 = s := by
  rw [BitVec.getLsbD_append, if_neg (by decide), BitVec.getLsbD_append, if_pos (by decide), BitVec.getLsbD_ofBool]
  rfl

theorem cueI_each (s : Bool) : (m ++ d ++ 0#2 ++ BitVec.ofBool s ++ i).extractLsb' 0 5 = i := BitVec.extractLsb'_append_eq_right

theorem cueD_next : (m ++ d ++ 0#8).extractLsb' 8 3 = d := by
  rw [BitVec.extractLsb'_append_eq_of_le (by decide)]
  exact BitVec.extractLsb'_append_eq_right

theorem cueI_jmp : (m ++ 0#6 ++ i).extractLsb' 0 5 = i := BitVec.extractLsb'_append_eq_right

theorem cueI_pfx (i : BitVec 11) : (m ++ i).extractLsb' 0 11 = i := BitVec.extractLsb'_append_eq_right

end

/-! ### The tables give back every instruction -/

/-- One argument for each format, and for each field of it that holds less than its width. -/
theorem roundTrips_one {st : Stream} {i : Instr} (wf : wellFormed st i = true) {w : Word32} (e : encode i = .one w) : RoundTrips i := by
  cases i with
  | add | sub | and | or | xor | andn | shl | shr | sra | min | max | minu | maxu | clz | ctz | popc | mov | mul | mulh | mulhu | mulhsu | div
  | divu | rem | remu | seq | sne | slt | sltu | sle | sleu | jalr | rotrd | rotwr | mark | sdq | xqput | xqget | bqput | tld | tst | gth | sct
  | swait | ssig | srd | ecreate | ejoin | eleave | equery | ebar | uret | uimask =>
    refine .one rfl (fMaj_rr ..) rfl fun _ => ?_
    rw [decodeRaw, fMaj_rr, fFn_rr, fD_rr, fA_rr, fB_rr]
    rfl
  | addi | andi | ori | xori | slti | sltiu | seqi | movi | beq | bne | blt | bge | bqt | bqf =>
    refine .one rfl (fMaj_ri ..) rfl fun _ => ?_
    rw [decodeRaw, fMaj_ri, fD_ri, fA_ri, fImm_ri]
    rfl
  | shli d a i | shri d a i | srai d a i =>
    refine .one rfl (fMaj_ri ..) rfl fun _ => ?_
    rw [decodeRaw, fMaj_ri, fD_ri, fA_ri, fImm_ri, BitVec.extractLsb'_append_eq_right (a := 0#10)]
    rfl
  | movk d h i =>
    refine .one rfl (fMaj_ri ..) rfl fun _ => ?_
    rw [decodeRaw, fMaj_ri, fD_ri, fA_ri, fImm_ri, BitVec.extractLsb'_append_eq_right (a := 0#3)]
    rfl
  | mbrd | mbput =>
    refine .one rfl (fMaj_rr ..) rfl fun _ => ?_
    rw [decodeRaw, fMaj_rr, fFn_rr, fD_rr, fA_rr, fB_rr, BitVec.extractLsb'_append_eq_right (a := 0#2)]
    rfl
  | qpop =>
    refine .one rfl (fMaj_rr ..) rfl fun _ => ?_
    rw [decodeRaw, fMaj_rr, fFn_rr, fD_rr, fA_rr, fB_rr, BitVec.extractLsb'_append_eq_right (a := 0#3)]
    rfl
  | push =>
    refine .one rfl (fMaj_rr ..) rfl fun _ => ?_
    rw [decodeRaw, fMaj_rr, fD_rr, fA_rr, extract_rr (start := 0) (len := 6) _ _ _ _ _ (by decide), BitVec.extractLsb'_append_eq_right (a := 0#5)]
    rfl
  | jal =>
    refine .one rfl (fMaj_jl ..) rfl fun _ => ?_
    rw [decodeRaw, fMaj_jl, fD_jl, extract_jl]
    rfl
  | loop =>
    refine .one rfl (fMaj_lp ..) rfl fun _ => ?_
    rw [decodeRaw, fMaj_lp, level_lp, source_lp, register_lp, length_lp]
    rfl
  | ldb | ldbu | ldh | ldhu | ldw | ldwu | ldd | sab | sah | saw | sad =>
    refine .one rfl (fMaj_am ..) rfl fun _ => ?_
    rw [decodeRaw, fMaj_am, fKind_am, fD_am, fA_am, fOff_am]
    rfl
  | lqb | lqbu | lqh | lqhu | lqw | lqwu | lqd =>
    refine .one rfl (fMaj_am ..) rfl fun _ => ?_
    rw [decodeRaw, fMaj_am, fKind_am, fD_am, fA_am, fOff_am, BitVec.extractLsb'_append_eq_right (a := 0#3)]
    rfl
  | spld | spst =>
    refine .one rfl (fMaj_am ..) rfl fun _ => ?_
    rw [decodeRaw, fMaj_am, fKind_am, fD_am, extract_am, BitVec.extractLsb'_append_eq_right (a := 0#3)]
    rfl
  | amadd | ammin | ammax | amand | amor | amxor | amswp | amcas =>
    refine .one rfl (fMaj_rr ..) rfl fun _ => ?_
    rw [decodeRaw, fMaj_rr, fD_rr, fA_rr, fB_rr, kind_atomic, size_atomic, fScope_atomic]
    rfl
  | rel | acq | fence =>
    refine .one rfl (fMaj_rr ..) rfl fun _ => ?_
    rw [decodeRaw, fMaj_rr, kind_fence, fScope_fence]
    rfl
  | sysrd => exact roundTrips_sysrd (not_sysrdOwnRow wf)
  | syswr => exact roundTrips_syswr (not_syswrOwnRow wf)
  | sysrdTrapInfo => exact roundTrips_sysrdTrapInfo ..
  | syswrHeapWindow => exact roundTrips_syswrHeapWindow wf
  | sysrdSigv | sysrdSigs | trap | eret | cro | crc | sigchk | brk | halt | yield | wfi | rpopen | rpcommit =>
    refine .system rfl ?_
    rw [decodeSystem, fKind_sy, fOff_sy, fD_sy, fA_sy]
    rfl
  | locq | rpwait =>
    refine .system rfl ?_
    rw [decodeSystem, fKind_sy, fD_sy, fA_sy, flag_sy]
    rfl
  | _ => cases e

theorem roundTrips_two {i : Instr} {w w1 : Word32} (e : encode i = .two w w1) : RoundTrips i := by
  cases i with
  | vadd | vsub | vmul | vfma | vfms | vmin | vmax | vabs | vneg | vaddsat | vsubsat | vceq | vcne | vclt | vcle | vcgt | vcge | pand | por | pxor
  | pnot | pset | vand | vor | vxor | vandn | vnot | vshl | vshr | vsra | vshli | vshri | vsrai | vrsumr | vrsumc | vrmaxr | vrmaxc | vrminr | vrminc
  | vbcast | vtrans | vperm | vshuf | vcomp | vexpd | vsel | vmov | vmovi | vld | vst | vldac | pst | pld | shp | shpr | mwld | mwldq | mclr | mswap
  | mcks | mmac | cvt | cvtsr | rng | tint | tload =>
    refine .wide rfl rfl fun _ _ major function fields => ?_
    rw [decodeRaw, major, function, fields]
    rfl
  | _ => cases e

theorem roundTrips_half {i : Instr} {h : BitVec 16} (e : encode i = .half h) : RoundTrips i := by
  cases i with
  | cueMov | cueLi | cueAddi | cueShl | cueShr | cueBeq | cueBne | cueBlt | cueBge | cueVget | cueCget | cueVglob | cuePick | cuePlace =>
    refine .half rfl ?_
    unfold decodeCueRaw
    rw [← cueOpcode, cueOpcode_3_3_5, cueD_immediate, cueA_immediate, cueI_immediate]
    rfl
  | cueAdd | cueSub | cueAnd | cueOr | cueXor | cueMin | cueMax | cueSlt | cueSeq | cueMul =>
    refine .half rfl ?_
    unfold decodeCueRaw
    rw [← cueOpcode, cueOpcode_3_3_2_3, cueD_registers, cueA_registers, cueB_registers]
    rfl
  | cueEach =>
    refine .half rfl ?_
    unfold decodeCueRaw
    rw [← cueOpcode, cueOpcode_3_2_1_5, cueD_each, cueS_each, cueI_each]
    rfl
  | cueNext =>
    refine .half rfl ?_
    unfold decodeCueRaw
    rw [← cueOpcode, cueOpcode_3_8, cueD_next]
    rfl
  | cueJmp | cueDeny =>
    refine .half rfl ?_
    unfold decodeCueRaw
    rw [← cueOpcode, cueOpcode_6_5, cueI_jmp]
    rfl
  | cuePfx | cueStop =>
    refine .half rfl ?_
    unfold decodeCueRaw
    rw [← cueOpcode, cueOpcode_11, cueI_pfx]
    rfl
  | _ => cases e

theorem roundTrips {st : Stream} {i : Instr} (wf : wellFormed st i = true) : RoundTrips i := by
  cases e : encode i with
  | one => exact roundTrips_one wf e
  | two => exact roundTrips_two e
  | half => exact roundTrips_half e
  | none => rw [RoundTrips, e]; trivial

/-! ### The checks around the tables (R62, R240) -/

theorem wellFormed_iff {st : Stream} {i : Instr} : wellFormed st i = true ↔ check st i = none := Option.isNone_iff_eq_none

/-- What both decoders do with the instruction of their table: they accept it when these are exactly its words and it passes the checks. -/
def accept (st : Stream) (ws : Words) (i : Instr) : Except Illegal Instr :=
  if encode i == ws then
    match check st i with
    | none => .ok i
    | some e => .error e
  else .error .mustBeZero

theorem accept_eq_ok_iff {st : Stream} {ws : Words} {i j : Instr} : accept st ws j = .ok i ↔ j = i ∧ encode j = ws ∧ wellFormed st j = true := by
  simp only [accept, wellFormed, beq_iff_eq]
  split
  · next same => cases check st j <;> simp [same]
  · next other => simp [other]

theorem decode_of_raw {st : Stream} {w w1 : Word32} {i : Instr} (raw : decodeRaw w w1 = some i) :
    decode st w w1 = accept st (if twoWords w then .two w w1 else .one w) i := by
  rw [decode, raw]
  rfl

theorem decodeCue_of_raw {h : BitVec 16} {i : Instr} (raw : decodeCueRaw h = some i) : decodeCue h = accept .execute (.half h) i := by
  rw [decodeCue, raw]
  rfl

theorem decode_eq_ok_iff {st : Stream} {w w1 : Word32} {i : Instr} : decode st w w1 = .ok i ↔
    decodeRaw w w1 = some i ∧ encode i = (if twoWords w then .two w w1 else .one w) ∧ wellFormed st i = true := by
  cases raw : decodeRaw w w1 with
  | none => simp [decode, raw]
  | some j =>
    rw [decode_of_raw raw, accept_eq_ok_iff, Option.some.injEq]
    exact and_congr_right fun same => by rw [same]

theorem decodeCue_eq_ok_iff {h : BitVec 16} {i : Instr} :
    decodeCue h = .ok i ↔ decodeCueRaw h = some i ∧ encode i = .half h ∧ wellFormed .execute i = true := by
  cases raw : decodeCueRaw h with
  | none => simp [decodeCue, raw]
  | some j =>
    rw [decodeCue_of_raw raw, accept_eq_ok_iff, Option.some.injEq]
    exact and_congr_right fun same => by rw [same]

/-- No check of a cue instruction depends on a stream. -/
theorem wellFormed_of_cue {h : BitVec 16} {i : Instr} (cue : decodeCueRaw h = some i) (st : Stream) : wellFormed st i = wellFormed .execute i := by
  unfold decodeCueRaw at cue
  extract_lets d a b imm at cue
  split at cue <;> cases cue <;> rfl

/-- Settles O56: the fields of every format read back what `encode` put there (`roundTrips`), and both decoders accept exactly what their
table gives, when it has these words and is well-formed (`decode_eq_ok_iff`, `decodeCue_eq_ok_iff`). -/
theorem decodeAndEncodeAgree : Obligations.DecodeAndEncodeAgree := by
  refine ⟨fun st i wf => ⟨fun w w1 e => ?_, fun w w1 e => ?_, fun h e => ?_⟩, fun st w w1 i decoded => ?_, fun st h i decoded => ?_⟩
  · have trip := roundTrips wf
    rw [RoundTrips, e] at trip
    obtain ⟨short, raw⟩ := trip
    exact ⟨short, decode_eq_ok_iff.mpr ⟨raw w1, by rw [e, short]; rfl, wf⟩⟩
  · have trip := roundTrips wf
    rw [RoundTrips, e] at trip
    obtain ⟨long, raw⟩ := trip
    exact ⟨long, decode_eq_ok_iff.mpr ⟨raw, by rw [e, long]; rfl, wf⟩⟩
  · have raw := roundTrips wf
    rw [RoundTrips, e] at raw
    exact decodeCue_eq_ok_iff.mpr ⟨raw, e, wellFormed_of_cue raw st ▸ wf⟩
  · obtain ⟨-, words, wf⟩ := decode_eq_ok_iff.mp decoded
    exact ⟨wf, words⟩
  · obtain ⟨raw, words, wf⟩ := decodeCue_eq_ok_iff.mp decoded
    exact ⟨wellFormed_of_cue raw st ▸ wf, words⟩

theorem decode_ne_ok_of_error {st : Stream} {w w1 : Word32} {r : Illegal} {i : Instr} (e : decode st w w1 = .error r) : decode st w w1 ≠ .ok i := by
  rw [e]
  exact nofun

/-- Settles O57: the decoder runs on the words; the last three are refused for a register above H15, a field that must be zero and the stream. -/
theorem wordsOfTheSpec : Obligations.WordsOfTheSpec :=
  ⟨rfl, rfl, rfl, rfl, rfl, rfl, rfl, rfl, rfl, rfl, rfl, rfl, rfl, rfl, fun _ => rfl, decode_ne_ok_of_error (r := .register) rfl,
    decode_ne_ok_of_error (r := .mustBeZero) rfl, decode_ne_ok_of_error (r := .wrongStream) rfl⟩

end Sys2Proof
end

section
/-!
O58: what a step does with the turn at the head of the schedule. A turn is taken first (`takeTurn`), the instruction that it gives runs, and
TIME goes on; which instruction a stream's turn gives is said by `issueTurn` and `fetch`.
-/
namespace Sys2Proof.Machine

/-! ### TIME -/

@[simp] theorem sealStep_time (s : State) : (sealStep s).mod.time = s.mod.time := by
  have same (m : Module) (k : Nat) (c : SealedCopy) : (m.setSeal k c).time = m.time := by unfold Module.setSeal; split <;> rfl
  fun_cases sealStep <;> simp +zetaDelta [same]

theorem noteUse_time (s : State) (n : Nat) : (noteUse s n).mod.time = s.mod.time := rfl
theorem noteIdle_time (s : State) : (noteIdle s).mod.time = s.mod.time := rfl

theorem tick_of_ps3 {s : State} (off : s.mod.power = .ps3) : tick s = s := by
  unfold tick
  rw [off]
  rfl

theorem time_le_tick {s : State} (on : s.mod.power ≠ .ps3) : s.mod.time ≤ (tick s).mod.time := by
  have kept (x : State) : (if x.mod.inReset then x else sealStep x).mod.time = x.mod.time := by split <;> simp
  unfold tick
  rw [if_neg (by simpa using on)]
  simp only [mapThreads_mod, kept, noteIdle_time, noteUse_time]
  exact Nat.le_add_right ..

/-! ### The turn at the head of the schedule -/

section
variable {s : State} {t : Turn} {rest : List Turn}

theorem select_cons (next : s.sched = t :: rest) : select s = takeTurn { s with sched := rest } t := by
  unfold select
  rw [next]

theorem step_of_turn (next : s.sched = t :: rest) {i : Instr} {x : State} (taken : takeTurn { s with sched := rest } t = (some i, x)) :
    step s = andTick (exec i x) := by
  unfold step
  rw [select_cons next, taken]

theorem step_of_idle_turn (next : s.sched = t :: rest) {x : State} (taken : takeTurn { s with sched := rest } t = (none, x)) :
    step s = .next (tick x) := by
  unfold step
  rw [select_cons next, taken]
  exact if_neg (by simp [next])

end

/-! ### The turn of a stream (R199) -/

section
variable {s x : State} {tid : Nat} {st : Stream}

theorem issueTurn_interrupt (found : focus s tid = some x) (run : recordsRun x = true) (may : mayIssue x x.thr .execute = true)
    (due : uliDue { x with cur := .execute } x.thr ≠ none) : issueTurn s tid .execute = (some (.uliDelivery tid), { x with cur := .execute }) := by
  have due := Option.isSome_iff_ne_none.mpr due
  simp [issueTurn, found, run, may, due]

theorem issueTurn_fetch (found : focus s tid = some x) (run : recordsRun x = true) (may : mayIssue x x.thr st = true)
    (clear : st = .execute → uliDue { x with cur := st } x.thr = none) :
    issueTurn s tid st = (some (fetch { x with cur := st }), noteFetch { x with cur := st }) := by
  have clear : (st == .execute && (uliDue { x with cur := st } x.thr).isSome) = false := by
    cases st with
    | execute => simp [clear rfl]
    | access => rfl
  simp [issueTurn, found, run, may, clear]

theorem issueTurn_idle (idle : ∀ x, focus s tid = some x → recordsRun x = false ∨ mayIssue x x.thr st = false) : issueTurn s tid st = (none, s) := by
  unfold issueTurn
  split
  · rfl
  · next x found => exact if_neg (by rcases idle x found with h | h <;> simp [h])

end

/-! ### Fetching (R62, R66, R67) -/

/-- The words at the program counter: `v` is the second word where the first has one, and 0 where it does not. -/
def FetchedWords (s : State) (w v : Word32) : Prop :=
  ∃ w1, codeWords s s.thr s.pc.toNat = some (w, w1) ∧ (twoWords w = false ∧ v = 0 ∨ twoWords w = true ∧ w1 = some v)

section
variable {s : State} {w v : Word32} {w1 : Option Word32}

theorem fetchedWords_one (found : codeWords s s.thr s.pc.toNat = some (w, w1)) (short : w.toNat < 0xC0000000) : FetchedWords s w 0 :=
  ⟨w1, found, .inl ⟨by simpa [twoWords] using short, rfl⟩⟩

theorem fetchedWords_two (found : codeWords s s.thr s.pc.toNat = some (w, some v)) (long : 0xC0000000 ≤ w.toNat) : FetchedWords s w v :=
  ⟨some v, found, .inr ⟨by simpa [twoWords] using long, rfl⟩⟩

theorem fetch_of_decode (words : FetchedWords s w v) {i : Instr} (ok : decode s.cur w v = .ok i) : fetch s = i := by
  obtain ⟨w1, found, ⟨short, rfl⟩ | ⟨long, rfl⟩⟩ := words
  · simp only [fetch, found, short, ok, Bool.false_eq_true, if_false]
  · simp only [fetch, found, long, ok, if_true]

theorem fetch_of_refused (words : FetchedWords s w v) (refused : ∀ i, decode s.cur w v ≠ .ok i) : fetch s = .illegalInstruction w v := by
  obtain ⟨r, error⟩ : ∃ r, decode s.cur w v = .error r := by
    cases answer : decode s.cur w v with
    | error r => exact ⟨r, rfl⟩
    | ok i => exact absurd answer (refused i)
  obtain ⟨w1, found, ⟨short, rfl⟩ | ⟨long, rfl⟩⟩ := words
  · simp only [fetch, found, short, error, Bool.false_eq_true, if_false]
  · simp only [fetch, found, long, error, if_true]

theorem fetch_of_cut (found : codeWords s s.thr s.pc.toNat = some (w, none)) (long : 0xC0000000 ≤ w.toNat) : fetch s = .illegalInstruction w 0 := by
  have long : twoWords w = true := by simpa [twoWords] using long
  simp [fetch, found, long]

theorem fetch_outside (outside : codeWords s s.thr s.pc.toNat = none) : fetch s = .illegalInstruction 0 0 := by
  simp [fetch, outside]

theorem noteFetch_found {p : Word32 × Option Word32} (found : codeWords s s.thr s.pc.toNat = some p) : noteFetch s = s := by
  simp [noteFetch, found]

theorem noteFetch_outside (outside : codeWords s s.thr s.pc.toNat = none) : noteFetch s = logMalformed s s.thr.part s.pc.toNat := by
  simp [noteFetch, outside]

end

theorem logMalformed_cur (s : State) (p va : Nat) : (logMalformed s p va).cur = s.cur := by unfold logMalformed; split <;> rfl
theorem logMalformed_pc (s : State) (p va : Nat) : (logMalformed s p va).pc = s.pc := by unfold logMalformed; split <;> rfl

/-- ILLEGAL_INSTRUCTION takes cause 0x01 with the words in TADDR (R66). -/
theorem exec_illegalInstruction (w w1 : Word32) (s : State) : exec (.illegalInstruction w w1) s = .next (raise s s.cur 0x01 s.pc (w1 ++ w)) := rfl

/-! ### One step -/

section
variable {s x : State} {tid : Nat} {st : Stream} {rest : List Turn} (next : s.sched = .issue tid st :: rest)
  (found : focus { s with sched := rest } tid = some x) (run : recordsRun x = true) (may : mayIssue x x.thr st = true)
include next found run may

theorem step_interrupt (execute : st = .execute) (due : uliDue { x with cur := st } x.thr ≠ none) :
    step s = andTick (exec (.uliDelivery tid) { x with cur := st }) := by
  subst execute
  exact step_of_turn next (issueTurn_interrupt found run may due)

variable (clear : st = .execute → uliDue { x with cur := st } x.thr = none)
include clear

theorem step_fetch : step s = andTick (exec (fetch { x with cur := st }) (noteFetch { x with cur := st })) :=
  step_of_turn next (issueTurn_fetch found run may clear)

theorem step_outside {y : State} (same : y = { x with cur := st }) (outside : codeWords y y.thr y.pc.toNat = none) :
    step s = .next (tick (raise (logMalformed y y.thr.part y.pc.toNat) st 0x01 y.pc 0)) := by
  subst same
  rw [step_fetch next found run may clear, fetch_outside outside, noteFetch_outside outside, exec_illegalInstruction, logMalformed_cur, logMalformed_pc]
  rfl

theorem step_inside {y : State} (same : y = { x with cur := st }) {p : Word32 × Option Word32} (inside : codeWords y y.thr y.pc.toNat = some p) :
    step s = andTick (exec (fetch y) y) := by
  subst same
  rw [step_fetch next found run may clear, noteFetch_found inside]

theorem step_illegal {y : State} (same : y = { x with cur := st }) {p : Word32 × Option Word32} (inside : codeWords y y.thr y.pc.toNat = some p)
    {w v : Word32} (illegal : fetch y = .illegalInstruction w v) : step s = .next (tick (raise y st 0x01 y.pc (v ++ w))) := by
  rw [step_inside next found run may clear same inside, illegal, exec_illegalInstruction, same]
  rfl

theorem step_words {y : State} (same : y = { x with cur := st }) {w v : Word32} (words : FetchedWords y w v) :
    (∀ i, decode st w v = .ok i → step s = andTick (exec i y))
      ∧ ((∀ i, decode st w v ≠ .ok i) → step s = .next (tick (raise y st 0x01 y.pc (v ++ w)))) := by
  have cur : y.cur = st := by rw [same]
  have ⟨_, inside, _⟩ := words
  refine ⟨fun i ok => ?_, fun refused => ?_⟩
  · rw [step_inside next found run may clear same inside, fetch_of_decode words (cur ▸ ok)]
  · exact step_illegal next found run may clear same inside (fetch_of_refused words (cur ▸ refused))

end

theorem step_cue {s : State} {p : Nat} {rest : List Turn} {i : Instr} (next : s.sched = .cue p :: rest) (run : recordsRun s = true)
    (active : (s.part p).run.active = true) (ok : decodeCue ((s.part p).run.code.getD (s.part p).run.pc 0) = .ok i) :
    step s = andTick (exec i { s with sched := rest, curPart := p }) := by
  have fetched : cueFetch (s.part p).run = some i := by unfold cueFetch; rw [active, ok]
  refine step_of_turn next (Prod.ext ?_ rfl)
  exact (if_pos run).trans fetched

/-- Settles O58: the turn at the head of the schedule gives the instruction (`step_of_turn`), for a stream the one that the words at its pc
decode to (`step_words`); TIME goes on by `time_le_tick`. -/
theorem stepRunsTheDecodedInstruction : Obligations.StepRunsTheDecodedInstruction := by
  refine ⟨fun s x tid st rest w w1 next found run may => ?_, fun s tid st rest next idle => step_of_idle_turn next (issueTurn_idle idle),
    fun s e rest next => step_of_turn next rfl, fun s p rest i next run active ok => step_cue next run active ok,
    fun s => ⟨tick_of_ps3, time_le_tick, tick_mem s⟩, fun s w w1 => exec_illegalInstruction w w1 s⟩
  refine ⟨fun execute due => step_interrupt next found run may execute due, fun clear => ⟨fun outside => ?_, fun inside => ⟨fun short => ?_, ?_, ?_⟩⟩⟩
  · exact step_outside next found run may clear rfl outside
  · exact step_words next found run may clear rfl (fetchedWords_one inside short)
  · rintro long rfl
    exact step_illegal next found run may clear rfl inside (fetch_of_cut inside long)
  · rintro long v rfl
    exact step_words next found run may clear rfl (fetchedWords_two inside long)

end Sys2Proof.Machine
end
